-- ==== Sys2Proof/Word.lean ====
section
/-!
DEFINITION. The word types of the model, the sparse tables its state is made of, and the shapes of the register map.
-/
namespace Sys2Proof

abbrev Byte := BitVec 8
abbrev Word := BitVec 32
abbrev DWord := BitVec 64

/-- A sparse table: keys strictly rising, no entry equal to what an unlisted key reads as. -/
abbrev Tbl (α : Type) := List (Nat × α)

namespace Machine

/-- A field of a register: the register's offset from 0x50_0000_0000 and the field's top and bottom bit. -/
structure Fld where
  addr : Nat
  hi : Nat
  lo : Nat
  deriving DecidableEq, Repr

/-- Access types of R3. RWK is `rw` with protection `keeper`, RWL is `rw` with protection `lock`. -/
inductive Access where
  | ro | rw | wo | w1c | w1s | rws
  deriving DecidableEq, Repr

/-- Who may write a field: every master, the Keeper only (RWK), or every master until the governing lock is set (RWL). -/
inductive Guard where
  | open | keeper | lock
  deriving DecidableEq, Repr

/-- The eight reset kinds of the spec, and the release of the always-on domain from its own power-on reset. -/
inductive ResetKind where
  | por | dip | pin | wdt | sys | app | head | engine | aonPor
  deriving DecidableEq, Repr

/-- Which reset kinds restore a register: `core` POR DIP PIN WDT SYS; `app` those and APP; `engine` those and ENGINE of its
engine; `head` those and HEAD of its head; `por` POR only; `aon` the AON POR only; `strap` POR and PIN. -/
inductive RegKinds where
  | core | app | engine | head | por | aon | strap
  deriving DecidableEq, Repr

/-- A field of a row of the register map. -/
structure RegField where
  hi : Nat
  lo : Nat
  acc : Access
  guard : Guard
  rst : Nat
  deriving DecidableEq, Repr

/-- A register array of the register map: base offset, (stride, count) of each index, the reset kinds that restore it, the
amount by which the reset value rises with the first index, and the fields. -/
structure RegRow where
  base : Nat
  dims : List (Nat × Nat)
  kinds : RegKinds
  step : Nat
  fields : List RegField
  deriving DecidableEq, Repr

end Machine
end Sys2Proof
end

