-- ==== Sys2Proof/Syntax.lean ====
section
/-!
DEFINITION. The commands of the device: one constructor for each row of the operation table, with the operands the spec
gives the operation. An event the outside world decides carries what the outside world decides as operands.
-/
namespace Sys2Proof

/-- A master identifier (R24). -/
abbrev Mst := BitVec 8

/-- What raised a POR (R489): the always-on supply, a low VDD_CORE, or a wake from DEEP with its PWR_WAKE.CAUSE code. -/
inductive PorSource where
  | aon | coreLow | deepWake (cause : Fin 5)
  deriving DecidableEq, Repr

/-- An agreement message (R446): the fields of AGREE_HDR, the vectors, the command area, and whether the CRC of AGREE_END matches. -/
structure AgreeMsg where
  tick : Nat
  role : Nat
  health : Nat
  flags : Nat
  cmdCount : Nat
  cmds : List Byte
  digest : Nat
  heads : Nat
  readyTick : Nat
  stateCrc : Nat
  stateTick : Nat
  stream : List Nat
  input : List Nat
  endTick : Nat
  crc : Nat
  deriving DecidableEq, Repr

/-- What a check found in blocks that arrive (R319, R369): the words that stay bad, and how many errors it mended. -/
structure RowErrs where
  lasting : List Nat
  mended : Nat
  deriving DecidableEq, Repr

/-- A read served by the memory controller: how many ns it took, and what parity found in the words delivered (R370). -/
structure ReadRun where
  ns : Nat
  par : RowErrs
  deriving DecidableEq, Repr

/-- Write data as it reaches its destination: the bytes, the code words that the master marks as poison (R367), and what parity found (R370). -/
structure WrData where
  bytes : List Byte
  marks : List Nat
  par : RowErrs
  deriving DecidableEq, Repr

/-- A dirty line that leaves the A-core caches: its 64-byte block, its sectors whose words are uncorrectable, and the errors counted as
corrected meanwhile, a clean line fetched again among them (R369). -/
structure LineRun where
  blk : BitVec 30
  lost : List (Fin 2)
  mended : Nat
  deriving DecidableEq, Repr

/-- Why a barge is bad: its checks, its framing, or an uncorrectable word of a replay or receive buffer (R136, R369). -/
inductive BargeFault where
  | check | framing | buffer
  deriving DecidableEq, Repr
/-- A bad barge, and the errors that the replay and receive buffers have corrected meanwhile (R369). -/
structure BadRun where
  fault : BargeFault
  mended : Nat
  deriving DecidableEq, Repr

/-- What an engine met while it worked: corrected errors of its caches and context state (R369), and parity replays that mended a transfer
(R370). -/
structure EngRun where
  mended : Nat
  replays : Nat
  deriving DecidableEq, Repr

/-- Tiles whose Age Map entry is uncorrectable as a head reads its row, and as a writeback port reads the row just drawn (R327), and the
errors corrected (R369). -/
structure AmapErrs where
  head : List Nat
  port : List Nat
  mended : Nat
  deriving DecidableEq, Repr

/-- The commands (opcode_table.json, one constructor a row, in its order). -/
inductive Instr where
  /-- REG_WRITE (R549). Master `m` writes `w` at offset `off` from 0x50_0000_0000. -/
  | regWrite (m : Mst) (off : BitVec 24) (w : Word)
  /-- TIME_TRIPLE_READ (R28). Master `m` reads the latching register at offset `off` from 0x50_0000_0000. -/
  | timeTripleRead (m : Mst) (off : BitVec 24)
  /-- XIP_READ_RESUME (R527). A read of the execute-in-place window by `m` that the operation stalled completes. -/
  | xipReadResume (m : Mst)
  /-- TIME_LOAD (R34). a write of `w` to TIME_LOAD -/
  | timeLoad (m : Mst) (w : Word)
  /-- TIME_STEP_ARM (R35). a write of GO = 1 and FRAC to TIME_STEP_CTL -/
  | timeStepArm (m : Mst) (frac : BitVec 16)
  /-- TIME_STEP_DISARM (R35). a write of GO = 0 and FRAC to TIME_STEP_CTL -/
  | timeStepDisarm (m : Mst) (frac : BitVec 16)
  /-- TIME_RATE_WRITE (R31). a write to TIME_RATE -/
  | timeRateWrite (m : Mst) (w : Word)
  /-- TIME_TRACK_WRITE (R29). a write to TIME_CTRL -/
  | timeTrackWrite (m : Mst) (w : Word)
  /-- HOLDOVER_ENTER (R31). HOLD_TIMEOUT elapses -/
  | holdoverEnter
  /-- TS_POP (R32). a write to TIME_TS_POP -/
  | tsPop (m : Mst) (w : Word)
  /-- TIMESTAMP (R37). a TIMESTAMP on Q20 + k -/
  | timestamp (k : Fin 2) (seq : BitVec 12) (rpl : Bool) (seqId : BitVec 16) (msgType : BitVec 4) (interval : Word) (orgSec : BitVec 48) (orgNs : Word) (orgValid : Bool)
  /-- PPS_EDGE (R38). after `wait` ns of REFCLK time the level of PPS_IN changes -/
  | ppsEdge (wait : Nat)
  /-- TICK_RATE_WRITE (R41). Master `m` writes `w` to TICK_RATE. -/
  | tickRateWrite (m : Mst) (w : Word)
  /-- TICK_EPOCH_WRITE (R41). Master `m` writes `w` to TICK_EPOCH_i. -/
  | tickEpochWrite (m : Mst) (i : Fin 3) (w : Word)
  /-- TICK_RUN_START (R42). Master `m` writes `w` to TICK_CTRL. -/
  | tickRunStart (m : Mst) (w : Word)
  /-- TICK_RUN_STOP (R42). Master `m` writes `w` to TICK_CTRL. -/
  | tickRunStop (m : Mst) (w : Word)
  /-- TICK_HPHASE_WRITE (R45). master m writes TICK_HPHASE_h -/
  | tickHphaseWrite (m : Mst) (h : Fin 32) (v : Word)
  /-- TICK_BOUNDARY (R40). The counter reaches B(n) of the next boundary. -/
  | tickBoundary
  /-- TICK_MIDPOINT (R40). The counter reaches M(n). -/
  | tickMidpoint
  /-- AGREE_DEADLINE (R449). The counter reaches B(n) + 38 µs. -/
  | agreeDeadline
  /-- INBOX_RELEASE (R450). The counter reaches B(n) + 40 µs. -/
  | inboxRelease
  /-- ALU_ADD (R60). Core, predicate field and register fields. -/
  | aluAdd (c : Fin 13) (pf : BitVec 4) (rd ra rb : BitVec 5)
  /-- ALU_SUB (R60). Core, predicate field and register fields. -/
  | aluSub (c : Fin 13) (pf : BitVec 4) (rd ra rb : BitVec 5)
  /-- ALU_AND (R60). Core, predicate field and register fields. -/
  | aluAnd (c : Fin 13) (pf : BitVec 4) (rd ra rb : BitVec 5)
  /-- ALU_OR (R60). Core, predicate field and register fields. -/
  | aluOr (c : Fin 13) (pf : BitVec 4) (rd ra rb : BitVec 5)
  /-- ALU_XOR (R60). Core, predicate field and register fields. -/
  | aluXor (c : Fin 13) (pf : BitVec 4) (rd ra rb : BitVec 5)
  /-- ALU_ANDN (R60). Core, predicate field and register fields. -/
  | aluAndn (c : Fin 13) (pf : BitVec 4) (rd ra rb : BitVec 5)
  /-- ALU_SLL (R60). Core, predicate field and register fields. -/
  | aluSll (c : Fin 13) (pf : BitVec 4) (rd ra rb : BitVec 5)
  /-- ALU_SRL (R60). Core, predicate field and register fields. -/
  | aluSrl (c : Fin 13) (pf : BitVec 4) (rd ra rb : BitVec 5)
  /-- ALU_SRA (R60). Core, predicate field and register fields. -/
  | aluSra (c : Fin 13) (pf : BitVec 4) (rd ra rb : BitVec 5)
  /-- ALU_ROR (R60). Core, predicate field and register fields. -/
  | aluRor (c : Fin 13) (pf : BitVec 4) (rd ra rb : BitVec 5)
  /-- ALU_MUL (R60). Core, predicate field and register fields. -/
  | aluMul (c : Fin 13) (pf : BitVec 4) (rd ra rb : BitVec 5)
  /-- ALU_MULH (R60). Core, predicate field and register fields. -/
  | aluMulh (c : Fin 13) (pf : BitVec 4) (rd ra rb : BitVec 5)
  /-- ALU_MULHU (R60). Core, predicate field and register fields. -/
  | aluMulhu (c : Fin 13) (pf : BitVec 4) (rd ra rb : BitVec 5)
  /-- ALU_DIV (R61). Core, predicate field and register fields. -/
  | aluDiv (c : Fin 13) (pf : BitVec 4) (rd ra rb : BitVec 5)
  /-- ALU_DIVU (R61). Core, predicate field and register fields. -/
  | aluDivu (c : Fin 13) (pf : BitVec 4) (rd ra rb : BitVec 5)
  /-- ALU_REM (R61). Core, predicate field and register fields. -/
  | aluRem (c : Fin 13) (pf : BitVec 4) (rd ra rb : BitVec 5)
  /-- ALU_REMU (R61). Core, predicate field and register fields. -/
  | aluRemu (c : Fin 13) (pf : BitVec 4) (rd ra rb : BitVec 5)
  /-- ALU_MIN (R60). Core, predicate field and register fields. -/
  | aluMin (c : Fin 13) (pf : BitVec 4) (rd ra rb : BitVec 5)
  /-- ALU_MAX (R60). Core, predicate field and register fields. -/
  | aluMax (c : Fin 13) (pf : BitVec 4) (rd ra rb : BitVec 5)
  /-- ALU_MINU (R60). Core, predicate field and register fields. -/
  | aluMinu (c : Fin 13) (pf : BitVec 4) (rd ra rb : BitVec 5)
  /-- ALU_MAXU (R60). Core, predicate field and register fields. -/
  | aluMaxu (c : Fin 13) (pf : BitVec 4) (rd ra rb : BitVec 5)
  /-- ALU_CLZ (R60). Core, predicate field and register fields. -/
  | aluClz (c : Fin 13) (pf : BitVec 4) (rd ra rb : BitVec 5)
  /-- ALU_CTZ (R60). Core, predicate field and register fields. -/
  | aluCtz (c : Fin 13) (pf : BitVec 4) (rd ra rb : BitVec 5)
  /-- ALU_POPC (R60). Core, predicate field and register fields. -/
  | aluPopc (c : Fin 13) (pf : BitVec 4) (rd ra rb : BitVec 5)
  /-- ALU_SEXTW (R60). Core, predicate field and register fields. -/
  | aluSextw (c : Fin 13) (pf : BitVec 4) (rd ra rb : BitVec 5)
  /-- ALU_ZEXTW (R60). Core, predicate field and register fields. -/
  | aluZextw (c : Fin 13) (pf : BitVec 4) (rd ra rb : BitVec 5)
  /-- ADDI (R59). Core, predicate field, registers and imm12. -/
  | addi (c : Fin 13) (pf : BitVec 4) (rd ra : BitVec 5) (imm : BitVec 12)
  /-- ANDI (R59). Core, predicate field, registers and imm12. -/
  | andi (c : Fin 13) (pf : BitVec 4) (rd ra : BitVec 5) (imm : BitVec 12)
  /-- ORI (R59). Core, predicate field, registers and imm12. -/
  | ori (c : Fin 13) (pf : BitVec 4) (rd ra : BitVec 5) (imm : BitVec 12)
  /-- XORI (R59). Core, predicate field, registers and imm12. -/
  | xori (c : Fin 13) (pf : BitVec 4) (rd ra : BitVec 5) (imm : BitVec 12)
  /-- SHI (R59). imm[11:8] (zero), kind and amount. -/
  | shi (c : Fin 13) (pf : BitVec 4) (rd ra : BitVec 5) (z : BitVec 4) (kind : BitVec 2) (amt : BitVec 6)
  /-- LUI (R59). imm17. -/
  | lui (c : Fin 13) (pf : BitVec 4) (rd : BitVec 5) (imm : BitVec 17)
  /-- AUIPC (R59). imm17. -/
  | auipc (c : Fin 13) (pf : BitVec 4) (rd : BitVec 5) (imm : BitVec 17)
  /-- LB (R65). Core, predicate field, rd, ra and imm12. -/
  | lb (c : Fin 13) (pf : BitVec 4) (rd ra : BitVec 5) (imm : BitVec 12)
  /-- LBU (R65). Core, predicate field, rd, ra and imm12. -/
  | lbu (c : Fin 13) (pf : BitVec 4) (rd ra : BitVec 5) (imm : BitVec 12)
  /-- LH (R65). Core, predicate field, rd, ra and imm12. -/
  | lh (c : Fin 13) (pf : BitVec 4) (rd ra : BitVec 5) (imm : BitVec 12)
  /-- LHU (R65). Core, predicate field, rd, ra and imm12. -/
  | lhu (c : Fin 13) (pf : BitVec 4) (rd ra : BitVec 5) (imm : BitVec 12)
  /-- LW (R65). Core, predicate field, rd, ra and imm12. -/
  | lw (c : Fin 13) (pf : BitVec 4) (rd ra : BitVec 5) (imm : BitVec 12)
  /-- LWU (R65). Core, predicate field, rd, ra and imm12. -/
  | lwu (c : Fin 13) (pf : BitVec 4) (rd ra : BitVec 5) (imm : BitVec 12)
  /-- LD (R65). Core, predicate field, rd, ra and imm12. -/
  | ld (c : Fin 13) (pf : BitVec 4) (rd ra : BitVec 5) (imm : BitVec 12)
  /-- LDQ (R65). Core, predicate field, rd, ra and imm12. -/
  | ldq (c : Fin 13) (pf : BitVec 4) (rd ra : BitVec 5) (imm : BitVec 12)
  /-- SB (R67). Core, predicate field, rs, ra and imm12. -/
  | sb (c : Fin 13) (pf : BitVec 4) (rs ra : BitVec 5) (imm : BitVec 12)
  /-- SH (R67). Core, predicate field, rs, ra and imm12. -/
  | sh (c : Fin 13) (pf : BitVec 4) (rs ra : BitVec 5) (imm : BitVec 12)
  /-- SW (R67). Core, predicate field, rs, ra and imm12. -/
  | sw (c : Fin 13) (pf : BitVec 4) (rs ra : BitVec 5) (imm : BitVec 12)
  /-- SD (R67). Core, predicate field, rs, ra and imm12. -/
  | sd (c : Fin 13) (pf : BitVec 4) (rs ra : BitVec 5) (imm : BitVec 12)
  /-- STQ (R67). Core, predicate field, rs, ra and imm12. -/
  | stq (c : Fin 13) (pf : BitVec 4) (rs ra : BitVec 5) (imm : BitVec 12)
  /-- AMO_SWAP (R69). Core, predicate field and register fields. -/
  | amoSwap (c : Fin 13) (pf : BitVec 4) (rd ra rb : BitVec 5)
  /-- AMO_ADD (R69). Core, predicate field and register fields. -/
  | amoAdd (c : Fin 13) (pf : BitVec 4) (rd ra rb : BitVec 5)
  /-- AMO_AND (R69). Core, predicate field and register fields. -/
  | amoAnd (c : Fin 13) (pf : BitVec 4) (rd ra rb : BitVec 5)
  /-- AMO_OR (R69). Core, predicate field and register fields. -/
  | amoOr (c : Fin 13) (pf : BitVec 4) (rd ra rb : BitVec 5)
  /-- AMO_XOR (R69). Core, predicate field and register fields. -/
  | amoXor (c : Fin 13) (pf : BitVec 4) (rd ra rb : BitVec 5)
  /-- AMO_MAX (R69). Core, predicate field and register fields. -/
  | amoMax (c : Fin 13) (pf : BitVec 4) (rd ra rb : BitVec 5)
  /-- AMO_MIN (R69). Core, predicate field and register fields. -/
  | amoMin (c : Fin 13) (pf : BitVec 4) (rd ra rb : BitVec 5)
  /-- AMO_MAXU (R69). Core, predicate field and register fields. -/
  | amoMaxu (c : Fin 13) (pf : BitVec 4) (rd ra rb : BitVec 5)
  /-- AMO_MINU (R69). Core, predicate field and register fields. -/
  | amoMinu (c : Fin 13) (pf : BitVec 4) (rd ra rb : BitVec 5)
  /-- CAS (R69). Core, predicate field and register fields; rd holds the expected value. -/
  | cas (c : Fin 13) (pf : BitVec 4) (rd ra rb : BitVec 5)
  /-- CMP (R62). pd, condition, registers and bits [5:0] (zero). -/
  | cmp (c : Fin 13) (pf : BitVec 4) (pd cond : BitVec 3) (ra rb : BitVec 5) (z : BitVec 6)
  /-- CMPI (R62). pd, condition, register and imm11. -/
  | cmpi (c : Fin 13) (pf : BitVec 4) (pd cond : BitVec 3) (ra : BitVec 5) (imm : BitVec 11)
  /-- PRED_AND (R62). Core, predicate field, pd, pa, pb and the bits that must be zero. -/
  | predAnd (c : Fin 13) (pf : BitVec 4) (pd pa pb : BitVec 3) (z : BitVec 10)
  /-- PRED_OR (R62). Core, predicate field, pd, pa, pb and the bits that must be zero. -/
  | predOr (c : Fin 13) (pf : BitVec 4) (pd pa pb : BitVec 3) (z : BitVec 10)
  /-- PRED_XOR (R62). Core, predicate field, pd, pa, pb and the bits that must be zero. -/
  | predXor (c : Fin 13) (pf : BitVec 4) (pd pa pb : BitVec 3) (z : BitVec 10)
  /-- PRED_ANDN (R62). Core, predicate field, pd, pa, pb and the bits that must be zero. -/
  | predAndn (c : Fin 13) (pf : BitVec 4) (pd pa pb : BitVec 3) (z : BitVec 10)
  /-- SEL (R59). fn[6:4] and fn[3:0] (zero). -/
  | sel (c : Fin 13) (pf : BitVec 4) (rd ra rb : BitVec 5) (p : BitVec 3) (z : BitVec 4)
  /-- BR (R64). off22. -/
  | br (c : Fin 13) (pf : BitVec 4) (off : BitVec 22)
  /-- CALL (R64). off22. -/
  | call (c : Fin 13) (pf : BitVec 4) (off : BitVec 22)
  /-- JR (R64). Link register, base and imm12. -/
  | jr (c : Fin 13) (pf : BitVec 4) (rd ra : BitVec 5) (imm : BitVec 12)
  /-- TRAP (R63). The rd field (zero) and the code. -/
  | trap (c : Fin 13) (pf : BitVec 4) (z : BitVec 5) (code : BitVec 10)
  /-- BREAK (R63). The rd field and the code, both zero. -/
  | breakpoint (c : Fin 13) (pf : BitVec 4) (z : BitVec 5) (code : BitVec 10)
  /-- ERET (R84). The rd field and the code, both zero. -/
  | eret (c : Fin 13) (pf : BitVec 4) (z : BitVec 5) (code : BitVec 10)
  /-- WFI (R63). The rd field and the code, both zero. -/
  | wfi (c : Fin 13) (pf : BitVec 4) (z : BitVec 5) (code : BitVec 10)
  /-- WFI_WAKE (R63). Core `c` may resume. -/
  | wfiWake (c : Fin 13)
  /-- SYNC_LL (R76). rd, ra and imm[11:4], all zero. -/
  | syncLl (c : Fin 13) (pf : BitVec 4) (z : BitVec 18)
  /-- SYNC_SS (R76). rd, ra and imm[11:4], all zero. -/
  | syncSs (c : Fin 13) (pf : BitVec 4) (z : BitVec 18)
  /-- SYNC_LS (R76). rd, ra and imm[11:4], all zero. -/
  | syncLs (c : Fin 13) (pf : BitVec 4) (z : BitVec 18)
  /-- SYNC_SL (R76). rd, ra and imm[11:4], all zero. -/
  | syncSl (c : Fin 13) (pf : BitVec 4) (z : BitVec 18)
  /-- SYNC_ALL (R76). rd, ra and imm[11:4], all zero. -/
  | syncAll (c : Fin 13) (pf : BitVec 4) (z : BitVec 18)
  /-- SYNC_DONE (R76). rd, ra and imm[11:4], all zero. -/
  | syncDone (c : Fin 13) (pf : BitVec 4) (z : BitVec 18)
  /-- SYNC_I (R76). rd, ra and imm[11:4], all zero. -/
  | syncI (c : Fin 13) (pf : BitVec 4) (z : BitVec 18)
  /-- CSRRW (R59). CSR number in imm12. -/
  | csrrw (c : Fin 13) (pf : BitVec 4) (rd ra : BitVec 5) (csr : BitVec 12)
  /-- CSRRS (R59). CSR number in imm12. -/
  | csrrs (c : Fin 13) (pf : BitVec 4) (rd ra : BitVec 5) (csr : BitVec 12)
  /-- CSRRC (R59). CSR number in imm12. -/
  | csrrc (c : Fin 13) (pf : BitVec 4) (rd ra : BitVec 5) (csr : BitVec 12)
  /-- WDKICK (R96). CSRRW to CSR 0x030. -/
  | wdkick (c : Fin 13) (pf : BitVec 4) (rd ra : BitVec 5)
  /-- CACHE_CLEAN (R77). Core, predicate field, ra and imm12. -/
  | cacheClean (c : Fin 13) (pf : BitVec 4) (ra : BitVec 5) (imm : BitVec 12)
  /-- CACHE_INVAL (R77). Core, predicate field, ra and imm12. -/
  | cacheInval (c : Fin 13) (pf : BitVec 4) (ra : BitVec 5) (imm : BitVec 12)
  /-- CACHE_CLEANINV (R77). Core, predicate field, ra and imm12. -/
  | cacheCleaninv (c : Fin 13) (pf : BitVec 4) (ra : BitVec 5) (imm : BitVec 12)
  /-- CACHE_ZERO (R77). Core, predicate field, ra and imm12. -/
  | cacheZero (c : Fin 13) (pf : BitVec 4) (ra : BitVec 5) (imm : BitVec 12)
  /-- CACHE_IINVAL (R77). Core, predicate field, ra and imm12. -/
  | cacheIinval (c : Fin 13) (pf : BitVec 4) (ra : BitVec 5) (imm : BitVec 12)
  /-- INTERRUPT_ENTRY (R85). An instruction boundary of core `c`. -/
  | interruptEntry (c : Fin 13)
  /-- NMI_ENTRY (R84). An instruction boundary of core `c`. -/
  | nmiEntry (c : Fin 13)
  /-- STORE_NOTICE (R86). The check of core `c`'s oldest retired store returns. -/
  | storeNotice (c : Fin 8)
  /-- CACHE_WRITEBACK (R394). The cache writes back the dirty line at byte address 64 × `blk`. -/
  | cacheWriteback (l : LineRun)
  /-- ICTL_SWI_SET (R92). A write of `w` to ICTL_SWI_SET. -/
  | ictlSwiSet (m : Mst) (w : Word)
  /-- ICTL_PEND_CLEAR (R91). A write of `w` to ICTL_PEND_k. -/
  | ictlPendClear (k : Fin 32) (m : Mst) (w : Word)
  /-- ICTL_CLAIM (R93). A read of ICTL_CLAIM_t by master `m`. -/
  | ictlClaim (t : Fin 9) (m : Mst)
  /-- ICTL_DONE (R93). A write of `w` to ICTL_DONE_t by master `m`. -/
  | ictlDone (t : Fin 9) (m : Mst) (w : Word)
  /-- APP_WDOG_CTL_WRITE (R96). A write of `w` to ICTL_WDOG_CTL_c. -/
  | appWdogCtlWrite (c : Fin 8) (m : Mst) (w : Word)
  /-- APP_WDOG_WARN (R96). REMAIN of core `c` falls to half of TIMEOUT. -/
  | appWdogWarn (c : Fin 8)
  /-- APP_WDOG_EXPIRE (R96). REMAIN of core `c` reaches zero. -/
  | appWdogExpire (c : Fin 8)
  /-- SQ_ENABLE (R100). Master `m` writes `w` to TICK_SQ_CTL_k. -/
  | sqEnable (m : Mst) (k : Fin 4) (w : Word)
  /-- SQ_DISABLE (R100). Master `m` writes `w` to TICK_SQ_CTL_k. -/
  | sqDisable (m : Mst) (k : Fin 4) (w : Word)
  /-- SQ_OWNERSHIP_WRITE (R101). Master `m` writes TICK_SQ_HEADS_k, TICK_SQ_LP_k or TICK_SQ_DESC_k. -/
  | sqOwnershipWrite (m : Mst) (k : Fin 4) (kind : Fin 3) (w : Word)
  /-- SQ_FAULT_CLEAR (R117). Master `m` writes TICK_SQ_FAULT_k. -/
  | sqFaultClear (m : Mst) (k : Fin 4) (w : Word)
  /-- WAIT_TICK (R107). rd, ra and imm12, all zero. -/
  | waitTick (c : Fin 13) (pf : BitVec 4) (z : BitVec 22)
  /-- INBOX (R108). Core, predicate field, registers and imm12. -/
  | inbox (c : Fin 13) (pf : BitVec 4) (rd ra : BitVec 5) (imm : BitVec 12)
  /-- LDSC (R108). Register fields and fn; rd and fn zero. -/
  | ldsc (c : Fin 13) (pf : BitVec 4) (rd ra rb : BitVec 5) (fn : BitVec 7)
  /-- CHAM_OPEN (R109). Register fields; rd and rb g0. -/
  | chamOpen (c : Fin 13) (pf : BitVec 4) (rd ra rb : BitVec 5)
  /-- CHAM_ADD (R109). Register fields; rd even. -/
  | chamAdd (c : Fin 13) (pf : BitVec 4) (rd ra rb : BitVec 5)
  /-- CHAM_STAT (R109). Register fields; rb g0. -/
  | chamStat (c : Fin 13) (pf : BitVec 4) (rd ra rb : BitVec 5)
  /-- CHAM_CANCEL (R109). Register fields; rb g0. -/
  | chamCancel (c : Fin 13) (pf : BitVec 4) (rd ra rb : BitVec 5)
  /-- FLIP (R111). Register fields and fn; rd and fn zero. -/
  | flip (c : Fin 13) (pf : BitVec 4) (rd ra rb : BitVec 5) (fn : BitVec 7)
  /-- FWAIT (R113). Register fields and fn; rd and fn zero. -/
  | fwait (c : Fin 13) (pf : BitVec 4) (rd ra rb : BitVec 5) (fn : BitVec 7)
  /-- FWAIT_COMPLETE (R113). The stalled FWAIT of sequencer k looks at its word again. -/
  | fwaitComplete (k : Fin 4)
  /-- FSIG (R113). Register fields and fn; fn zero. -/
  | fsig (c : Fin 13) (pf : BitVec 4) (rd ra rb : BitVec 5) (fn : BitVec 7)
  /-- KDEC (R114). Register fields and fn; rd and fn zero. -/
  | kdec (c : Fin 13) (pf : BitVec 4) (rd ra rb : BitVec 5) (fn : BitVec 7)
  /-- KENC (R114). Register fields and fn; rd and fn zero. -/
  | kenc (c : Fin 13) (pf : BitVec 4) (rd ra rb : BitVec 5) (fn : BitVec 7)
  /-- KICK_QUEUE_FREE (R114). The stalled kick of sequencer k looks at its queue again. -/
  | kickQueueFree (k : Fin 4)
  /-- LOG_EV (R115). rd names the group, imm12 the type; ra zero. -/
  | logEv (c : Fin 13) (pf : BitVec 4) (rd ra : BitVec 5) (imm : BitVec 12)
  /-- BARGE_SEND (R133). the transmitter of quad q reaches a barge boundary -/
  | bargeSend (q : Fin 24)
  /-- BAD_BARGE (R136). a bad barge or a framing error is received -/
  | badBarge (q : Fin 24) (b : BadRun)
  /-- ACK_SEND (R136). the receiver returns an ACK -/
  | ackSend (q : Fin 24)
  /-- ACK (R137). an ACK naming `seq` is received -/
  | ack (q : Fin 24) (seq : BitVec 12)
  /-- NAK (R137). a NAK naming `seq` is received -/
  | nak (q : Fin 24) (seq : BitVec 12)
  /-- REPLAY_TIMER_EXPIRE (R137). 8 µs pass without the acknowledged SEQ advancing -/
  | replayTimerExpire (q : Fin 24)
  /-- CREDIT (R140). a CREDIT is received with its counts -/
  | credit (q : Fin 24) (init : Bool) (c0 c1 c2 : BitVec 16)
  /-- CREDIT_PERIODIC (R140). the periodic CREDIT falls due -/
  | creditPeriodic (q : Fin 24)
  /-- IDLE_CREDIT (R161). the 10 ms CREDIT of an idle direction falls due -/
  | idleCredit (q : Fin 24)
  /-- ALIGN_ROW_SEND (R129). the transmitter sends an ALIGN row -/
  | alignRowSend (q : Fin 24)
  /-- ALIGN_ROW_RX (R129). an ALIGN row is received -/
  | alignRowRx (q : Fin 24) (start skewOk : Bool)
  /-- DESKEW_LOSS (R129). the receive direction loses CK or block lock -/
  | deskewLoss (q : Fin 24)
  /-- PIXELS (R149). a PIXELS barge is received on quad Q12 + q -/
  | pixels (q : Fin 8) (seq : BitVec 12) (slot : BitVec 2) (line : BitVec 12) (x : BitVec 13) (last : Bool) (d : List Byte)
  /-- FRAME_START (R254). a FRAME_START with HACTIVE, VACTIVE and FLAGS.FMT is received on quad Q12 + q -/
  | frameStart (q : Fin 8) (seq : BitVec 12) (slot : BitVec 2) (w h : BitVec 16) (fmt : BitVec 2)
  /-- BRIDGE_STATUS (R147). a BRIDGE_STATUS barge with payload d -/
  | bridgeStatus (q : Fin 20) (seq : BitVec 12) (d : DWord)
  /-- AU_START (R187). an AU_START on Q20 + k -/
  | auStart (k : Fin 2) (seq : BitVec 12) (len : Word) (ctx flags : Byte) (capture : BitVec 96)
  /-- AU_DATA (R151). an AU_DATA on Q20 + k -/
  | auData (k : Fin 2) (seq : BitVec 12) (ctx : Fin 128) (final : Bool) (d : List Byte)
  /-- CMD (R153). a CMD barge on Q20 -/
  | cmd (seq : BitVec 12) (first final : Bool) (d : List Byte)
  /-- BL_TXQ_SEND (R165). a write to BL_TXQ_CMD -/
  | blTxqSend (m : Mst) (q : Fin 24) (w : Word)
  /-- BL_HEADMAP_WRITE (R166). a write to BL_HEADMAP -/
  | blHeadmapWrite (m : Mst) (q : Fin 12) (w : Word)
  /-- BL_TX_EN (R155). a write to BL_CTRL -/
  | blTxEn (m : Mst) (q : Fin 24) (w : Word)
  /-- BL_RX_EN (R155). a write to BL_CTRL -/
  | blRxEn (m : Mst) (q : Fin 24) (w : Word)
  /-- BL_RATE_WRITE (R162). a write to BL_CTRL -/
  | blRateWrite (m : Mst) (q : Fin 24) (w : Word)
  /-- BL_RETRAIN (R157). a write to BL_CTRL -/
  | blRetrain (m : Mst) (q : Fin 24) (w : Word)
  /-- BL_CLR_CNT (R162). a write to BL_CTRL -/
  | blClrCnt (m : Mst) (q : Fin 24) (w : Word)
  /-- BL_ALIGN_ENTER (R155). 2 µs after CLOCK -/
  | blAlignEnter (q : Fin 24)
  /-- TS_ROW_RX (R155). n TS rows are received -/
  | tsRowRx (q : Fin 24) (n : Nat) (locked : Bool) (lanes : BitVec 32) (rate role : Byte) (id : Word) (confAck fresh : Bool)
  /-- BL_TRAIN_TIMEOUT (R157). 1,000 µs without ACTIVE, of the transmit or receive direction -/
  | blTrainTimeout (q : Fin 24) (tx : Bool)
  /-- BL_TRAIN_RESTART (R157). 10 ms after the failed bring-up began -/
  | blTrainRestart (q : Fin 24) (tx : Bool)
  /-- BL_IDLE_ENTER (R159). IDLE_US µs with nothing to send -/
  | blIdleEnter (q : Fin 24)
  /-- IDLE_ENTER_RX (R159). IDLE_ENTER rows are received -/
  | idleEnterRx (q : Fin 24) (sleep : Bool)
  /-- BL_WAKE (R160). an idle direction has something to send -/
  | blWake (q : Fin 24)
  /-- TEST_MODE_SET (R169). a write to BL_TEST_CTL -/
  | testModeSet (m : Mst) (q : Fin 24) (w : Word)
  /-- TEST_CLR (R176). a write to BL_TEST_CTL -/
  | testClr (m : Mst) (q : Fin 24) (w : Word)
  /-- INJECT_SINGLE (R173). a write to BL_TEST_INJ -/
  | injectSingle (m : Mst) (q : Fin 24) (w : Word)
  /-- INJECT_PERIODIC (R173). 2^RATE_EXP bits have been sent -/
  | injectPeriodic (q : Fin 24)
  /-- CHECKER_LOCK (R172). a checker locks -/
  | checkerLock (q : Fin 24) (lane : Fin 4)
  /-- CHECKER_LOCK_LOST (R172). a checker loses lock -/
  | checkerLockLost (q : Fin 24) (lane : Fin 4) (errs : Word)
  /-- EYE_SCAN_START (R174). a write to BL_EYE_CTL -/
  | eyeScanStart (m : Mst) (q : Fin 24) (w : Word)
  /-- EYE_SCAN_ABORT (R175). a write to BL_EYE_CTL -/
  | eyeScanAbort (m : Mst) (q : Fin 24) (w : Word)
  /-- EYE_SCAN_DONE (R174). the scan has compared its bits; `errs` of those not yet counted differ -/
  | eyeScanDone (q : Fin 24) (errs : Nat)
  /-- DEC_AU_DONE (R194). decode engine n finishes the access unit in hand; its caches and context state corrected `ce` errors -/
  | decAuDone (n : Fin 16) (e : EngRun)
  /-- DEC_BUFFER_FREE (R200). a pool buffer of context i has become free -/
  | decBufferFree (i : Fin 128)
  /-- DEC_RETIRE (R206). master m writes DEC_ENG_CTL of engine n -/
  | decRetire (m : Mst) (n : Fin 16) (v : Word)
  /-- DEC_ENGINE_FAULT (R206). a parity error of the word at a persists in engine n, or its state is uncorrectable -/
  | decEngineFault (n : Fin 16) (parity : Bool) (a : BitVec 48)
  /-- DEC_WDOG_EXPIRE (R206). the picture in hand exceeds DEC_ENG_WDOG.LIMIT -/
  | decWdogExpire (n : Fin 16)
  /-- DEC_ENG_ENABLE (R211). master m writes DEC_ENG_CTL of engine n -/
  | decEngEnable (m : Mst) (n : Fin 16) (v : Word)
  /-- DEC_CTX_ENABLE (R212). master m writes DEC_CTX_CTL of context i -/
  | decCtxEnable (m : Mst) (i : Fin 128) (v : Word)
  /-- DEC_CTX_DISABLE (R212). master m writes DEC_CTX_CTL of context i -/
  | decCtxDisable (m : Mst) (i : Fin 128) (v : Word)
  /-- DEC_CTX_REBIND (R208). master m writes DEC_CTX_CTL of context i -/
  | decCtxRebind (m : Mst) (i : Fin 128) (v : Word)
  /-- ENC_JOB_START (R218). encode engine n looks for a job that can start -/
  | encJobStart (n : Fin 8)
  /-- ENC_FRAME_DONE (R218). encode engine n finishes the frame in hand; its caches and context state corrected `ce` errors -/
  | encFrameDone (n : Fin 8) (e : EngRun)
  /-- ENC_OUT_ROOM (R223). room appears in the output ring of context i -/
  | encOutRoom (i : Fin 32)
  /-- ENC_OUT_RD_WRITE (R222). master m writes ENC_CTX_OUT_RD of context i -/
  | encOutRdWrite (m : Mst) (i : Fin 32) (v : Word)
  /-- ENC_RETIRE (R240). master m writes ENC_ENG_CTL of engine n -/
  | encRetire (m : Mst) (n : Fin 8) (v : Word)
  /-- ENC_ENGINE_FAULT (R240). a parity error of the word at a persists in engine n, or its state is uncorrectable -/
  | encEngineFault (n : Fin 8) (parity : Bool) (a : BitVec 48)
  /-- ENC_WDOG_EXPIRE (R240). the frame in hand exceeds ENC_ENG_WDOG.LIMIT -/
  | encWdogExpire (n : Fin 8)
  /-- ENC_ENG_ENABLE (R242). master m writes ENC_ENG_CTL of engine n -/
  | encEngEnable (m : Mst) (n : Fin 8) (v : Word)
  /-- ENC_CTX_ENABLE (R243). master m writes ENC_CTX_CTL of context i -/
  | encCtxEnable (m : Mst) (i : Fin 32) (v : Word)
  /-- ENC_CTX_DISABLE (R243). master m writes ENC_CTX_CTL of context i -/
  | encCtxDisable (m : Mst) (i : Fin 32) (v : Word)
  /-- ENC_CTX_REBIND (R240). master m writes ENC_CTX_CTL of context i -/
  | encCtxRebind (m : Mst) (i : Fin 32) (v : Word)
  /-- INPUT_ENABLE (R272). master m writes COMP_IN_CTL_j -/
  | inputEnable (m : Mst) (j : Fin 24) (v : Word)
  /-- SCL_COEF_WRITE (R273). master m writes the coefficient pair k of phase p of table t, vertical or horizontal -/
  | sclCoefWrite (m : Mst) (vert : Bool) (t : Fin 2) (p : Fin 64) (k : Fin 4) (v : Word)
  /-- HEAD_COMMIT_GO (R280). master m writes HEAD_COMMIT of head h -/
  | headCommitGo (m : Mst) (h : Fin 32) (v : Word)
  /-- HEAD_START (R283). master m writes HEAD_CTL of head h -/
  | headStart (m : Mst) (h : Fin 32) (v : Word)
  /-- HEAD_STOP (R284). master m writes HEAD_CTL of head h -/
  | headStop (m : Mst) (h : Fin 32) (v : Word)
  /-- HEAD_LATCH_LINE (R279). head h reaches its latch line -/
  | headLatchLine (h : Fin 32)
  /-- HEAD_LINE_START (R288). head h begins a line; `full` names writeback ports whose buffer is full, `bad` the tiles whose Age Map entry reads uncorrectable -/
  | headLineStart (h : Fin 32) (full : BitVec 8) (bad : AmapErrs)
  /-- LAYER_FETCH_RETURN (R319). n blocks of a row of a layer arrive; `par` is what parity found (32-bit words whose error persists, replays that mended one), `ecc` what the FIFO and the line buffers held (uncorrectable code words, corrected ones) -/
  | layerFetchReturn (h : Fin 32) (lp : Fin 384) (plane : Fin 3) (row n : Nat) (par ecc : RowErrs)
  /-- HEAD_FRAME_END (R295). the last active line of head h ends -/
  | headFrameEnd (h : Fin 32)
  /-- WB_ENABLE (R296). master m writes COMP_WB_CTL_w -/
  | wbEnable (m : Mst) (w : Fin 8) (v : Word)
  /-- FG_LOCK_SET (R337). master m writes FG_LOCK -/
  | fgLockSet (m : Mst) (v : Word)
  /-- DRAM_READ (R343). Master `m` reads `n` bytes at `a`; the request waits, or its channel serves what is queued, `lat` ns after the request. -/
  | dramRead (m : Mst) (a : BitVec 40) (n : BitVec 9) (hold : Bool) (r : ReadRun)
  /-- DRAM_WRITE (R345). Master `m` writes whole code words `d` at `a`, within one 64-byte block. -/
  | dramWrite (m : Mst) (a : BitVec 40) (d : WrData)
  /-- DDR_READ_PROMOTE (R343). The oldest general read of channel `c` has waited 4 µs. -/
  | ddrReadPromote (c : Fin 8)
  /-- DDR_IDLE_DRAIN (R344). Channel `c` drains `n` writes before a read arrives. -/
  | ddrIdleDrain (c : Fin 8) (n : Nat)
  /-- DDR_REFRESH (R347). The refresh of channel `c` falls due. -/
  | ddrRefresh (c : Fin 8)
  /-- DDR_INIT (R357). Master `m` writes `w` to DDR_CTL of channel `c`. -/
  | ddrInit (m : Mst) (c : Fin 8) (w : Word)
  /-- DDR_INIT_DONE (R357). The initialisation of channel `c` completes. -/
  | ddrInitDone (c : Fin 8)
  /-- DDR_APPLY (R350). Master `m` writes `w` to DDR_CTL of channel `c`. -/
  | ddrApply (m : Mst) (c : Fin 8) (w : Word)
  /-- TRN_CA (R351). Master `m` writes `w` to DDR_TRN_CTL of channel `c`. -/
  | trnCa (m : Mst) (c : Fin 8) (w : Word)
  /-- TRN_WCK_LEVEL (R351). Master `m` writes `w` to DDR_TRN_CTL of channel `c`. -/
  | trnWckLevel (m : Mst) (c : Fin 8) (w : Word)
  /-- TRN_READ_DQ (R351). Master `m` writes `w` to DDR_TRN_CTL of channel `c`. -/
  | trnReadDq (m : Mst) (c : Fin 8) (w : Word)
  /-- TRN_WRITE_DQ (R351). Master `m` writes `w` to DDR_TRN_CTL of channel `c`. -/
  | trnWriteDq (m : Mst) (c : Fin 8) (w : Word)
  /-- TRN_OSC (R351). Master `m` writes `w` to DDR_TRN_CTL of channel `c`. -/
  | trnOsc (m : Mst) (c : Fin 8) (w : Word)
  /-- TRN_MRR (R351). Master `m` writes `w` to DDR_TRN_CTL of channel `c`. -/
  | trnMrr (m : Mst) (c : Fin 8) (w : Word)
  /-- DDR_TRN_DONE (R351). The operation of channel `c` completes with these pass bits and this count. -/
  | ddrTrnDone (c : Fin 8) (dq : Word) (dmi : BitVec 4) (ca : BitVec 16) (count : BitVec 16)
  /-- DDR_READY (R353). Master `m` writes `w` to DDR_GCTL. -/
  | ddrReady (m : Mst) (w : Word)
  /-- DDR_FC_GO (R355). Master `m` writes `w` to DDR_FC_CTL. -/
  | ddrFcGo (m : Mst) (w : Word)
  /-- DDR_FC_PREP (R355). The target PLL locks. -/
  | ddrFcPrep
  /-- DDR_FC_WINDOW (R355). The controller finds a window now, if there is one. -/
  | ddrFcWindow
  /-- DDR_FC_DONE (R355). The change completes `ns` after it began. -/
  | ddrFcDone (ns : Nat)
  /-- DDR_FC_TIMEOUT (R356). TIMEOUT has passed since PREP. -/
  | ddrFcTimeout
  /-- CHURN_GO (R377). Master `m` writes `w` to CHURN_CTL. -/
  | churnGo (m : Mst) (w : Word)
  /-- CHURN_ABORT (R377). Master `m` writes `w` to CHURN_CTL. -/
  | churnAbort (m : Mst) (w : Word)
  /-- CHURN_UNIT (R374). Churn completes the rewrite it owes, or reads its next unit; with `split` the rewrite of that unit is left for later. -/
  | churnUnit (split : Bool)
  /-- DIAG_READ_RAW (R381). Master `m` writes `w` to ECC_DIAG_CTL. -/
  | diagReadRaw (m : Mst) (w : Word)
  /-- DIAG_WRITE_RAW (R381). Master `m` writes `w` to ECC_DIAG_CTL. -/
  | diagWriteRaw (m : Mst) (w : Word)
  /-- DIAG_WRITE_DATA (R381). Master `m` writes `w` to ECC_DIAG_CTL. -/
  | diagWriteData (m : Mst) (w : Word)
  /-- MPU_APPLY (R391). Master `m` writes `w` to MPU_EPOCH_u. -/
  | mpuApply (m : Mst) (u : Fin 77) (w : Word)
  /-- MPU_APPLY_COMPLETE (R392). The port of unit `u` holds no write permitted before. -/
  | mpuApplyComplete (u : Fin 77)
  /-- MAINT_OPEN (R401). Master `m` writes `w` to MPU_MAINT. -/
  | maintOpen (m : Mst) (w : Word)
  /-- CVU_CTL_WRITE (R407). a write to CVU_CTL_n -/
  | cvuCtlWrite (m : Mst) (n : Fin 16) (w : Word)
  /-- CVU_FEED (R408). a write to CVU_FEED_B_n, _H_n or _W_n -/
  | cvuFeed (m : Mst) (n : Fin 16) (sz : Fin 3) (w : Word)
  /-- CVU_VALUE_WRITE (R410). a write to CVU_VALUE_n -/
  | cvuValueWrite (m : Mst) (n : Fin 16) (w : Word)
  /-- CVU_EXPECT_WRITE (R410). a write to CVU_EXPECT_n -/
  | cvuExpectWrite (m : Mst) (n : Fin 16) (w : Word)
  /-- CVU_COMPARE (R411). a write to CVU_CMP_n -/
  | cvuCompare (m : Mst) (n : Fin 16) (w : Word)
  /-- CVU_RESULT_READ (R409). a read of CVU_RESULT_n, or of CVU_VALUE_n -/
  | cvuResultRead (m : Mst) (n : Fin 16) (val : Bool)
  /-- LOG_REARM (R417). A write of `w` to LOG_CTL by master `m`. -/
  | logRearm (m : Mst) (w : Word)
  /-- LOG_REARM_DONE (R417). The spill has drained. -/
  | logRearmDone
  /-- LOG_SUBMIT (R421). A write of `w` to LOG_SUBMIT by master `m`. -/
  | logSubmit (m : Mst) (w : Word)
  /-- LOG_APPEND (R423). The Logbook takes the next queued event. -/
  | logAppend
  /-- LOG_SPILL (R427). The spill DMA copies the next final record. -/
  | logSpill
  /-- LOG_SPILL_ENABLE (R430). A write of `w` to LOG_SPILL_CTL. -/
  | logSpillEnable (m : Mst) (w : Word)
  /-- TELE_SEL_WRITE (R431). Master `m` writes `w` to TELE_SEL_i. -/
  | teleSelWrite (m : Mst) (i : Fin 256) (w : Word)
  /-- TELE_HSEL_WRITE (R432). Master `m` writes `w` to TELE_HSEL_k. -/
  | teleHselWrite (m : Mst) (k : Fin 16) (w : Word)
  /-- TELE_DUMP (R433). A dump falls due; `busy`: the previous one is still being written. -/
  | teleDump (busy : Bool)
  /-- ROLE_PIN_TAKE (R438). The pins have held `v` for 2 µs. -/
  | rolePinTake (v : BitVec 2)
  /-- AGREEMENT_MESSAGE (R449). The barges of a message on quad Q22 + q, from SEQ `seq` on. -/
  | agreementMessage (q : Fin 2) (seq : BitVec 12) (g : AgreeMsg)
  /-- RAP_MARK (R463). A mark on quad Q22 + q. -/
  | rapMark (q : Fin 2) (seq : BitVec 12) (ctx : Fin 128) (num : DWord) (capture : BitVec 96) (len : Word) (noTime : Bool)
  /-- SNAP_DATA (R467). A SNAP_DATA on quad Q22 + q: destination and data. -/
  | snapData (q : Fin 2) (seq : BitVec 12) (addr : BitVec 48) (d : List Byte)
  /-- SNAP_END (R467). A SNAP_END on quad Q22 + q. -/
  | snapEnd (q : Fin 2) (seq : BitVec 12) (tick : DWord) (crc count : Word)
  /-- TOUCH_BASE (R485). A barge on quad Q22 + q with its first node, MODE and baselines. -/
  | touchBase (q : Fin 2) (seq : BitVec 12) (ix : BitVec 16) (mode : Byte) (vals : List (BitVec 16))
  /-- ARB_HEALTH_READ (R456). `n` bytes are clocked out after command 0x0B. -/
  | arbHealthRead (n : Nat)
  /-- ARB_ID_READ (R456). `n` bytes are clocked out after command 0x9F. -/
  | arbIdRead (n : Nat)
  /-- ARB_OTHER_CMD (R456). `n` bytes are clocked out after another command. -/
  | arbOtherCmd (cmd : Byte) (n : Nat)
  /-- STEP_FULL_REQ (R454). Master `m` writes `w` to STEP_CTL. -/
  | stepFullReq (m : Mst) (w : Word)
  /-- STEP_LEAVE (R441). Master `m` writes `w` to STEP_CTL. -/
  | stepLeave (m : Mst) (w : Word)
  /-- STEP_READY (R470). Master `m` writes `w` to STEP_CTL. -/
  | stepReady (m : Mst) (w : Word)
  /-- STEP_HB_KICK (R455). Master `m` writes `w` to STEP_HB. -/
  | stepHbKick (m : Mst) (w : Word)
  /-- SNAP_SEND (R466). Master `m` writes `w` to STEP_SNAP_CTL. -/
  | snapSend (m : Mst) (w : Word)
  /-- JOIN_ARM (R468). Master `m` writes `w` to STEP_JOIN_k. -/
  | joinArm (m : Mst) (k : Fin 4) (w : Word)
  /-- TOUCH_ENABLE (R479). Master `m` writes `w` to TOUCH_CTL. -/
  | touchEnable (m : Mst) (w : Word)
  /-- TOUCH_SCAN_START (R477). The interval has elapsed. -/
  | touchScanStart
  /-- TOUCH_SCAN_END (R478). The raw counts of the scan, by node. -/
  | touchScanEnd (caps : List Nat)
  /-- TOUCH_TEST (R483). Master `m` writes `w` to TOUCH_CTL. -/
  | touchTest (m : Mst) (w : Word)
  /-- TOUCH_TEST_DONE (R483). The raw counts of the pins and of the bridge measurements. -/
  | touchTestDone (pins pairs : List Nat)
  /-- TOUCH_BASE_WRITE (R478). Master `m` writes `w` to TOUCH_BASE_i. -/
  | touchBaseWrite (m : Mst) (i : Fin 576) (w : Word)
  /-- TOUCH_OWNER_START (R484). 200 µs after the boundary. -/
  | touchOwnerStart
  /-- TOUCH_BASE_SEND (R471). A second after the last send. -/
  | touchBaseSend
  /-- RESET_POR (R489). A POR arises from the named source. -/
  | resetPor (src : PorSource)
  /-- RAIL_GOOD (R491). Every rail has been good for 1 ms. -/
  | railGood
  /-- RAIL_BRINGUP_FAIL (R491). 50 ms pass without good rails. -/
  | railBringupFail
  /-- RESET_DIP (R498). VDD_CORE falls below 0.88 of nominal. -/
  | resetDip
  /-- DIP_BEGIN (R496). VDD_CORE has been below 0.93 of nominal for 1 µs; the sample in mV. -/
  | dipBegin (mv : BitVec 16)
  /-- DIP_END (R497). The episode ends: its duration in ns and its lowest sample in mV. -/
  | dipEnd (ns : Nat) (mv : BitVec 16)
  /-- RAIL_WARN (R499). Rail number `rail` of PWR_STATUS.RAIL_LOW falls below its warning level. -/
  | railWarn (rail : Fin 7)
  /-- RESET_PIN (R506). nRESET has been low for 1 µs. -/
  | resetPin
  /-- KEEPER_WDOG_EXPIRE (R526). The keeper watchdog count reaches zero. -/
  | keeperWdogExpire
  /-- KEEPER_MISMATCH (R79). The keeper comparator detects a mismatch. -/
  | keeperMismatch
  /-- REFCLK_LOSS (R494). REFCLK has been absent for 5 µs. -/
  | refclkLoss
  /-- RESET_SYS (R506). A write of KIND 4 to KEEP_RESET. -/
  | resetSys (m : Mst) (index : BitVec 5) (code : BitVec 8)
  /-- RESET_APP (R506). A write of KIND 5 to KEEP_RESET. -/
  | resetApp (m : Mst) (index : BitVec 5) (code : BitVec 8)
  /-- RESET_HEAD (R506). A write of KIND 6 to KEEP_RESET. -/
  | resetHead (m : Mst) (index : BitVec 5) (code : BitVec 8)
  /-- RESET_ENGINE (R506). A write of KIND 7 to KEEP_RESET. -/
  | resetEngine (m : Mst) (index : BitVec 5) (code : BitVec 8)
  /-- RESET_RELEASE (R507). The reset is released: the ROLE and PAIR_SEL levels sampled, and whether the flash reads of each slot met their time. -/
  | resetRelease (role : BitVec 2) (pair ok0 ok1 : Bool)
  /-- DVFS_GO (R502). A write of `w` to PWR_DVFS. -/
  | dvfsGo (m : Mst) (w : Word)
  /-- DVFS_DONE (R502). The regulator has settled. -/
  | dvfsDone
  /-- RETAIN_ENTER (R511). A write of `w` to PWR_STATE, with TARGET RETAIN for an entry to RETAIN. -/
  | retainEnter (m : Mst) (w : Word)
  /-- DEEP_ENTER (R514). A write of `w` to PWR_STATE, with TARGET DEEP for an entry to DEEP. -/
  | deepEnter (m : Mst) (w : Word)
  /-- RETAIN_WAKE (R512). A wake source: 0 WAKE_N, 1 timer, 2 ROLE, with the ROLE levels then on the pins. -/
  | retainWake (src : Fin 3) (role : BitVec 2) (ok0 ok1 : Bool)
  /-- PWR_DDR_RESUME (R513). A write of `w` to PWR_DDR_RESUME. -/
  | pwrDdrResume (m : Mst) (w : Word)
  /-- TEMP_SAMPLE (R504). Sensor `k` reads `t` quarter degrees, signed. -/
  | tempSample (k : Fin 8) (t : BitVec 16)
  /-- KEEP_WDOG_KICK (R526). A write of `w` to KEEP_WDOG_KICK. -/
  | keepWdogKick (m : Mst) (w : Word)
  /-- KEEP_APP_RELEASE (R522). A write of `w` to KEEP_APP_RELEASE. -/
  | keepAppRelease (m : Mst) (w : Word)
  /-- KEEP_FUSE_BURN (R526). A write of `w` to KEEP_FUSE_BURN. -/
  | keepFuseBurn (m : Mst) (w : Word)
  /-- XSPI_PROGRAM (R527). A write of `w` to MGMT_XSPI_CMD, with OP PROGRAM for a program. -/
  | xspiProgram (m : Mst) (w : Word)
  /-- XSPI_ERASE_4K (R527). A write of `w` to MGMT_XSPI_CMD, with OP ERASE_4K for an erase. -/
  | xspiErase4k (m : Mst) (w : Word)
  /-- XSPI_ERASE_64K (R527). A write of `w` to MGMT_XSPI_CMD, with OP ERASE_64K for an erase. -/
  | xspiErase64k (m : Mst) (w : Word)
  /-- XSPI_OP_DONE (R527). The status poll shows the operation ended, or reports an error. -/
  | xspiOpDone (err : Bool)
  /-- XSPI_TIMEOUT (R527). The operation is still busy after 500 ms. -/
  | xspiTimeout
  /-- EXTEST (R543). The TAP takes EXTEST; a scan then captures `levels` and shifts `shift` in. -/
  | extest (levels shift : BitVec 312)
  /-- SAMPLE_PRELOAD (R543). The TAP takes SAMPLE/PRELOAD; a scan then captures `levels` and shifts `shift` in. -/
  | samplePreload (levels shift : BitVec 312)
  /-- IDCODE (R544). The TAP takes IDCODE, and a scan reads the word. -/
  | idcode
  /-- DEBUG (R545). The TAP takes DEBUG, and a scan reads the outcome of the latest access. -/
  | debug
  /-- BYPASS (R543). The TAP takes `code`, BYPASS or one with no instruction of its own. -/
  | bypass (code : Byte)
  /-- TAP_RESET (R543). TRST_N is low, or TMS has been high for five TCK cycles. -/
  | tapReset (trst : Bool)
  /-- DEBUG_ACCESS (R545). Update-DR of the DEBUG register with `dr`. -/
  | debugAccess (dr : BitVec 312)
  /-- DEBUG_ACCESS_DONE (R545). The access in progress completes. -/
  | debugAccessDone
  /-- I2C_TRANSFER (R546). Master `m` writes `w` to MGMT_I2C_CTL_k. -/
  | i2cTransfer (m : Mst) (k : Fin 4) (w : Word)
  /-- I2C_TRANSFER_END (R546). The transfer ends; `ack`: the target acknowledged its address; `d` the bytes read, first lowest. -/
  | i2cTransferEnd (k : Fin 4) (ack : Bool) (d : DWord)
  /-- I2C_ARB_LOST (R548). Controller `k` loses arbitration. -/
  | i2cArbLost (k : Fin 4)
  /-- I2C_TIMEOUT (R546). The target of controller `k` has stretched SCL for more than 10 ms. -/
  | i2cTimeout (k : Fin 4)
  /-- UART_TX_WRITE (R548). Master `m` writes `w` to MGMT_UART_TX_u. -/
  | uartTxWrite (m : Mst) (u : Fin 2) (w : Word)
  /-- UART_RX_BYTE (R546). Byte `b` arrives, with a parity or a framing error. -/
  | uartRxByte (u : Fin 2) (b : Byte) (parity frame : Bool)
  /-- UART_RX_READ (R548). Master `m` reads MGMT_UART_RX_u. -/
  | uartRxRead (m : Mst) (u : Fin 2)
  /-- GPIO_EDGE (R548). The board changes GPIO `g` to `level`. -/
  | gpioEdge (g : Fin 32) (level : Bool)
  /-- SNAP_START (R467). A SNAP_START on quad Q22 + q. -/
  | snapStart (q : Fin 2) (seq : BitVec 12) (tick : DWord) (ranges : Word) (total : DWord)
  /-- PROTOCOL_ERROR (R134). a good barge of a type the quad does not take -/
  | protocolError (q : Fin 24) (seq : BitVec 12) (vc : Fin 3) (typ : Byte) (len : BitVec 11)
  /-- RAIL_LOW_CLEAR (R488). The rail returns to its warning level. -/
  | railLowClear (rail : Fin 7)
  /-- UART_TX_BYTE_SENT (R546). UART `u` finishes sending a byte. -/
  | uartTxByteSent (u : Fin 2)
  deriving DecidableEq, Repr

end Sys2Proof
end

