-- ==== Sys2Proof/Decode.lean ====
section
/-!
DEFINITION. Commands spelled by a word. The operation table gives no row any bits, so no word spells a command.
-/
namespace Sys2Proof

/-- The command that a word of `nbits` bits spells by the table's bits: none, whatever the word. -/
def decodeTableWord (_nbits _w : Nat) : Option Instr := none

end Sys2Proof
end

