-- ==== Sys2Proof/Config.lean ====
section
/-!
DEFINITION. What the spec leaves to the device or to the world outside it: constants with no body, so that nothing in Lean
can evaluate them and a statement that mentions them holds whatever they are.
-/
namespace Sys2Proof

/-- R462: whether the known-answer test of a check-value instance fails in a tick, which a fault of that instance alone decides (DESIGN
CHOICE, log entry 65). -/
opaque Config.katFails : Nat → Nat → Bool

/-- The sample of VDD_CORE taken in the `n`th 100 ns (R495), in steps of 2 mV (DESIGN CHOICE, log entry 69). -/
opaque Config.vcoreSteps : Nat → BitVec 15

/-! ### Decoding by the standard (R1, R179 to R205) -/

/-- What a sequence parameter set says (R179, R197, R198): profile, the compatibility flags or constraint flag the profile test looks at,
level, chroma format, bit depths, progressive frames only, coded size, D, the reorder and latency limits of H.265's output order (a
latency of 0 is no limit), and the conformance window. -/
structure DecSps where
  profile : Nat
  compat : Bool
  level : Nat
  chroma : Nat
  depthL : Nat
  depthC : Nat
  frames : Bool
  w : Nat
  h : Nat
  dpb : Nat
  reorder : Nat
  latency : Nat
  left : Nat
  top : Nat
  cw : Nat
  ch : Nat
  deriving DecidableEq, Repr, Inhabited

/-- A substitute picture (R202): the reference it stands for, its size, the value of every sample, and that a block has been predicted from
it. -/
structure SubPic where
  key : Int
  w : Nat
  h : Nat
  grey : Nat
  used : Bool := false
  deriving DecidableEq, Repr

/-- An access unit as decoding meets it: its bytes; LOST; damaged whole by a poisoned bitstream fetch; which of its reference fetches met
poison; random-access point. -/
structure AuIn where
  data : List Byte
  lost : Bool
  dead : Bool
  spoilt : List Nat
  rap : Bool
  deriving DecidableEq, Repr, Inhabited

/-- What the headers of an access unit say: whether they parse; the active sequence; IRAP, and IDR or BLA; the first picture after an
end of sequence; memory_management_control_operation 5; no_output_of_prior_pics_flag; a RASL picture; pic_output_flag; POC, frame_num and MaxFrameNum; recovery_poc_cnt or recovery_frame_cnt; whether the picture is kept for
reference; the reference pictures it requires and the ones kept beside them, by POC in H.265 and by frame_num in H.264. -/
structure AuHeads where
  parses : Bool
  sps : DecSps
  irap : Bool
  idr : Bool
  afterEnd : Bool
  memReset : Bool
  dropPrior : Bool
  rasl : Bool
  output : Bool
  poc : Int
  frameNum : Nat
  maxFrameNum : Nat
  recovery : Int
  ref : Bool
  needs : List Int
  keep : List Int
  deriving DecidableEq, Repr, Inhabited

/-- What decoding the slices of an access unit gives: the damaged rectangles (left, top, width, height in luma samples); the samples as
coded, in raster order, Cb and Cr interleaved; the reference fetches (picture, offset in its buffer, bytes); the pictures that blocks are
predicted from. -/
structure AuPicture where
  holes : List (Nat × Nat × Nat × Nat)
  luma : List Nat
  chroma : List Nat
  fetches : List (Int × Nat × Nat)
  sources : List Int
  deriving DecidableEq, Repr, Inhabited

/-- H.264 (true) or H.265 decoding of the last of the access units given, which follow each other from a random-access point on; for its
picture, with the substitutes held: R179 takes
the decoding processes by reference, and the spec does not print them (DESIGN CHOICE, log entry 13). -/
opaque Config.auHeads : Bool → List AuIn → AuHeads
opaque Config.auPicture : Bool → List SubPic → List AuIn → AuPicture
/-- Which of the buffers the context has left, by how many there are and the arrival number, the engine takes: no rule says (DESIGN CHOICE,
log entry 49). -/
opaque Config.pickBuf : Nat → Nat → Nat

/-! ### Encoding by the standard and the engine's own choices (R1, R220 to R233) -/

/-- What the parameter sets of a stream say (R220): codec, profile, level, bit depth, cropped size, VUI timing, and the NAL HRD's bit rate in
kb/s, CPB size in kbit and cbr_flag. -/
structure EncParams where
  h264 : Bool
  profile : Nat
  level : Nat
  depth : Nat
  width : Nat
  height : Nat
  tick : Nat
  scale : Nat
  rate : Nat
  cpb : Nat
  cbr : Bool
  deriving DecidableEq, Repr, Inhabited

/-- How a tile is coded: on trial with the modes chosen, intra only, under R226, or intra with DC prediction and no residual (R233). -/
inductive EncKind where
  | trial | intra | skip | dc
  deriving DecidableEq, Repr, Inhabited

/-- A tile to be coded: codec, kind, QP, its place, its samples (luma, chroma), the reference picture, mode (0 inter, 1 skip or merge, 2 intra
16×16, 3 intra 8×8; 16 + k the merge candidate k) and vector of each 16×16 block, and the entropy coder's state. -/
structure EncTileIn where
  h264 : Bool
  kind : EncKind
  qp : Nat
  col : Nat
  row : Nat
  luma : List Nat
  chroma : List Nat
  ref : List Nat
  refC : List Nat
  modes : List (Nat × Int × Int)
  coder : List Nat
  deriving DecidableEq, Repr, Inhabited

/-- A coded tile: its bits, the entropy coder's state after it, the reconstructed samples. -/
structure EncTileOut where
  bits : Nat
  coder : List Nat
  luma : List Nat
  chroma : List Nat
  deriving DecidableEq, Repr, Inhabited

/-- A mode of a block to be judged by its rate-distortion cost: codec, QP, the block's place, its samples, the reference picture, the tiles coded
before it, the modes of the blocks before it in its tile, the entropy coder's state, mode and vector. -/
structure EncBlockIn where
  h264 : Bool
  qp : Nat
  x : Nat
  y : Nat
  src : List Nat
  ref : List Nat
  done : List EncTileOut
  before : List (Nat × Int × Int)
  coder : List Nat
  mode : Nat
  vec : Int × Int
  deriving DecidableEq, Repr, Inhabited

/-- The bits of a parameter set's elements that R220 leaves open, by codec and place; whether a rate or size that is no multiple of its unit is
rounded up (DESIGN CHOICE, log entry 72). -/
opaque Config.openBits : Bool → Nat → List Nat
opaque Config.hrdUp : Nat → Nat → Bool
/-- The bits of a slice header and the entropy coder's state after it, by codec, IDR, QP and frame; the coding
of a tile; the slice data that a coder state ends in; the reconstructed picture after deblocking, by codec, size and tiles (R1, R220). -/
opaque Config.sliceHead : Bool → Bool → Nat → Nat → Nat × List Nat
opaque Config.codeTile : EncTileIn → EncTileOut
opaque Config.sliceData : Bool → List Nat → List Byte
opaque Config.reconstruct : Bool → Nat → Nat → List EncTileOut → List Nat × List Nat
/-- λ(QP); the bits of a vector difference; the vectors of the skip or merge candidates in order, by a block's size and the
neighbours' vectors; a sample of the reference between
whole samples, by its place in quarter samples; the rate-distortion cost of a mode of a tile's block (R224, R225): the spec gives no
formula and refers to the standard (DESIGN CHOICE, log entry 13). -/
opaque Config.lambda : Bool → Nat → Nat
opaque Config.vecBits : Bool → List (Option (Int × Int)) → Int × Int → Nat
opaque Config.mergeVecs : Bool → Nat → List (Option (Int × Int)) → List (Int × Int)
opaque Config.subPel : Bool → List Nat → Nat → Int → Int → Nat
opaque Config.rdCost : EncBlockIn → Nat
/-- How the engine keeps a reference picture in its work area, and the spans (offset, bytes) that the search of a tile, or its prediction with
vector zero, reads, by codec, width, height and tile: the work area is the engine's own (R243; DESIGN CHOICE, log entry 51). -/
opaque Config.workImage : Bool → List Nat → List Nat → List Byte
opaque Config.workSpans : Bool → Bool → Nat → Nat → Nat → List (Nat × Nat)
/-- Whether the table of R230, which holds log2 to 1/16, takes the step above a value between two steps, and whether a half is rounded up (DESIGN
CHOICE, log entry 19). -/
opaque Config.logUp : Nat → Nat → Bool
opaque Config.logTie : Nat → Nat → Bool

/-! ### Values left open -/

/-- The bytes of the boot ROM (R14), by offset; the spec does not list them (DESIGN CHOICE, log entry 11). -/
opaque Config.bootRom : Nat → Byte
/-- Row `r` of the fixed glyph of character `g` (R331, FG_FONT); the spec gives the registers, not the bitmaps (DESIGN CHOICE, log entry 11). -/
opaque Config.font : Nat → Nat → Byte
/-- Which of the columns still free data bit `i`, 0 to 63, of the SRAM code takes (R368): the spec says only that columns have odd weight
(DESIGN CHOICE, log entry 10) (DESIGN CHOICE, log entry 10). -/
opaque Config.hsiaoPick : Nat → Nat

/-- What EVAL holds after an EXTERNAL or WDOG_WARN entry, by cause code and instruction count: R84 says EVAL is written and no
rule gives the value (DESIGN CHOICE, log entry 15). -/
opaque Config.intEval : Nat → Nat → DWord
/-- What a DMA that is no core takes from a read that returns no data (R15), by address: no rule says (DESIGN CHOICE, log entry 16). -/
opaque Config.noData : Nat → Byte

/-- What an engine or a port writes beyond the last sample of a row in the row's last code word, by address: no rule says (DESIGN CHOICE, log entry 17). -/
opaque Config.pad : Nat → Byte

/-- How long a read of the general class takes (R349, R432), by channel, address and REFCLK clock: the spec bounds it (DESIGN CHOICE, log
entry 60). -/
opaque Config.readNs : Nat → Nat → Nat → Nat

/-- A time that a correction would carry below zero, by the negative value: no rule says what the counter then holds (DESIGN CHOICE, log entry 20). -/
opaque Config.timeBelowZero : Int → Nat

/-- What WRITE_DQ (R351) leaves at a byte of the row it destroys, and by how much the stored check bytes of a code word there differ
from the correct ones, by address and REFCLK clock (DESIGN CHOICE, log entry 21). -/
opaque Config.trained : Nat → Nat → Byte
opaque Config.trainedCheck : Nat → Nat → Word
/-- The code words whose check bytes lie in a row of the upper eighth (R342), by channel and row: the spec does not place them
(DESIGN CHOICE, log entry 21). -/
opaque Config.guarded : Nat → Nat → List Nat

/-- Of the bits that a lane's checker with lock compares as time passes, how many differ, by quad, lane, REFCLK clock and how many bits; the
same of a bit that an eye scan compares (R172, R174): they depend on the board and the peer (DESIGN CHOICE, log entry 46). -/
opaque Config.lineErrs : Nat → Nat → Nat → Nat → Nat
opaque Config.eyeErrs : Nat → Nat → Nat → Nat
/-- The bits that a receive lane samples while a test mode runs, by quad, lane and how many came before: they depend on the peer (DESIGN
CHOICE, log entry 46). -/
opaque Config.rxBit : Nat → Nat → Nat → Nat

/-- What the boot flash holds at an offset that a failed program or erase touched (R527), by offset and REFCLK clock (DESIGN CHOICE, log entry 22). -/
opaque Config.flashFail : Nat → Nat → Byte

end Sys2Proof
end

