-- ==== Sys2Proof/Machine/Bits.lean ====
section
/-!
DEFINITION. Bit fields, byte order, sparse tables and the arithmetic of GF(256): the small functions every block uses.
-/
namespace Sys2Proof.Machine

/-! ### Bits and bytes -/

/-- Bits `hi` down to `lo` of `v`. -/
def bits (v hi lo : Nat) : Nat := v / 2 ^ lo % 2 ^ (hi + 1 - lo)

/-- `v` with bits `hi` down to `lo` replaced by the low bits of `x`. -/
def putBits (v hi lo x : Nat) : Nat :=
  v / 2 ^ (hi + 1) * 2 ^ (hi + 1) + x % 2 ^ (hi + 1 - lo) * 2 ^ lo + v % 2 ^ lo

/-- The integer that the low `w` bits of `v` stand for in two's complement. -/
def sext (w v : Nat) : Int :=
  let u := v % 2 ^ w
  if u < 2 ^ (w - 1) then (u : Int) else (u : Int) - 2 ^ w

/-- The `n` little-endian bytes of `v`. -/
def leBytes : Nat → Nat → List Byte
  | 0, _ => []
  | n + 1, v => BitVec.ofNat 8 v :: leBytes n (v / 256)

/-- The number whose little-endian bytes are `bs`. -/
def leNat : List Byte → Nat
  | [] => 0
  | b :: bs => b.toNat + 256 * leNat bs

def beNat (bs : List Byte) : Nat := leNat bs.reverse

/-- `n` bytes of `bs` from offset `o`, zero where `bs` has ended. -/
def slice (bs : List Byte) (o n : Nat) : List Byte :=
  let t := (bs.drop o).take n
  t ++ List.replicate (n - t.length) 0

/-- `bs` with `x` laid over it from offset `o`. -/
def overlay (bs : List Byte) (o : Nat) (x : List Byte) : List Byte :=
  slice bs 0 o ++ x ++ bs.drop (o + x.length)

/-- Addition that stops at `2^w - 1`. -/
def satAdd (w a b : Nat) : Nat := min (2 ^ w - 1) (a + b)

def ceilDiv (a b : Nat) : Nat := (a + b - 1) / b

def log2Floor : Nat → Nat → Nat
  | 0, _ => 0
  | f + 1, v => if v < 2 then 0 else 1 + log2Floor f (v / 2)

/-- `List.range n` from `a`. -/
def span (a n : Nat) : List Nat := (List.range n).map (a + ·)

/-! ### Sparse tables -/

/-- The value at key `k`; an unlisted key reads as `d k`. -/
def Tbl.get {α : Type} (d : Nat → α) : Tbl α → Nat → α
  | [], k => d k
  | (a, v) :: t, k => if a = k then v else Tbl.get d t k

def Tbl.del {α : Type} (t : Tbl α) (k : Nat) : Tbl α := t.filter (fun e => e.1 != k)

/-- Insertion before the first greater key. -/
def Tbl.ins {α : Type} : Tbl α → Nat → α → Tbl α
  | [], k, v => [(k, v)]
  | (a, w) :: t, k, v => if k < a then (k, v) :: (a, w) :: t else (a, w) :: Tbl.ins t k v

/-- The table with `v` at `k`; writing what an unlisted key reads as removes the entry. -/
def Tbl.set {α : Type} [DecidableEq α] (d : Nat → α) (t : Tbl α) (k : Nat) (v : α) : Tbl α :=
  if v = d k then Tbl.del t k else Tbl.ins (Tbl.del t k) k v

/-- Keys strictly rising, and no entry equal to the default. -/
def Tbl.wf {α : Type} [DecidableEq α] (d : Nat → α) : Tbl α → Bool
  | [] => true
  | [(a, v)] => v ≠ d a
  | (a, v) :: (b, w) :: t => decide (v ≠ d a) && decide (a < b) && Tbl.wf d ((b, w) :: t)

/-- `n` values from key `k` on. -/
def Tbl.getN {α : Type} (d : Nat → α) (t : Tbl α) (k n : Nat) : List α := (span k n).map (Tbl.get d t)

def Tbl.setN {α : Type} [DecidableEq α] (d : Nat → α) : Tbl α → Nat → List α → Tbl α
  | t, _, [] => t
  | t, k, v :: vs => Tbl.setN d (Tbl.set d t k v) (k + 1) vs

/-! ### GF(256) with x^8 + x^4 + x^3 + x^2 + 1 (R362) -/

def gfDouble (a : Nat) : Nat := let d := 2 * a; if d < 256 then d else (d - 256) ^^^ 0x1D

def gfMulAux : Nat → Nat → Nat → Nat
  | 0, _, _ => 0
  | f + 1, a, b => (if b % 2 = 1 then a else 0) ^^^ gfMulAux f (gfDouble a) (b / 2)

def gfMul (a b : Nat) : Nat := gfMulAux 8 a b

/-- α^n with α = 2. -/
def gfPow : Nat → Nat
  | 0 => 1
  | n + 1 => gfDouble (gfPow n)

end Sys2Proof.Machine
end

