-- ==== Sys2Proof/Machine/RegNames.lean ====
section
/-!
DEFINITION. Names for the registers and fields of the spec: `R.X i` is the offset of register X (instance i) from
0x50_0000_0000, and `F.X_FIELD i` its field FIELD. `ctx` numbers a codec context over all its engines' blocks.
-/
namespace Sys2Proof.Machine

/-- R19. -/
def R.SYS_DEVICE_ID : Nat := 0
def F.SYS_DEVICE_ID_PART : Fld := ⟨R.SYS_DEVICE_ID, 31, 16⟩
def F.SYS_DEVICE_ID_FAMILY : Fld := ⟨R.SYS_DEVICE_ID, 15, 8⟩
def F.SYS_DEVICE_ID_MAJOR : Fld := ⟨R.SYS_DEVICE_ID, 7, 4⟩
def F.SYS_DEVICE_ID_MINOR : Fld := ⟨R.SYS_DEVICE_ID, 3, 0⟩

/-- R20. -/
def R.SYS_STRAP : Nat := 4
def F.SYS_STRAP_PAIR_POS : Fld := ⟨R.SYS_STRAP, 0, 0⟩

/-- R29. -/
def R.TIME_CTRL : Nat := 0x20000
def F.TIME_CTRL_TRACK : Fld := ⟨R.TIME_CTRL, 16, 16⟩
def F.TIME_CTRL_HOLD_TIMEOUT : Fld := ⟨R.TIME_CTRL, 15, 0⟩

/-- R30. -/
def R.TIME_STATUS : Nat := 0x20004
def F.TIME_STATUS_TS_LEVEL : Fld := ⟨R.TIME_STATUS, 22, 16⟩
def F.TIME_STATUS_TS_OVF : Fld := ⟨R.TIME_STATUS, 7, 7⟩
def F.TIME_STATUS_PPS_SEEN : Fld := ⟨R.TIME_STATUS, 6, 6⟩
def F.TIME_STATUS_STEP_REFUSED : Fld := ⟨R.TIME_STATUS, 5, 5⟩
def F.TIME_STATUS_STEP_DONE : Fld := ⟨R.TIME_STATUS, 4, 4⟩
def F.TIME_STATUS_STATE : Fld := ⟨R.TIME_STATUS, 1, 0⟩

/-- R32. -/
def R.TIME_RATE : Nat := 0x20008
def F.TIME_RATE_RATE : Fld := ⟨R.TIME_RATE, 31, 0⟩

/-- R32. -/
def R.TIME_STEP_NS : Nat := 0x2000C
def F.TIME_STEP_NS_STEP : Fld := ⟨R.TIME_STEP_NS, 31, 0⟩

/-- R32. -/
def R.TIME_STEP_CTL : Nat := 0x20010
def F.TIME_STEP_CTL_GO : Fld := ⟨R.TIME_STEP_CTL, 31, 31⟩
def F.TIME_STEP_CTL_FRAC : Fld := ⟨R.TIME_STEP_CTL, 15, 0⟩

/-- R32. -/
def R.TIME_LOAD : Nat := 0x20020
def F.TIME_LOAD_LOAD : Fld := ⟨R.TIME_LOAD, 0, 0⟩

/-- R32. -/
def R.TIME_PPS_CTL : Nat := 0x2003C
def F.TIME_PPS_CTL_LAT : Fld := ⟨R.TIME_PPS_CTL, 31, 16⟩
def F.TIME_PPS_CTL_EDGE : Fld := ⟨R.TIME_PPS_CTL, 1, 1⟩
def F.TIME_PPS_CTL_EN : Fld := ⟨R.TIME_PPS_CTL, 0, 0⟩

/-- R32. -/
def R.TIME_LINK_LAT : Nat := 0x20040
def F.TIME_LINK_LAT_LAT : Fld := ⟨R.TIME_LINK_LAT, 15, 0⟩

/-- R32. -/
def R.TIME_TS_POP : Nat := 0x20044
def F.TIME_TS_POP_POP : Fld := ⟨R.TIME_TS_POP, 0, 0⟩

/-- R32. -/
def R.TIME_TS_INFO : Nat := 0x20048
def F.TIME_TS_INFO_SEQ_ID : Fld := ⟨R.TIME_TS_INFO, 31, 16⟩
def F.TIME_TS_INFO_MSG_TYPE : Fld := ⟨R.TIME_TS_INFO, 15, 12⟩
def F.TIME_TS_INFO_QUAD : Fld := ⟨R.TIME_TS_INFO, 8, 8⟩
def F.TIME_TS_INFO_VALID : Fld := ⟨R.TIME_TS_INFO, 0, 0⟩

/-- R39. -/
def R.TICK_CTRL : Nat := 0x30000
def F.TICK_CTRL_SLEW_LINES : Fld := ⟨R.TICK_CTRL, 11, 8⟩
def F.TICK_CTRL_RUN : Fld := ⟨R.TICK_CTRL, 0, 0⟩

/-- R39. -/
def R.TICK_STATUS : Nat := 0x30004
def F.TICK_STATUS_FENCE_ERR : Fld := ⟨R.TICK_STATUS, 23, 20⟩
def F.TICK_STATUS_SQ_OVERRUN : Fld := ⟨R.TICK_STATUS, 19, 16⟩
def F.TICK_STATUS_CFG_REFUSED : Fld := ⟨R.TICK_STATUS, 1, 1⟩
def F.TICK_STATUS_RUNNING : Fld := ⟨R.TICK_STATUS, 0, 0⟩

/-- R39. -/
def R.TICK_RATE : Nat := 0x30008
def F.TICK_RATE_DEN : Fld := ⟨R.TICK_RATE, 31, 16⟩
def F.TICK_RATE_NUM : Fld := ⟨R.TICK_RATE, 15, 0⟩

/-- R39. -/
def R.TICK_COUNT_LO : Nat := 0x30018
def F.TICK_COUNT_LO_COUNT : Fld := ⟨R.TICK_COUNT_LO, 31, 0⟩

/-- R39. -/
def R.TICK_COUNT_HI : Nat := 0x3001C
def F.TICK_COUNT_HI_COUNT : Fld := ⟨R.TICK_COUNT_HI, 31, 0⟩

/-- R39. -/
def R.TICK_LOCK : Nat := 0x3002C
def F.TICK_LOCK_LOCK : Fld := ⟨R.TICK_LOCK, 31, 0⟩

/-- R44. -/
def R.TICK_HPHASE (n : Nat) : Nat := 0x30100 + 4 * n
def F.TICK_HPHASE_DOUBLE (n : Nat) : Fld := ⟨R.TICK_HPHASE n, 31, 31⟩
def F.TICK_HPHASE_OFFSET (n : Nat) : Fld := ⟨R.TICK_HPHASE n, 25, 0⟩

/-- R49. -/
def R.TICK_SQ_RESTART (k : Nat) : Nat := 0x30030 + 4 * k
def F.TICK_SQ_RESTART_ADDR (k : Nat) : Fld := ⟨R.TICK_SQ_RESTART k, 17, 2⟩

/-- R90. -/
def R.ICTL_CFG (n : Nat) : Nat := 0x41000 + 4 * n
def F.ICTL_CFG_EN (n : Nat) : Fld := ⟨R.ICTL_CFG n, 31, 31⟩
def F.ICTL_CFG_PRIO (n : Nat) : Fld := ⟨R.ICTL_CFG n, 27, 24⟩
def F.ICTL_CFG_TARGET (n : Nat) : Fld := ⟨R.ICTL_CFG n, 3, 0⟩

/-- R93. -/
def R.ICTL_THRESH (t : Nat) : Nat := 0x40200 + 0x10 * t
def F.ICTL_THRESH_THRESH (t : Nat) : Fld := ⟨R.ICTL_THRESH t, 3, 0⟩

/-- R93. -/
def R.ICTL_CLAIM (t : Nat) : Nat := 0x40204 + 0x10 * t
def F.ICTL_CLAIM_NONE (t : Nat) : Fld := ⟨R.ICTL_CLAIM t, 31, 31⟩
def F.ICTL_CLAIM_LINE (t : Nat) : Fld := ⟨R.ICTL_CLAIM t, 9, 0⟩

/-- R93. -/
def R.ICTL_DONE (t : Nat) : Nat := 0x40208 + 0x10 * t
def F.ICTL_DONE_LINE (t : Nat) : Fld := ⟨R.ICTL_DONE t, 9, 0⟩

/-- R95. -/
def R.ICTL_WDOG_CTL (c : Nat) : Nat := 0x40400 + 0x10 * c
def F.ICTL_WDOG_CTL_EN (c : Nat) : Fld := ⟨R.ICTL_WDOG_CTL c, 31, 31⟩
def F.ICTL_WDOG_CTL_ACTION (c : Nat) : Fld := ⟨R.ICTL_WDOG_CTL c, 30, 30⟩
def F.ICTL_WDOG_CTL_TIMEOUT (c : Nat) : Fld := ⟨R.ICTL_WDOG_CTL c, 23, 0⟩

/-- R95. -/
def R.ICTL_WDOG_STAT (c : Nat) : Nat := 0x40404 + 0x10 * c
def F.ICTL_WDOG_STAT_REMAIN (c : Nat) : Fld := ⟨R.ICTL_WDOG_STAT c, 31, 8⟩
def F.ICTL_WDOG_STAT_EXPIRED (c : Nat) : Fld := ⟨R.ICTL_WDOG_STAT c, 1, 1⟩
def F.ICTL_WDOG_STAT_WARNED (c : Nat) : Fld := ⟨R.ICTL_WDOG_STAT c, 0, 0⟩

/-- R98. -/
def R.TICK_SQ_CTL (k : Nat) : Nat := 0x30200 + 0x20 * k
def F.TICK_SQ_CTL_EN (k : Nat) : Fld := ⟨R.TICK_SQ_CTL k, 0, 0⟩

/-- R98. -/
def R.TICK_SQ_STATUS (k : Nat) : Nat := 0x30204 + 0x20 * k
def F.TICK_SQ_STATUS_STATE (k : Nat) : Fld := ⟨R.TICK_SQ_STATUS k, 2, 0⟩

/-- R98. -/
def R.TICK_SQ_HEADS (k : Nat) : Nat := 0x30208 + 0x20 * k
def F.TICK_SQ_HEADS_HEADS (k : Nat) : Fld := ⟨R.TICK_SQ_HEADS k, 31, 0⟩

/-- R98. -/
def R.TICK_SQ_LP (k : Nat) : Nat := 0x3020C + 0x20 * k
def F.TICK_SQ_LP_COUNT (k : Nat) : Fld := ⟨R.TICK_SQ_LP k, 24, 16⟩
def F.TICK_SQ_LP_BASE (k : Nat) : Fld := ⟨R.TICK_SQ_LP k, 8, 0⟩

/-- R98. -/
def R.TICK_SQ_DESC (k : Nat) : Nat := 0x30210 + 0x20 * k
def F.TICK_SQ_DESC_COUNT (k : Nat) : Fld := ⟨R.TICK_SQ_DESC k, 30, 16⟩
def F.TICK_SQ_DESC_BASE (k : Nat) : Fld := ⟨R.TICK_SQ_DESC k, 13, 0⟩

/-- R98. -/
def R.TICK_SQ_FAULT (k : Nat) : Nat := 0x30214 + 0x20 * k
def F.TICK_SQ_FAULT_VALID (k : Nat) : Fld := ⟨R.TICK_SQ_FAULT k, 31, 31⟩
def F.TICK_SQ_FAULT_PC (k : Nat) : Fld := ⟨R.TICK_SQ_FAULT k, 23, 8⟩
def F.TICK_SQ_FAULT_CODE (k : Nat) : Fld := ⟨R.TICK_SQ_FAULT k, 7, 0⟩

/-- R98. -/
def R.TICK_SQ_FVAL_LO (k : Nat) : Nat := 0x30218 + 0x20 * k
def F.TICK_SQ_FVAL_LO_VAL (k : Nat) : Fld := ⟨R.TICK_SQ_FVAL_LO k, 31, 0⟩

/-- R98. -/
def R.TICK_SQ_FVAL_HI (k : Nat) : Nat := 0x3021C + 0x20 * k
def F.TICK_SQ_FVAL_HI_VAL (k : Nat) : Fld := ⟨R.TICK_SQ_FVAL_HI k, 31, 0⟩

/-- R162. -/
def R.BL_CTRL (q : Nat) : Nat := 0x800000 + 0x10000 * q
def F.BL_CTRL_CLR_CNT (q : Nat) : Fld := ⟨R.BL_CTRL q, 13, 13⟩
def F.BL_CTRL_RETRAIN (q : Nat) : Fld := ⟨R.BL_CTRL q, 12, 12⟩
def F.BL_CTRL_RX_EN (q : Nat) : Fld := ⟨R.BL_CTRL q, 9, 9⟩
def F.BL_CTRL_TX_EN (q : Nat) : Fld := ⟨R.BL_CTRL q, 8, 8⟩
def F.BL_CTRL_RATE (q : Nat) : Fld := ⟨R.BL_CTRL q, 3, 0⟩

/-- R163. -/
def R.BL_STATUS (q : Nat) : Nat := 0x800004 + 0x10000 * q
def F.BL_STATUS_RX_STATE (q : Nat) : Fld := ⟨R.BL_STATUS q, 18, 16⟩
def F.BL_STATUS_TX_STATE (q : Nat) : Fld := ⟨R.BL_STATUS q, 14, 12⟩
def F.BL_STATUS_PEER_ROLE (q : Nat) : Fld := ⟨R.BL_STATUS q, 11, 8⟩
def F.BL_STATUS_UP (q : Nat) : Fld := ⟨R.BL_STATUS q, 0, 0⟩

/-- R164. -/
def R.BL_ERR (q : Nat) : Nat := 0x800008 + 0x10000 * q
def F.BL_ERR_CRC (q : Nat) : Fld := ⟨R.BL_ERR q, 0, 0⟩
def F.BL_ERR_SEQ (q : Nat) : Fld := ⟨R.BL_ERR q, 1, 1⟩
def F.BL_ERR_REPLAY (q : Nat) : Fld := ⟨R.BL_ERR q, 2, 2⟩
def F.BL_ERR_REPLAY_FAIL (q : Nat) : Fld := ⟨R.BL_ERR q, 3, 3⟩
def F.BL_ERR_PROTO (q : Nat) : Fld := ⟨R.BL_ERR q, 4, 4⟩
def F.BL_ERR_CREDIT (q : Nat) : Fld := ⟨R.BL_ERR q, 5, 5⟩
def F.BL_ERR_TRAIN_FAIL (q : Nat) : Fld := ⟨R.BL_ERR q, 6, 6⟩
def F.BL_ERR_ROLE_MISMATCH (q : Nat) : Fld := ⟨R.BL_ERR q, 7, 7⟩
def F.BL_ERR_DESKEW (q : Nat) : Fld := ⟨R.BL_ERR q, 8, 8⟩
def F.BL_ERR_LINE_DROP (q : Nat) : Fld := ⟨R.BL_ERR q, 9, 9⟩
def F.BL_ERR_TS_REPLAY (q : Nat) : Fld := ⟨R.BL_ERR q, 10, 10⟩
def F.BL_ERR_CFG (q : Nat) : Fld := ⟨R.BL_ERR q, 11, 11⟩
def F.BL_ERR_CREDIT_LOW (q : Nat) : Fld := ⟨R.BL_ERR q, 12, 12⟩

/-- R165. -/
def R.BL_CNT_CRC (q : Nat) : Nat := 0x800010 + 0x10000 * q
def F.BL_CNT_CRC_COUNT (q : Nat) : Fld := ⟨R.BL_CNT_CRC q, 31, 0⟩

/-- R165. -/
def R.BL_CNT_REPLAY (q : Nat) : Nat := 0x800014 + 0x10000 * q
def F.BL_CNT_REPLAY_COUNT (q : Nat) : Fld := ⟨R.BL_CNT_REPLAY q, 31, 0⟩

/-- R165. -/
def R.BL_CNT_PROTO (q : Nat) : Nat := 0x800018 + 0x10000 * q
def F.BL_CNT_PROTO_COUNT (q : Nat) : Fld := ⟨R.BL_CNT_PROTO q, 31, 0⟩

/-- R165. -/
def R.BL_CNT_DROP (q : Nat) : Nat := 0x80001C + 0x10000 * q
def F.BL_CNT_DROP_COUNT (q : Nat) : Fld := ⟨R.BL_CNT_DROP q, 31, 0⟩

/-- R165. -/
def R.BL_PWR (q : Nat) : Nat := 0x800020 + 0x10000 * q
def F.BL_PWR_IDLE_US (q : Nat) : Fld := ⟨R.BL_PWR q, 31, 16⟩
def F.BL_PWR_TX_IDLE (q : Nat) : Fld := ⟨R.BL_PWR q, 1, 0⟩

/-- R165. -/
def R.BL_TXCRED_0 (q : Nat) : Nat := 0x800024 + 0x10000 * q
def F.BL_TXCRED_0_VC1 (q : Nat) : Fld := ⟨R.BL_TXCRED_0 q, 31, 16⟩
def F.BL_TXCRED_0_VC0 (q : Nat) : Fld := ⟨R.BL_TXCRED_0 q, 15, 0⟩

/-- R165. -/
def R.BL_TXCRED_1 (q : Nat) : Nat := 0x800028 + 0x10000 * q
def F.BL_TXCRED_1_VC2 (q : Nat) : Fld := ⟨R.BL_TXCRED_1 q, 15, 0⟩

/-- R165. -/
def R.BL_TXQ_ADDR_LO (q : Nat) : Nat := 0x800030 + 0x10000 * q
def F.BL_TXQ_ADDR_LO_ADDR (q : Nat) : Fld := ⟨R.BL_TXQ_ADDR_LO q, 31, 3⟩

/-- R165. -/
def R.BL_TXQ_ADDR_HI (q : Nat) : Nat := 0x800034 + 0x10000 * q
def F.BL_TXQ_ADDR_HI_ADDR (q : Nat) : Fld := ⟨R.BL_TXQ_ADDR_HI q, 15, 0⟩

/-- R165. -/
def R.BL_TXQ_CMD (q : Nat) : Nat := 0x800038 + 0x10000 * q
def F.BL_TXQ_CMD_GO (q : Nat) : Fld := ⟨R.BL_TXQ_CMD q, 31, 31⟩
def F.BL_TXQ_CMD_SPEC (q : Nat) : Fld := ⟨R.BL_TXQ_CMD q, 25, 24⟩
def F.BL_TXQ_CMD_TYPE (q : Nat) : Fld := ⟨R.BL_TXQ_CMD q, 23, 16⟩
def F.BL_TXQ_CMD_LEN (q : Nat) : Fld := ⟨R.BL_TXQ_CMD q, 10, 0⟩

/-- R165. -/
def R.BL_BSTAT_LO (q : Nat) : Nat := 0x80003C + 0x10000 * q
def F.BL_BSTAT_LO_DATA (q : Nat) : Fld := ⟨R.BL_BSTAT_LO q, 31, 0⟩

/-- R165. -/
def R.BL_BSTAT_HI (q : Nat) : Nat := 0x800044 + 0x10000 * q
def F.BL_BSTAT_HI_DATA (q : Nat) : Fld := ⟨R.BL_BSTAT_HI q, 31, 0⟩

/-- R166. -/
def R.BL_HEADMAP (q : Nat) : Nat := 0x800040 + 0x10000 * q
def F.BL_HEADMAP_EN2 (q : Nat) : Fld := ⟨R.BL_HEADMAP q, 23, 23⟩
def F.BL_HEADMAP_FMT2 (q : Nat) : Fld := ⟨R.BL_HEADMAP q, 22, 21⟩
def F.BL_HEADMAP_HEAD2 (q : Nat) : Fld := ⟨R.BL_HEADMAP q, 20, 16⟩
def F.BL_HEADMAP_EN1 (q : Nat) : Fld := ⟨R.BL_HEADMAP q, 15, 15⟩
def F.BL_HEADMAP_FMT1 (q : Nat) : Fld := ⟨R.BL_HEADMAP q, 14, 13⟩
def F.BL_HEADMAP_HEAD1 (q : Nat) : Fld := ⟨R.BL_HEADMAP q, 12, 8⟩
def F.BL_HEADMAP_EN0 (q : Nat) : Fld := ⟨R.BL_HEADMAP q, 7, 7⟩
def F.BL_HEADMAP_FMT0 (q : Nat) : Fld := ⟨R.BL_HEADMAP q, 6, 5⟩
def F.BL_HEADMAP_HEAD0 (q : Nat) : Fld := ⟨R.BL_HEADMAP q, 4, 0⟩

/-- R176. -/
def R.BL_TEST_CTL (q : Nat) : Nat := 0x800100 + 0x10000 * q
def F.BL_TEST_CTL_CLR (q : Nat) : Fld := ⟨R.BL_TEST_CTL q, 15, 15⟩
def F.BL_TEST_CTL_INV_ODD (q : Nat) : Fld := ⟨R.BL_TEST_CTL q, 12, 12⟩
def F.BL_TEST_CTL_LANE_EN (q : Nat) : Fld := ⟨R.BL_TEST_CTL q, 11, 8⟩
def F.BL_TEST_CTL_PAT (q : Nat) : Fld := ⟨R.BL_TEST_CTL q, 5, 4⟩
def F.BL_TEST_CTL_MODE (q : Nat) : Fld := ⟨R.BL_TEST_CTL q, 2, 0⟩

/-- R177. -/
def R.BL_TEST_STAT (q : Nat) : Nat := 0x800104 + 0x10000 * q
def F.BL_TEST_STAT_IN_TEST (q : Nat) : Fld := ⟨R.BL_TEST_STAT q, 8, 8⟩
def F.BL_TEST_STAT_LOCK_LOST (q : Nat) : Fld := ⟨R.BL_TEST_STAT q, 7, 4⟩
def F.BL_TEST_STAT_LOCK (q : Nat) : Fld := ⟨R.BL_TEST_STAT q, 3, 0⟩

/-- R177. -/
def R.BL_TEST_INJ (q : Nat) : Nat := 0x800108 + 0x10000 * q
def F.BL_TEST_INJ_RATE_EXP (q : Nat) : Fld := ⟨R.BL_TEST_INJ q, 12, 8⟩
def F.BL_TEST_INJ_SINGLE (q : Nat) : Fld := ⟨R.BL_TEST_INJ q, 4, 4⟩
def F.BL_TEST_INJ_LANES (q : Nat) : Fld := ⟨R.BL_TEST_INJ q, 3, 0⟩

/-- R177. -/
def R.BL_TEST_BITS_LO (q : Nat) : Nat := 0x800110 + 0x10000 * q
def F.BL_TEST_BITS_LO_COUNT (q : Nat) : Fld := ⟨R.BL_TEST_BITS_LO q, 31, 0⟩

/-- R177. -/
def R.BL_TEST_BITS_HI (q : Nat) : Nat := 0x800114 + 0x10000 * q
def F.BL_TEST_BITS_HI_COUNT (q : Nat) : Fld := ⟨R.BL_TEST_BITS_HI q, 31, 0⟩

/-- R177. -/
def R.BL_TEST_ERR (q n : Nat) : Nat := 0x800120 + 0x10000 * q + 4 * n
def F.BL_TEST_ERR_COUNT (q n : Nat) : Fld := ⟨R.BL_TEST_ERR q n, 31, 0⟩

/-- R177. -/
def R.BL_EYE_CTL (q : Nat) : Nat := 0x800130 + 0x10000 * q
def F.BL_EYE_CTL_DWELL (q : Nat) : Fld := ⟨R.BL_EYE_CTL q, 27, 24⟩
def F.BL_EYE_CTL_VOFF (q : Nat) : Fld := ⟨R.BL_EYE_CTL q, 19, 12⟩
def F.BL_EYE_CTL_PHASE (q : Nat) : Fld := ⟨R.BL_EYE_CTL q, 10, 4⟩
def F.BL_EYE_CTL_ABORT (q : Nat) : Fld := ⟨R.BL_EYE_CTL q, 3, 3⟩
def F.BL_EYE_CTL_START (q : Nat) : Fld := ⟨R.BL_EYE_CTL q, 2, 2⟩
def F.BL_EYE_CTL_LANE (q : Nat) : Fld := ⟨R.BL_EYE_CTL q, 1, 0⟩

/-- R177. -/
def R.BL_EYE_STAT (q : Nat) : Nat := 0x800134 + 0x10000 * q
def F.BL_EYE_STAT_PAUSED (q : Nat) : Fld := ⟨R.BL_EYE_STAT q, 3, 3⟩
def F.BL_EYE_STAT_ABORTED (q : Nat) : Fld := ⟨R.BL_EYE_STAT q, 2, 2⟩
def F.BL_EYE_STAT_DONE (q : Nat) : Fld := ⟨R.BL_EYE_STAT q, 1, 1⟩
def F.BL_EYE_STAT_BUSY (q : Nat) : Fld := ⟨R.BL_EYE_STAT q, 0, 0⟩

/-- R177. -/
def R.BL_EYE_ERR (q : Nat) : Nat := 0x800138 + 0x10000 * q
def F.BL_EYE_ERR_COUNT (q : Nat) : Fld := ⟨R.BL_EYE_ERR q, 31, 0⟩

/-- R177. -/
def R.BL_EYE_BITS (q : Nat) : Nat := 0x80013C + 0x10000 * q
def F.BL_EYE_BITS_COUNT (q : Nat) : Fld := ⟨R.BL_EYE_BITS q, 31, 0⟩

/-- R211. -/
def R.DEC_ENG_CTL (n : Nat) : Nat := 0x200000 + 0x10000 * n
def F.DEC_ENG_CTL_RETIRE (n : Nat) : Fld := ⟨R.DEC_ENG_CTL n, 1, 1⟩
def F.DEC_ENG_CTL_EN (n : Nat) : Fld := ⟨R.DEC_ENG_CTL n, 0, 0⟩

/-- R211. -/
def R.DEC_ENG_STATUS (n : Nat) : Nat := 0x200004 + 0x10000 * n
def F.DEC_ENG_STATUS_CTX_VALID (n : Nat) : Fld := ⟨R.DEC_ENG_STATUS n, 23, 23⟩
def F.DEC_ENG_STATUS_CTX (n : Nat) : Fld := ⟨R.DEC_ENG_STATUS n, 22, 16⟩
def F.DEC_ENG_STATUS_QLEVEL (n : Nat) : Fld := ⟨R.DEC_ENG_STATUS n, 12, 8⟩
def F.DEC_ENG_STATUS_STATE (n : Nat) : Fld := ⟨R.DEC_ENG_STATUS n, 1, 0⟩

/-- R211. -/
def R.DEC_ENG_ERR (n : Nat) : Nat := 0x200008 + 0x10000 * n
def F.DEC_ENG_ERR_CTX (n : Nat) : Fld := ⟨R.DEC_ENG_ERR n, 4, 4⟩
def F.DEC_ENG_ERR_SECDED (n : Nat) : Fld := ⟨R.DEC_ENG_ERR n, 3, 3⟩
def F.DEC_ENG_ERR_PARITY (n : Nat) : Fld := ⟨R.DEC_ENG_ERR n, 2, 2⟩
def F.DEC_ENG_ERR_WDOG (n : Nat) : Fld := ⟨R.DEC_ENG_ERR n, 1, 1⟩
def F.DEC_ENG_ERR_RETIRED (n : Nat) : Fld := ⟨R.DEC_ENG_ERR n, 0, 0⟩

/-- R211. -/
def R.DEC_ENG_IRQ_EN (n : Nat) : Nat := 0x20000C + 0x10000 * n
def F.DEC_ENG_IRQ_EN_EN (n : Nat) : Fld := ⟨R.DEC_ENG_IRQ_EN n, 4, 0⟩

/-- R211. -/
def R.DEC_ENG_WDOG (n : Nat) : Nat := 0x200010 + 0x10000 * n
def F.DEC_ENG_WDOG_LIMIT (n : Nat) : Fld := ⟨R.DEC_ENG_WDOG n, 23, 0⟩

/-- R211. -/
def R.DEC_ENG_PICS (n : Nat) : Nat := 0x200014 + 0x10000 * n
def F.DEC_ENG_PICS_COUNT (n : Nat) : Fld := ⟨R.DEC_ENG_PICS n, 31, 0⟩

/-- R211. -/
def R.DEC_ENG_BUSY (n : Nat) : Nat := 0x200018 + 0x10000 * n
def F.DEC_ENG_BUSY_COUNT (n : Nat) : Fld := ⟨R.DEC_ENG_BUSY n, 31, 0⟩

/-- R212. -/
def R.DEC_CTX_CTL (i : Nat) : Nat := 0x201000 + 0x10000 * (i / 8) + 0x100 * (i % 8)
def F.DEC_CTX_CTL_EN (i : Nat) : Fld := ⟨R.DEC_CTX_CTL i, 31, 31⟩
def F.DEC_CTX_CTL_JOIN (i : Nat) : Fld := ⟨R.DEC_CTX_CTL i, 30, 30⟩
def F.DEC_CTX_CTL_CODEC (i : Nat) : Fld := ⟨R.DEC_CTX_CTL i, 28, 28⟩
def F.DEC_CTX_CTL_ENGINE (i : Nat) : Fld := ⟨R.DEC_CTX_CTL i, 3, 0⟩

/-- R212. -/
def R.DEC_CTX_STATUS (i : Nat) : Nat := 0x201004 + 0x10000 * (i / 8) + 0x100 * (i % 8)
def F.DEC_CTX_STATUS_POOL_WAIT (i : Nat) : Fld := ⟨R.DEC_CTX_STATUS i, 4, 4⟩
def F.DEC_CTX_STATUS_TAINT (i : Nat) : Fld := ⟨R.DEC_CTX_STATUS i, 3, 3⟩
def F.DEC_CTX_STATUS_STATE (i : Nat) : Fld := ⟨R.DEC_CTX_STATUS i, 2, 0⟩

/-- R212. -/
def R.DEC_CTX_ERR (i : Nat) : Nat := 0x201008 + 0x10000 * (i / 8) + 0x100 * (i % 8)
def F.DEC_CTX_ERR_ERR (i : Nat) : Fld := ⟨R.DEC_CTX_ERR i, 9, 0⟩

/-- R212. -/
def R.DEC_CTX_NEXT_LO (i : Nat) : Nat := 0x20100C + 0x10000 * (i / 8) + 0x100 * (i % 8)
def F.DEC_CTX_NEXT_LO_ARR (i : Nat) : Fld := ⟨R.DEC_CTX_NEXT_LO i, 31, 0⟩

/-- R212. -/
def R.DEC_CTX_NEXT_HI (i : Nat) : Nat := 0x201010 + 0x10000 * (i / 8) + 0x100 * (i % 8)
def F.DEC_CTX_NEXT_HI_ARR (i : Nat) : Fld := ⟨R.DEC_CTX_NEXT_HI i, 31, 0⟩

/-- R212. -/
def R.DEC_CTX_DONE_LO (i : Nat) : Nat := 0x201014 + 0x10000 * (i / 8) + 0x100 * (i % 8)
def F.DEC_CTX_DONE_LO_ARR (i : Nat) : Fld := ⟨R.DEC_CTX_DONE_LO i, 31, 0⟩

/-- R212. -/
def R.DEC_CTX_DONE_HI (i : Nat) : Nat := 0x201018 + 0x10000 * (i / 8) + 0x100 * (i % 8)
def F.DEC_CTX_DONE_HI_ARR (i : Nat) : Fld := ⟨R.DEC_CTX_DONE_HI i, 31, 0⟩

/-- R212. -/
def R.DEC_CTX_RETAIN_LO (i : Nat) : Nat := 0x20101C + 0x10000 * (i / 8) + 0x100 * (i % 8)
def F.DEC_CTX_RETAIN_LO_ARR (i : Nat) : Fld := ⟨R.DEC_CTX_RETAIN_LO i, 31, 0⟩

/-- R212. -/
def R.DEC_CTX_RETAIN_HI (i : Nat) : Nat := 0x201020 + 0x10000 * (i / 8) + 0x100 * (i % 8)
def F.DEC_CTX_RETAIN_HI_ARR (i : Nat) : Fld := ⟨R.DEC_CTX_RETAIN_HI i, 31, 0⟩

/-- R212. -/
def R.DEC_CTX_BS_LO (i : Nat) : Nat := 0x201024 + 0x10000 * (i / 8) + 0x100 * (i % 8)
def F.DEC_CTX_BS_LO_ADDR (i : Nat) : Fld := ⟨R.DEC_CTX_BS_LO i, 31, 12⟩

/-- R212. -/
def R.DEC_CTX_BS_HI (i : Nat) : Nat := 0x201028 + 0x10000 * (i / 8) + 0x100 * (i % 8)
def F.DEC_CTX_BS_HI_ADDR (i : Nat) : Fld := ⟨R.DEC_CTX_BS_HI i, 15, 0⟩

/-- R212. -/
def R.DEC_CTX_BS_SIZE (i : Nat) : Nat := 0x20102C + 0x10000 * (i / 8) + 0x100 * (i % 8)
def F.DEC_CTX_BS_SIZE_SIZE (i : Nat) : Fld := ⟨R.DEC_CTX_BS_SIZE i, 31, 12⟩

/-- R212. -/
def R.DEC_CTX_IDX_LO (i : Nat) : Nat := 0x201030 + 0x10000 * (i / 8) + 0x100 * (i % 8)
def F.DEC_CTX_IDX_LO_ADDR (i : Nat) : Fld := ⟨R.DEC_CTX_IDX_LO i, 31, 5⟩

/-- R212. -/
def R.DEC_CTX_IDX_HI (i : Nat) : Nat := 0x201034 + 0x10000 * (i / 8) + 0x100 * (i % 8)
def F.DEC_CTX_IDX_HI_ADDR (i : Nat) : Fld := ⟨R.DEC_CTX_IDX_HI i, 15, 0⟩

/-- R212. -/
def R.DEC_CTX_DT_LO (i : Nat) : Nat := 0x201038 + 0x10000 * (i / 8) + 0x100 * (i % 8)
def F.DEC_CTX_DT_LO_ADDR (i : Nat) : Fld := ⟨R.DEC_CTX_DT_LO i, 31, 5⟩

/-- R212. -/
def R.DEC_CTX_DT_HI (i : Nat) : Nat := 0x20103C + 0x10000 * (i / 8) + 0x100 * (i % 8)
def F.DEC_CTX_DT_HI_ADDR (i : Nat) : Fld := ⟨R.DEC_CTX_DT_HI i, 15, 0⟩

/-- R212. -/
def R.DEC_CTX_POOL_LO (i : Nat) : Nat := 0x201040 + 0x10000 * (i / 8) + 0x100 * (i % 8)
def F.DEC_CTX_POOL_LO_ADDR (i : Nat) : Fld := ⟨R.DEC_CTX_POOL_LO i, 31, 12⟩

/-- R212. -/
def R.DEC_CTX_POOL_HI (i : Nat) : Nat := 0x201044 + 0x10000 * (i / 8) + 0x100 * (i % 8)
def F.DEC_CTX_POOL_HI_ADDR (i : Nat) : Fld := ⟨R.DEC_CTX_POOL_HI i, 15, 0⟩

/-- R212. -/
def R.DEC_CTX_POOL_CFG (i : Nat) : Nat := 0x201048 + 0x10000 * (i / 8) + 0x100 * (i % 8)
def F.DEC_CTX_POOL_CFG_PITCH (i : Nat) : Fld := ⟨R.DEC_CTX_POOL_CFG i, 23, 16⟩
def F.DEC_CTX_POOL_CFG_HOLD (i : Nat) : Fld := ⟨R.DEC_CTX_POOL_CFG i, 11, 8⟩
def F.DEC_CTX_POOL_CFG_COUNT (i : Nat) : Fld := ⟨R.DEC_CTX_POOL_CFG i, 5, 0⟩

/-- R212. -/
def R.DEC_CTX_POOL_LUMA (i : Nat) : Nat := 0x20104C + 0x10000 * (i / 8) + 0x100 * (i % 8)
def F.DEC_CTX_POOL_LUMA_SIZE (i : Nat) : Fld := ⟨R.DEC_CTX_POOL_LUMA i, 31, 12⟩

/-- R212. -/
def R.DEC_CTX_POOL_STRIDE (i : Nat) : Nat := 0x201050 + 0x10000 * (i / 8) + 0x100 * (i % 8)
def F.DEC_CTX_POOL_STRIDE_SIZE (i : Nat) : Fld := ⟨R.DEC_CTX_POOL_STRIDE i, 31, 12⟩

/-- R212. -/
def R.DEC_CTX_DROP (i : Nat) : Nat := 0x201054 + 0x10000 * (i / 8) + 0x100 * (i % 8)
def F.DEC_CTX_DROP_COUNT (i : Nat) : Fld := ⟨R.DEC_CTX_DROP i, 31, 0⟩

/-- R212. -/
def R.DEC_CTX_PICS (i : Nat) : Nat := 0x201058 + 0x10000 * (i / 8) + 0x100 * (i % 8)
def F.DEC_CTX_PICS_COUNT (i : Nat) : Fld := ⟨R.DEC_CTX_PICS i, 31, 0⟩

/-- R242. -/
def R.ENC_ENG_CTL (n : Nat) : Nat := 0x300000 + 0x10000 * n
def F.ENC_ENG_CTL_RETIRE (n : Nat) : Fld := ⟨R.ENC_ENG_CTL n, 1, 1⟩
def F.ENC_ENG_CTL_EN (n : Nat) : Fld := ⟨R.ENC_ENG_CTL n, 0, 0⟩

/-- R242. -/
def R.ENC_ENG_STATUS (n : Nat) : Nat := 0x300004 + 0x10000 * n
def F.ENC_ENG_STATUS_CTX_VALID (n : Nat) : Fld := ⟨R.ENC_ENG_STATUS n, 23, 23⟩
def F.ENC_ENG_STATUS_CTX (n : Nat) : Fld := ⟨R.ENC_ENG_STATUS n, 20, 16⟩
def F.ENC_ENG_STATUS_QLEVEL (n : Nat) : Fld := ⟨R.ENC_ENG_STATUS n, 12, 8⟩
def F.ENC_ENG_STATUS_STATE (n : Nat) : Fld := ⟨R.ENC_ENG_STATUS n, 1, 0⟩

/-- R242. -/
def R.ENC_ENG_ERR (n : Nat) : Nat := 0x300008 + 0x10000 * n
def F.ENC_ENG_ERR_ERR (n : Nat) : Fld := ⟨R.ENC_ENG_ERR n, 4, 0⟩

/-- R242. -/
def R.ENC_ENG_IRQ_EN (n : Nat) : Nat := 0x30000C + 0x10000 * n
def F.ENC_ENG_IRQ_EN_EN (n : Nat) : Fld := ⟨R.ENC_ENG_IRQ_EN n, 4, 0⟩

/-- R242. -/
def R.ENC_ENG_WDOG (n : Nat) : Nat := 0x300010 + 0x10000 * n
def F.ENC_ENG_WDOG_LIMIT (n : Nat) : Fld := ⟨R.ENC_ENG_WDOG n, 23, 0⟩

/-- R242. -/
def R.ENC_ENG_FRAMES (n : Nat) : Nat := 0x300014 + 0x10000 * n
def F.ENC_ENG_FRAMES_COUNT (n : Nat) : Fld := ⟨R.ENC_ENG_FRAMES n, 31, 0⟩

/-- R242. -/
def R.ENC_ENG_BUSY (n : Nat) : Nat := 0x300018 + 0x10000 * n
def F.ENC_ENG_BUSY_COUNT (n : Nat) : Fld := ⟨R.ENC_ENG_BUSY n, 31, 0⟩

/-- R243. -/
def R.ENC_CTX_CTL (i : Nat) : Nat := 0x301000 + 0x10000 * (i / 4) + 0x100 * (i % 4)
def F.ENC_CTX_CTL_EN (i : Nat) : Fld := ⟨R.ENC_CTX_CTL i, 31, 31⟩
def F.ENC_CTX_CTL_CODEC (i : Nat) : Fld := ⟨R.ENC_CTX_CTL i, 28, 28⟩
def F.ENC_CTX_CTL_RC (i : Nat) : Fld := ⟨R.ENC_CTX_CTL i, 27, 27⟩
def F.ENC_CTX_CTL_SEI (i : Nat) : Fld := ⟨R.ENC_CTX_CTL i, 26, 26⟩
def F.ENC_CTX_CTL_LINK (i : Nat) : Fld := ⟨R.ENC_CTX_CTL i, 25, 25⟩
def F.ENC_CTX_CTL_QUAD (i : Nat) : Fld := ⟨R.ENC_CTX_CTL i, 24, 24⟩
def F.ENC_CTX_CTL_ENGINE (i : Nat) : Fld := ⟨R.ENC_CTX_CTL i, 2, 0⟩

/-- R243. -/
def R.ENC_CTX_STATUS (i : Nat) : Nat := 0x301004 + 0x10000 * (i / 4) + 0x100 * (i % 4)
def F.ENC_CTX_STATUS_QP_LAST (i : Nat) : Fld := ⟨R.ENC_CTX_STATUS i, 21, 16⟩
def F.ENC_CTX_STATUS_SPENT (i : Nat) : Fld := ⟨R.ENC_CTX_STATUS i, 4, 4⟩
def F.ENC_CTX_STATUS_STATE (i : Nat) : Fld := ⟨R.ENC_CTX_STATUS i, 2, 0⟩

/-- R243. -/
def R.ENC_CTX_ERR (i : Nat) : Nat := 0x301008 + 0x10000 * (i / 4) + 0x100 * (i % 4)
def F.ENC_CTX_ERR_ERR (i : Nat) : Fld := ⟨R.ENC_CTX_ERR i, 9, 0⟩

/-- R243. -/
def R.ENC_CTX_SRC_LO (i : Nat) : Nat := 0x30100C + 0x10000 * (i / 4) + 0x100 * (i % 4)
def F.ENC_CTX_SRC_LO_ADDR (i : Nat) : Fld := ⟨R.ENC_CTX_SRC_LO i, 31, 12⟩

/-- R243. -/
def R.ENC_CTX_SRC_HI (i : Nat) : Nat := 0x301010 + 0x10000 * (i / 4) + 0x100 * (i % 4)
def F.ENC_CTX_SRC_HI_ADDR (i : Nat) : Fld := ⟨R.ENC_CTX_SRC_HI i, 15, 0⟩

/-- R243. -/
def R.ENC_CTX_SRC_CFG (i : Nat) : Nat := 0x301014 + 0x10000 * (i / 4) + 0x100 * (i % 4)
def F.ENC_CTX_SRC_CFG_SLOTS (i : Nat) : Fld := ⟨R.ENC_CTX_SRC_CFG i, 21, 16⟩
def F.ENC_CTX_SRC_CFG_PITCH (i : Nat) : Fld := ⟨R.ENC_CTX_SRC_CFG i, 15, 8⟩
def F.ENC_CTX_SRC_CFG_TEN_BIT (i : Nat) : Fld := ⟨R.ENC_CTX_SRC_CFG i, 0, 0⟩

/-- R243. -/
def R.ENC_CTX_SRC_GEOM (i : Nat) : Nat := 0x301018 + 0x10000 * (i / 4) + 0x100 * (i % 4)
def F.ENC_CTX_SRC_GEOM_HEIGHT (i : Nat) : Fld := ⟨R.ENC_CTX_SRC_GEOM i, 27, 16⟩
def F.ENC_CTX_SRC_GEOM_WIDTH (i : Nat) : Fld := ⟨R.ENC_CTX_SRC_GEOM i, 12, 0⟩

/-- R243. -/
def R.ENC_CTX_SRC_STRIDE (i : Nat) : Nat := 0x30101C + 0x10000 * (i / 4) + 0x100 * (i % 4)
def F.ENC_CTX_SRC_STRIDE_SIZE (i : Nat) : Fld := ⟨R.ENC_CTX_SRC_STRIDE i, 31, 12⟩

/-- R243. -/
def R.ENC_CTX_SRC_LUMA (i : Nat) : Nat := 0x301020 + 0x10000 * (i / 4) + 0x100 * (i % 4)
def F.ENC_CTX_SRC_LUMA_SIZE (i : Nat) : Fld := ⟨R.ENC_CTX_SRC_LUMA i, 31, 12⟩

/-- R243. -/
def R.ENC_CTX_SRC_SIDE (i : Nat) : Nat := 0x301024 + 0x10000 * (i / 4) + 0x100 * (i % 4)
def F.ENC_CTX_SRC_SIDE_SIZE (i : Nat) : Fld := ⟨R.ENC_CTX_SRC_SIDE i, 31, 12⟩

/-- R243. -/
def R.ENC_CTX_WORK_LO (i : Nat) : Nat := 0x301028 + 0x10000 * (i / 4) + 0x100 * (i % 4)
def F.ENC_CTX_WORK_LO_ADDR (i : Nat) : Fld := ⟨R.ENC_CTX_WORK_LO i, 31, 12⟩

/-- R243. -/
def R.ENC_CTX_WORK_HI (i : Nat) : Nat := 0x30102C + 0x10000 * (i / 4) + 0x100 * (i % 4)
def F.ENC_CTX_WORK_HI_ADDR (i : Nat) : Fld := ⟨R.ENC_CTX_WORK_HI i, 15, 0⟩

/-- R243. -/
def R.ENC_CTX_OUT_LO (i : Nat) : Nat := 0x301030 + 0x10000 * (i / 4) + 0x100 * (i % 4)
def F.ENC_CTX_OUT_LO_ADDR (i : Nat) : Fld := ⟨R.ENC_CTX_OUT_LO i, 31, 12⟩

/-- R243. -/
def R.ENC_CTX_OUT_HI (i : Nat) : Nat := 0x301034 + 0x10000 * (i / 4) + 0x100 * (i % 4)
def F.ENC_CTX_OUT_HI_ADDR (i : Nat) : Fld := ⟨R.ENC_CTX_OUT_HI i, 15, 0⟩

/-- R243. -/
def R.ENC_CTX_OUT_SIZE (i : Nat) : Nat := 0x301038 + 0x10000 * (i / 4) + 0x100 * (i % 4)
def F.ENC_CTX_OUT_SIZE_SIZE (i : Nat) : Fld := ⟨R.ENC_CTX_OUT_SIZE i, 31, 12⟩

/-- R243. -/
def R.ENC_CTX_OUT_WR (i : Nat) : Nat := 0x30103C + 0x10000 * (i / 4) + 0x100 * (i % 4)
def F.ENC_CTX_OUT_WR_OFF (i : Nat) : Fld := ⟨R.ENC_CTX_OUT_WR i, 31, 5⟩

/-- R243. -/
def R.ENC_CTX_OUT_RD (i : Nat) : Nat := 0x301040 + 0x10000 * (i / 4) + 0x100 * (i % 4)
def F.ENC_CTX_OUT_RD_OFF (i : Nat) : Fld := ⟨R.ENC_CTX_OUT_RD i, 31, 5⟩

/-- R243. -/
def R.ENC_CTX_RATE (i : Nat) : Nat := 0x301044 + 0x10000 * (i / 4) + 0x100 * (i % 4)
def F.ENC_CTX_RATE_KBPS (i : Nat) : Fld := ⟨R.ENC_CTX_RATE i, 23, 0⟩

/-- R243. -/
def R.ENC_CTX_CPB (i : Nat) : Nat := 0x301048 + 0x10000 * (i / 4) + 0x100 * (i % 4)
def F.ENC_CTX_CPB_KBIT (i : Nat) : Fld := ⟨R.ENC_CTX_CPB i, 23, 0⟩

/-- R243. -/
def R.ENC_CTX_TARGET (i : Nat) : Nat := 0x30104C + 0x10000 * (i / 4) + 0x100 * (i % 4)
def F.ENC_CTX_TARGET_KBIT (i : Nat) : Fld := ⟨R.ENC_CTX_TARGET i, 23, 0⟩

/-- R243. -/
def R.ENC_CTX_QP (i : Nat) : Nat := 0x301050 + 0x10000 * (i / 4) + 0x100 * (i % 4)
def F.ENC_CTX_QP_QP_I (i : Nat) : Fld := ⟨R.ENC_CTX_QP i, 29, 24⟩
def F.ENC_CTX_QP_QP_MAX (i : Nat) : Fld := ⟨R.ENC_CTX_QP i, 21, 16⟩
def F.ENC_CTX_QP_QP_MIN (i : Nat) : Fld := ⟨R.ENC_CTX_QP i, 13, 8⟩

/-- R243. -/
def R.ENC_CTX_GOP (i : Nat) : Nat := 0x301054 + 0x10000 * (i / 4) + 0x100 * (i % 4)
def F.ENC_CTX_GOP_STEP (i : Nat) : Fld := ⟨R.ENC_CTX_GOP i, 31, 24⟩
def F.ENC_CTX_GOP_LEVEL (i : Nat) : Fld := ⟨R.ENC_CTX_GOP i, 23, 16⟩
def F.ENC_CTX_GOP_IDR_INTERVAL (i : Nat) : Fld := ⟨R.ENC_CTX_GOP i, 15, 0⟩

/-- R243. -/
def R.ENC_CTX_SRATE (i : Nat) : Nat := 0x301058 + 0x10000 * (i / 4) + 0x100 * (i % 4)
def F.ENC_CTX_SRATE_DEN (i : Nat) : Fld := ⟨R.ENC_CTX_SRATE i, 31, 16⟩
def F.ENC_CTX_SRATE_NUM (i : Nat) : Fld := ⟨R.ENC_CTX_SRATE i, 15, 0⟩

/-- R243. -/
def R.ENC_CTX_FULL (i : Nat) : Nat := 0x30105C + 0x10000 * (i / 4) + 0x100 * (i % 4)
def F.ENC_CTX_FULL_BITS (i : Nat) : Fld := ⟨R.ENC_CTX_FULL i, 31, 0⟩

/-- R243. -/
def R.ENC_CTX_FRAMES (i : Nat) : Nat := 0x301060 + 0x10000 * (i / 4) + 0x100 * (i % 4)
def F.ENC_CTX_FRAMES_COUNT (i : Nat) : Fld := ⟨R.ENC_CTX_FRAMES i, 31, 0⟩

/-- R243. -/
def R.ENC_CTX_CARRIED (i : Nat) : Nat := 0x301064 + 0x10000 * (i / 4) + 0x100 * (i % 4)
def F.ENC_CTX_CARRIED_COUNT (i : Nat) : Fld := ⟨R.ENC_CTX_CARRIED i, 31, 0⟩

/-- R269. -/
def R.COMP_ERR : Nat := 0x400000
def F.COMP_ERR_CFG : Fld := ⟨R.COMP_ERR, 7, 7⟩
def F.COMP_ERR_POISON : Fld := ⟨R.COMP_ERR, 6, 6⟩
def F.COMP_ERR_INPUT_FIT : Fld := ⟨R.COMP_ERR, 5, 5⟩
def F.COMP_ERR_INPUT_HELD : Fld := ⟨R.COMP_ERR, 4, 4⟩
def F.COMP_ERR_LP_BUSY : Fld := ⟨R.COMP_ERR, 3, 3⟩
def F.COMP_ERR_SCALER_WAIT : Fld := ⟨R.COMP_ERR, 2, 2⟩
def F.COMP_ERR_INPUT_FMT : Fld := ⟨R.COMP_ERR, 1, 1⟩
def F.COMP_ERR_DESC : Fld := ⟨R.COMP_ERR, 0, 0⟩

/-- R269. -/
def R.COMP_IRQ_EN : Nat := 0x400004
def F.COMP_IRQ_EN_EN : Fld := ⟨R.COMP_IRQ_EN, 7, 0⟩

/-- R269. -/
def R.COMP_ERRLOG : Nat := 0x400008
def F.COMP_ERRLOG_VALID : Fld := ⟨R.COMP_ERRLOG, 31, 31⟩
def F.COMP_ERRLOG_CODE : Fld := ⟨R.COMP_ERRLOG, 26, 24⟩
def F.COMP_ERRLOG_HEAD : Fld := ⟨R.COMP_ERRLOG, 20, 16⟩
def F.COMP_ERRLOG_LP : Fld := ⟨R.COMP_ERRLOG, 8, 0⟩

/-- R269. -/
def R.COMP_DESC_SEL : Nat := 0x400010
def F.COMP_DESC_SEL_LP : Fld := ⟨R.COMP_DESC_SEL, 31, 31⟩
def F.COMP_DESC_SEL_INDEX : Fld := ⟨R.COMP_DESC_SEL, 13, 0⟩

/-- R269. -/
def R.COMP_DESC_DATA (w : Nat) : Nat := 0x400040 + 4 * w
def F.COMP_DESC_DATA_DATA (w : Nat) : Fld := ⟨R.COMP_DESC_DATA w, 31, 0⟩

/-- R270. -/
def R.COMP_HEAD_CFG (h : Nat) : Nat := 0x400100 + 4 * h
def F.COMP_HEAD_CFG_DITHER (h : Nat) : Fld := ⟨R.COMP_HEAD_CFG h, 4, 4⟩
def F.COMP_HEAD_CFG_DEPTH (h : Nat) : Fld := ⟨R.COMP_HEAD_CFG h, 1, 0⟩

/-- R270. -/
def R.COMP_BG (h : Nat) : Nat := 0x400180 + 4 * h
def F.COMP_BG_COLOUR (h : Nat) : Fld := ⟨R.COMP_BG h, 29, 0⟩

/-- R270. -/
def R.COMP_HFETCH (h : Nat) : Nat := 0x400200 + 4 * h
def F.COMP_HFETCH_BLOCKS (h : Nat) : Fld := ⟨R.COMP_HFETCH h, 31, 0⟩

/-- R270. -/
def R.COMP_STACK (h s : Nat) : Nat := 0x401000 + 0x40 * h + 4 * s
def F.COMP_STACK_USED (h s : Nat) : Fld := ⟨R.COMP_STACK h s, 31, 31⟩
def F.COMP_STACK_LP (h s : Nat) : Fld := ⟨R.COMP_STACK h s, 24, 16⟩

/-- R271. -/
def R.COMP_LP_STAT (n : Nat) : Nat := 0x402000 + 8 * n
def F.COMP_LP_STAT_ATTACHED (n : Nat) : Fld := ⟨R.COMP_LP_STAT n, 31, 31⟩
def F.COMP_LP_STAT_INVALID (n : Nat) : Fld := ⟨R.COMP_LP_STAT n, 30, 30⟩
def F.COMP_LP_STAT_SCALER_WAIT (n : Nat) : Fld := ⟨R.COMP_LP_STAT n, 29, 29⟩
def F.COMP_LP_STAT_NO_PICTURE (n : Nat) : Fld := ⟨R.COMP_LP_STAT n, 28, 28⟩
def F.COMP_LP_STAT_HEAD (n : Nat) : Fld := ⟨R.COMP_LP_STAT n, 24, 20⟩
def F.COMP_LP_STAT_SLOT (n : Nat) : Fld := ⟨R.COMP_LP_STAT n, 19, 16⟩
def F.COMP_LP_STAT_DESC (n : Nat) : Fld := ⟨R.COMP_LP_STAT n, 13, 0⟩

/-- R271. -/
def R.COMP_LP_FETCH (n : Nat) : Nat := 0x402004 + 8 * n
def F.COMP_LP_FETCH_BLOCKS (n : Nat) : Fld := ⟨R.COMP_LP_FETCH n, 31, 0⟩

/-- R272. -/
def R.COMP_IN_CTL (j : Nat) : Nat := 0x400400 + 0x20 * j
def F.COMP_IN_CTL_EN (j : Nat) : Fld := ⟨R.COMP_IN_CTL j, 31, 31⟩
def F.COMP_IN_CTL_SLOTS (j : Nat) : Fld := ⟨R.COMP_IN_CTL j, 21, 16⟩
def F.COMP_IN_CTL_PITCH (j : Nat) : Fld := ⟨R.COMP_IN_CTL j, 15, 8⟩
def F.COMP_IN_CTL_FMT (j : Nat) : Fld := ⟨R.COMP_IN_CTL j, 1, 0⟩

/-- R272. -/
def R.COMP_IN_LO (j : Nat) : Nat := 0x400404 + 0x20 * j
def F.COMP_IN_LO_ADDR (j : Nat) : Fld := ⟨R.COMP_IN_LO j, 31, 12⟩

/-- R272. -/
def R.COMP_IN_HI (j : Nat) : Nat := 0x400408 + 0x20 * j
def F.COMP_IN_HI_ADDR (j : Nat) : Fld := ⟨R.COMP_IN_HI j, 15, 0⟩

/-- R272. -/
def R.COMP_IN_STRIDE (j : Nat) : Nat := 0x40040C + 0x20 * j
def F.COMP_IN_STRIDE_SIZE (j : Nat) : Fld := ⟨R.COMP_IN_STRIDE j, 31, 12⟩

/-- R272. -/
def R.COMP_IN_CHROMA (j : Nat) : Nat := 0x400410 + 0x20 * j
def F.COMP_IN_CHROMA_SIZE (j : Nat) : Fld := ⟨R.COMP_IN_CHROMA j, 31, 12⟩

/-- R273. -/
def R.SCL_STAT (n : Nat) : Nat := 0x410000 + 4 * n
def F.SCL_STAT_HELD (n : Nat) : Fld := ⟨R.SCL_STAT n, 31, 31⟩
def F.SCL_STAT_LP (n : Nat) : Fld := ⟨R.SCL_STAT n, 8, 0⟩

/-- R273. -/
def R.SCL_ERR : Nat := 0x410800
def F.SCL_ERR_CFG : Fld := ⟨R.SCL_ERR, 0, 0⟩

/-- R273. -/
def R.SCL_IRQ_EN : Nat := 0x410804
def F.SCL_IRQ_EN_EN : Fld := ⟨R.SCL_IRQ_EN, 0, 0⟩

/-- R273. -/
def R.SCL_HCOEF (t p m : Nat) : Nat := 0x411000 + 0x400 * t + 0x10 * p + 4 * m
def F.SCL_HCOEF_C1 (t p m : Nat) : Fld := ⟨R.SCL_HCOEF t p m, 25, 16⟩
def F.SCL_HCOEF_C0 (t p m : Nat) : Fld := ⟨R.SCL_HCOEF t p m, 9, 0⟩

/-- R273. -/
def R.SCL_VCOEF (t p m : Nat) : Nat := 0x412000 + 0x200 * t + 8 * p + 4 * m
def F.SCL_VCOEF_C1 (t p m : Nat) : Fld := ⟨R.SCL_VCOEF t p m, 25, 16⟩
def F.SCL_VCOEF_C0 (t p m : Nat) : Fld := ⟨R.SCL_VCOEF t p m, 9, 0⟩

/-- R300. -/
def R.HEAD_CTL (n : Nat) : Nat := 0x500000 + 0x10000 * n
def F.HEAD_CTL_EN (n : Nat) : Fld := ⟨R.HEAD_CTL n, 0, 0⟩

/-- R300. -/
def R.HEAD_COMMIT (n : Nat) : Nat := 0x500008 + 0x10000 * n
def F.HEAD_COMMIT_MODE (n : Nat) : Fld := ⟨R.HEAD_COMMIT n, 1, 1⟩
def F.HEAD_COMMIT_GO (n : Nat) : Fld := ⟨R.HEAD_COMMIT n, 0, 0⟩

/-- R300. -/
def R.HEAD_CMT_TICK_LO (n : Nat) : Nat := 0x50000C + 0x10000 * n
def F.HEAD_CMT_TICK_LO_TICK (n : Nat) : Fld := ⟨R.HEAD_CMT_TICK_LO n, 31, 0⟩

/-- R300. -/
def R.HEAD_CMT_TICK_HI (n : Nat) : Nat := 0x500010 + 0x10000 * n
def F.HEAD_CMT_TICK_HI_TICK (n : Nat) : Fld := ⟨R.HEAD_CMT_TICK_HI n, 31, 0⟩

/-- R300. -/
def R.HEAD_HTIMING (n : Nat) : Nat := 0x500020 + 0x10000 * n
def F.HEAD_HTIMING_HTOTAL (n : Nat) : Fld := ⟨R.HEAD_HTIMING n, 28, 16⟩
def F.HEAD_HTIMING_HACTIVE (n : Nat) : Fld := ⟨R.HEAD_HTIMING n, 12, 0⟩

/-- R300. -/
def R.HEAD_HSYNC (n : Nat) : Nat := 0x500024 + 0x10000 * n
def F.HEAD_HSYNC_HS_START (n : Nat) : Fld := ⟨R.HEAD_HSYNC n, 28, 16⟩
def F.HEAD_HSYNC_HS_WIDTH (n : Nat) : Fld := ⟨R.HEAD_HSYNC n, 12, 0⟩

/-- R300. -/
def R.HEAD_VTIMING (n : Nat) : Nat := 0x500028 + 0x10000 * n
def F.HEAD_VTIMING_VTOTAL (n : Nat) : Fld := ⟨R.HEAD_VTIMING n, 27, 16⟩
def F.HEAD_VTIMING_VACTIVE (n : Nat) : Fld := ⟨R.HEAD_VTIMING n, 11, 0⟩

/-- R300. -/
def R.HEAD_VSYNC (n : Nat) : Nat := 0x50002C + 0x10000 * n
def F.HEAD_VSYNC_VS_START (n : Nat) : Fld := ⟨R.HEAD_VSYNC n, 27, 16⟩
def F.HEAD_VSYNC_VS_WIDTH (n : Nat) : Fld := ⟨R.HEAD_VSYNC n, 11, 0⟩

/-- R300. -/
def R.HEAD_MODE (n : Nat) : Nat := 0x500030 + 0x10000 * n
def F.HEAD_MODE_LATCH_LEAD (n : Nat) : Fld := ⟨R.HEAD_MODE n, 15, 8⟩
def F.HEAD_MODE_VPOL (n : Nat) : Fld := ⟨R.HEAD_MODE n, 1, 1⟩
def F.HEAD_MODE_HPOL (n : Nat) : Fld := ⟨R.HEAD_MODE n, 0, 0⟩

/-- R300. -/
def R.HEAD_ERR (n : Nat) : Nat := 0x500040 + 0x10000 * n
def F.HEAD_ERR_RESYNC (n : Nat) : Fld := ⟨R.HEAD_ERR n, 2, 2⟩
def F.HEAD_ERR_UNDERFLOW (n : Nat) : Fld := ⟨R.HEAD_ERR n, 1, 1⟩
def F.HEAD_ERR_CFG (n : Nat) : Fld := ⟨R.HEAD_ERR n, 0, 0⟩

/-- R300. -/
def R.HEAD_IRQ_EN (n : Nat) : Nat := 0x500044 + 0x10000 * n
def F.HEAD_IRQ_EN_EN (n : Nat) : Fld := ⟨R.HEAD_IRQ_EN n, 2, 0⟩

/-- R301. -/
def R.HEAD_STATUS (n : Nat) : Nat := 0x500004 + 0x10000 * n
def F.HEAD_STATUS_QUIET (n : Nat) : Fld := ⟨R.HEAD_STATUS n, 18, 18⟩
def F.HEAD_STATUS_VBLANK (n : Nat) : Fld := ⟨R.HEAD_STATUS n, 17, 17⟩
def F.HEAD_STATUS_SECOND (n : Nat) : Fld := ⟨R.HEAD_STATUS n, 16, 16⟩
def F.HEAD_STATUS_STATE (n : Nat) : Fld := ⟨R.HEAD_STATUS n, 2, 0⟩

/-- R301. -/
def R.HEAD_FRAME_LO (n : Nat) : Nat := 0x500048 + 0x10000 * n
def F.HEAD_FRAME_LO_FRAME (n : Nat) : Fld := ⟨R.HEAD_FRAME_LO n, 31, 0⟩

/-- R301. -/
def R.HEAD_FRAME_HI (n : Nat) : Nat := 0x50004C + 0x10000 * n
def F.HEAD_FRAME_HI_FRAME (n : Nat) : Fld := ⟨R.HEAD_FRAME_HI n, 15, 0⟩

/-- R301. -/
def R.HEAD_PRES_0 (n : Nat) : Nat := 0x500050 + 0x10000 * n
def F.HEAD_PRES_0_VAL (n : Nat) : Fld := ⟨R.HEAD_PRES_0 n, 31, 0⟩

/-- R301. -/
def R.HEAD_PRES_1 (n : Nat) : Nat := 0x500054 + 0x10000 * n
def F.HEAD_PRES_1_VAL (n : Nat) : Fld := ⟨R.HEAD_PRES_1 n, 31, 0⟩

/-- R301. -/
def R.HEAD_PRES_2 (n : Nat) : Nat := 0x500058 + 0x10000 * n
def F.HEAD_PRES_2_VAL (n : Nat) : Fld := ⟨R.HEAD_PRES_2 n, 31, 0⟩

/-- R301. -/
def R.HEAD_TS_0 (n : Nat) : Nat := 0x50005C + 0x10000 * n
def F.HEAD_TS_0_VAL (n : Nat) : Fld := ⟨R.HEAD_TS_0 n, 31, 0⟩

/-- R301. -/
def R.HEAD_TS_1 (n : Nat) : Nat := 0x500060 + 0x10000 * n
def F.HEAD_TS_1_VAL (n : Nat) : Fld := ⟨R.HEAD_TS_1 n, 31, 0⟩

/-- R301. -/
def R.HEAD_TS_2 (n : Nat) : Nat := 0x500064 + 0x10000 * n
def F.HEAD_TS_2_VAL (n : Nat) : Fld := ⟨R.HEAD_TS_2 n, 31, 0⟩

/-- R301. -/
def R.HEAD_FLIP_TS_0 (n : Nat) : Nat := 0x500068 + 0x10000 * n
def F.HEAD_FLIP_TS_0_VAL (n : Nat) : Fld := ⟨R.HEAD_FLIP_TS_0 n, 31, 0⟩

/-- R301. -/
def R.HEAD_FLIP_TS_1 (n : Nat) : Nat := 0x50006C + 0x10000 * n
def F.HEAD_FLIP_TS_1_VAL (n : Nat) : Fld := ⟨R.HEAD_FLIP_TS_1 n, 31, 0⟩

/-- R301. -/
def R.HEAD_FLIP_TS_2 (n : Nat) : Nat := 0x500070 + 0x10000 * n
def F.HEAD_FLIP_TS_2_VAL (n : Nat) : Fld := ⟨R.HEAD_FLIP_TS_2 n, 31, 0⟩

/-- R301. -/
def R.HEAD_FLIP_FRAME_LO (n : Nat) : Nat := 0x500074 + 0x10000 * n
def F.HEAD_FLIP_FRAME_LO_FRAME (n : Nat) : Fld := ⟨R.HEAD_FLIP_FRAME_LO n, 31, 0⟩

/-- R301. -/
def R.HEAD_FLIP_FRAME_HI (n : Nat) : Nat := 0x500078 + 0x10000 * n
def F.HEAD_FLIP_FRAME_HI_FRAME (n : Nat) : Fld := ⟨R.HEAD_FLIP_FRAME_HI n, 15, 0⟩

/-- R301. -/
def R.HEAD_UFLOW (n : Nat) : Nat := 0x50007C + 0x10000 * n
def F.HEAD_UFLOW_COUNT (n : Nat) : Fld := ⟨R.HEAD_UFLOW n, 31, 0⟩

/-- R301. -/
def R.HEAD_LINE (n : Nat) : Nat := 0x500080 + 0x10000 * n
def F.HEAD_LINE_VBLANK (n : Nat) : Fld := ⟨R.HEAD_LINE n, 31, 31⟩
def F.HEAD_LINE_LINE (n : Nat) : Fld := ⟨R.HEAD_LINE n, 12, 0⟩

/-- R301. -/
def R.HEAD_CERT (n w : Nat) : Nat := 0x500100 + 0x10000 * n + 4 * w
def F.HEAD_CERT_DATA (n w : Nat) : Fld := ⟨R.HEAD_CERT n w, 31, 0⟩

/-- R302. -/
def R.COMP_WB_CTL (w : Nat) : Nat := 0x403000 + 0x40 * w
def F.COMP_WB_CTL_EN (w : Nat) : Fld := ⟨R.COMP_WB_CTL w, 31, 31⟩
def F.COMP_WB_CTL_HEAD (w : Nat) : Fld := ⟨R.COMP_WB_CTL w, 20, 16⟩
def F.COMP_WB_CTL_SIZE (w : Nat) : Fld := ⟨R.COMP_WB_CTL w, 9, 8⟩
def F.COMP_WB_CTL_TEN_BIT (w : Nat) : Fld := ⟨R.COMP_WB_CTL w, 0, 0⟩

/-- R302. -/
def R.COMP_WB_LO (w : Nat) : Nat := 0x403004 + 0x40 * w
def F.COMP_WB_LO_ADDR (w : Nat) : Fld := ⟨R.COMP_WB_LO w, 31, 12⟩

/-- R302. -/
def R.COMP_WB_HI (w : Nat) : Nat := 0x403008 + 0x40 * w
def F.COMP_WB_HI_ADDR (w : Nat) : Fld := ⟨R.COMP_WB_HI w, 15, 0⟩

/-- R302. -/
def R.COMP_WB_CFG (w : Nat) : Nat := 0x40300C + 0x40 * w
def F.COMP_WB_CFG_SLOTS (w : Nat) : Fld := ⟨R.COMP_WB_CFG w, 21, 16⟩
def F.COMP_WB_CFG_PITCH (w : Nat) : Fld := ⟨R.COMP_WB_CFG w, 15, 8⟩

/-- R302. -/
def R.COMP_WB_STRIDE (w : Nat) : Nat := 0x403010 + 0x40 * w
def F.COMP_WB_STRIDE_SIZE (w : Nat) : Fld := ⟨R.COMP_WB_STRIDE w, 31, 12⟩

/-- R302. -/
def R.COMP_WB_LUMA (w : Nat) : Nat := 0x403014 + 0x40 * w
def F.COMP_WB_LUMA_SIZE (w : Nat) : Fld := ⟨R.COMP_WB_LUMA w, 31, 12⟩

/-- R302. -/
def R.COMP_WB_SIDE (w : Nat) : Nat := 0x403018 + 0x40 * w
def F.COMP_WB_SIDE_SIZE (w : Nat) : Fld := ⟨R.COMP_WB_SIDE w, 31, 12⟩

/-- R302. -/
def R.COMP_WB_FENCE_LO (w : Nat) : Nat := 0x40301C + 0x40 * w
def F.COMP_WB_FENCE_LO_ADDR (w : Nat) : Fld := ⟨R.COMP_WB_FENCE_LO w, 31, 3⟩

/-- R302. -/
def R.COMP_WB_FENCE_HI (w : Nat) : Nat := 0x403020 + 0x40 * w
def F.COMP_WB_FENCE_HI_ADDR (w : Nat) : Fld := ⟨R.COMP_WB_FENCE_HI w, 15, 0⟩

/-- R302. -/
def R.COMP_WB_ERR (w : Nat) : Nat := 0x403028 + 0x40 * w
def F.COMP_WB_ERR_CFG (w : Nat) : Fld := ⟨R.COMP_WB_ERR w, 2, 2⟩
def F.COMP_WB_ERR_REFUSED (w : Nat) : Fld := ⟨R.COMP_WB_ERR w, 1, 1⟩
def F.COMP_WB_ERR_ABANDON (w : Nat) : Fld := ⟨R.COMP_WB_ERR w, 0, 0⟩

/-- R302. -/
def R.COMP_WB_IRQ_EN (w : Nat) : Nat := 0x40302C + 0x40 * w
def F.COMP_WB_IRQ_EN_EN (w : Nat) : Fld := ⟨R.COMP_WB_IRQ_EN w, 2, 0⟩

/-- R302. -/
def R.COMP_WB_LAST_LO (w : Nat) : Nat := 0x403030 + 0x40 * w
def F.COMP_WB_LAST_LO_FRAME (w : Nat) : Fld := ⟨R.COMP_WB_LAST_LO w, 31, 0⟩

/-- R302. -/
def R.COMP_WB_LAST_HI (w : Nat) : Nat := 0x403034 + 0x40 * w
def F.COMP_WB_LAST_HI_FRAME (w : Nat) : Fld := ⟨R.COMP_WB_LAST_HI w, 15, 0⟩

/-- R302. -/
def R.COMP_WB_ABANDON (w : Nat) : Nat := 0x403038 + 0x40 * w
def F.COMP_WB_ABANDON_COUNT (w : Nat) : Fld := ⟨R.COMP_WB_ABANDON w, 31, 0⟩

/-- R337. -/
def R.FG_BOUND : Nat := 0x700000
def F.FG_BOUND_CEIL : Fld := ⟨R.FG_BOUND, 29, 16⟩
def F.FG_BOUND_FLOOR : Fld := ⟨R.FG_BOUND, 13, 0⟩

/-- R337. -/
def R.FG_POLICY : Nat := 0x700004
def F.FG_POLICY_UNTIMED_VIDEO : Fld := ⟨R.FG_POLICY, 24, 24⟩
def F.FG_POLICY_FREEZE_N : Fld := ⟨R.FG_POLICY, 19, 16⟩
def F.FG_POLICY_DEFAULT : Fld := ⟨R.FG_POLICY, 13, 0⟩

/-- R337. -/
def R.FG_TIMING : Nat := 0x700008
def F.FG_TIMING_FUTURE_LIMIT : Fld := ⟨R.FG_TIMING, 31, 16⟩
def F.FG_TIMING_ARR_LEAD : Fld := ⟨R.FG_TIMING, 15, 0⟩

/-- R337. -/
def R.FG_PAL (k : Nat) : Nat := 0x700010 + 4 * k
def F.FG_PAL_COLOUR (k : Nat) : Fld := ⟨R.FG_PAL k, 29, 0⟩

/-- R337. -/
def R.FG_NOISY_IN : Nat := 0x700028
def F.FG_NOISY_IN_MASK : Fld := ⟨R.FG_NOISY_IN, 23, 0⟩

/-- R337. -/
def R.FG_NOISY_CTX (k : Nat) : Nat := 0x70002C + 4 * k
def F.FG_NOISY_CTX_MASK (k : Nat) : Fld := ⟨R.FG_NOISY_CTX k, 31, 0⟩

/-- R337. -/
def R.FG_LOCK : Nat := 0x70003C
def F.FG_LOCK_LOCK : Fld := ⟨R.FG_LOCK, 0, 0⟩

/-- R337. -/
def R.FG_ERR : Nat := 0x700040
def F.FG_ERR_AMAP_ECC : Fld := ⟨R.FG_ERR, 4, 4⟩
def F.FG_ERR_FRZ_LOST : Fld := ⟨R.FG_ERR, 3, 3⟩
def F.FG_ERR_UNKNOWN : Fld := ⟨R.FG_ERR, 2, 2⟩
def F.FG_ERR_FUTURE : Fld := ⟨R.FG_ERR, 1, 1⟩
def F.FG_ERR_AMAP : Fld := ⟨R.FG_ERR, 0, 0⟩

/-- R337. -/
def R.FG_IRQ_EN : Nat := 0x700044
def F.FG_IRQ_EN_EN : Fld := ⟨R.FG_IRQ_EN, 4, 0⟩

/-- R338. -/
def R.FG_HEAD_AMAP (h : Nat) : Nat := 0x700100 + 8 * h
def F.FG_HEAD_AMAP_BASE (h : Nat) : Fld := ⟨R.FG_HEAD_AMAP h, 17, 0⟩

/-- R338. -/
def R.FG_HEAD_STAT (h : Nat) : Nat := 0x700104 + 8 * h
def F.FG_HEAD_STAT_PREV_VEILED (h : Nat) : Fld := ⟨R.FG_HEAD_STAT h, 31, 16⟩
def F.FG_HEAD_STAT_VEILED (h : Nat) : Fld := ⟨R.FG_HEAD_STAT h, 15, 0⟩

/-- R338. -/
def R.FG_HEAD_MAXAGE (h : Nat) : Nat := 0x700300 + 4 * h
def F.FG_HEAD_MAXAGE_AGE (h : Nat) : Fld := ⟨R.FG_HEAD_MAXAGE h, 29, 0⟩

/-- R338. -/
def R.FG_FONT (g w : Nat) : Nat := 0x700800 + 0x10 * g + 4 * w
def F.FG_FONT_ROWS (g w : Nat) : Fld := ⟨R.FG_FONT g w, 31, 0⟩

/-- R338. -/
def R.FG_LP_STAT (n : Nat) : Nat := 0x701000 + 8 * n
def F.FG_LP_STAT_VIS_TILES (n : Nat) : Fld := ⟨R.FG_LP_STAT n, 31, 16⟩
def F.FG_LP_STAT_VEILED (n : Nat) : Fld := ⟨R.FG_LP_STAT n, 15, 15⟩
def F.FG_LP_STAT_CAUSE (n : Nat) : Fld := ⟨R.FG_LP_STAT n, 9, 0⟩

/-- R338. -/
def R.FG_LP_AGE (n : Nat) : Nat := 0x701004 + 8 * n
def F.FG_LP_AGE_AGE (n : Nat) : Fld := ⟨R.FG_LP_AGE n, 29, 0⟩

/-- R339. -/
def R.AGE_SEL : Nat := 0x710000
def F.AGE_SEL_INDEX : Fld := ⟨R.AGE_SEL, 17, 0⟩

/-- R339. -/
def R.AGE_ENTRY_LO : Nat := 0x710004
def F.AGE_ENTRY_LO_DATA : Fld := ⟨R.AGE_ENTRY_LO, 31, 0⟩

/-- R339. -/
def R.AGE_ENTRY_HI : Nat := 0x710008
def F.AGE_ENTRY_HI_DATA : Fld := ⟨R.AGE_ENTRY_HI, 31, 0⟩

/-- R339. -/
def R.AGE_OWNER : Nat := 0x71000C
def F.AGE_OWNER_VALID : Fld := ⟨R.AGE_OWNER, 31, 31⟩
def F.AGE_OWNER_HEAD : Fld := ⟨R.AGE_OWNER, 4, 0⟩

/-- R357. -/
def R.DDR_CTL (n : Nat) : Nat := 0x100000 + 0x10000 * n
def F.DDR_CTL_APPLY (n : Nat) : Fld := ⟨R.DDR_CTL n, 8, 8⟩
def F.DDR_CTL_INIT (n : Nat) : Fld := ⟨R.DDR_CTL n, 1, 1⟩
def F.DDR_CTL_EN (n : Nat) : Fld := ⟨R.DDR_CTL n, 0, 0⟩

/-- R357. -/
def R.DDR_STATUS (n : Nat) : Nat := 0x100004 + 0x10000 * n
def F.DDR_STATUS_STATE (n : Nat) : Fld := ⟨R.DDR_STATUS n, 10, 8⟩
def F.DDR_STATUS_POINT (n : Nat) : Fld := ⟨R.DDR_STATUS n, 1, 0⟩

/-- R357. -/
def R.DDR_CFG (n : Nat) : Nat := 0x100008 + 0x10000 * n
def F.DDR_CFG_DENSITY (n : Nat) : Fld := ⟨R.DDR_CFG n, 1, 0⟩

/-- R357. -/
def R.DDR_WQ (n : Nat) : Nat := 0x10000C + 0x10000 * n
def F.DDR_WQ_HIGH (n : Nat) : Fld := ⟨R.DDR_WQ n, 23, 16⟩
def F.DDR_WQ_IDLE (n : Nat) : Fld := ⟨R.DDR_WQ n, 15, 8⟩
def F.DDR_WQ_LOW (n : Nat) : Fld := ⟨R.DDR_WQ n, 7, 0⟩

/-- R357. -/
def R.DDR_REF (n : Nat) : Nat := 0x100010 + 0x10000 * n
def F.DDR_REF_REFI_NS (n : Nat) : Fld := ⟨R.DDR_REF n, 15, 0⟩

/-- R357. -/
def R.DDR_ERR (n : Nat) : Nat := 0x100014 + 0x10000 * n
def F.DDR_ERR_TRN (n : Nat) : Fld := ⟨R.DDR_ERR n, 1, 1⟩
def F.DDR_ERR_CFG (n : Nat) : Fld := ⟨R.DDR_ERR n, 0, 0⟩

/-- R358. -/
def R.DDR_CNT_RD (n : Nat) : Nat := 0x100020 + 0x10000 * n
def F.DDR_CNT_RD_COUNT (n : Nat) : Fld := ⟨R.DDR_CNT_RD n, 31, 0⟩

/-- R358. -/
def R.DDR_CNT_WR (n : Nat) : Nat := 0x100024 + 0x10000 * n
def F.DDR_CNT_WR_COUNT (n : Nat) : Fld := ⟨R.DDR_CNT_WR n, 31, 0⟩

/-- R358. -/
def R.DDR_CNT_HAZ (n : Nat) : Nat := 0x100028 + 0x10000 * n
def F.DDR_CNT_HAZ_COUNT (n : Nat) : Fld := ⟨R.DDR_CNT_HAZ n, 31, 0⟩

/-- R358. -/
def R.DDR_LAT_MAX (n : Nat) : Nat := 0x10002C + 0x10000 * n
def F.DDR_LAT_MAX_NS (n : Nat) : Fld := ⟨R.DDR_LAT_MAX n, 15, 0⟩

/-- R358. -/
def R.DDR_PEAK50 (n : Nat) : Nat := 0x100030 + 0x10000 * n
def F.DDR_PEAK50_COUNT (n : Nat) : Fld := ⟨R.DDR_PEAK50 n, 31, 0⟩

/-- R358. -/
def R.DDR_TRN_CTL (n : Nat) : Nat := 0x100040 + 0x10000 * n
def F.DDR_TRN_CTL_GO (n : Nat) : Fld := ⟨R.DDR_TRN_CTL n, 31, 31⟩
def F.DDR_TRN_CTL_SUB (n : Nat) : Fld := ⟨R.DDR_TRN_CTL n, 16, 16⟩
def F.DDR_TRN_CTL_MR (n : Nat) : Fld := ⟨R.DDR_TRN_CTL n, 15, 8⟩
def F.DDR_TRN_CTL_OP (n : Nat) : Fld := ⟨R.DDR_TRN_CTL n, 3, 0⟩

/-- R358. -/
def R.DDR_TRN_STAT (n : Nat) : Nat := 0x100044 + 0x10000 * n
def F.DDR_TRN_STAT_DONE (n : Nat) : Fld := ⟨R.DDR_TRN_STAT n, 31, 31⟩
def F.DDR_TRN_STAT_REFUSED (n : Nat) : Fld := ⟨R.DDR_TRN_STAT n, 30, 30⟩
def F.DDR_TRN_STAT_COUNT (n : Nat) : Fld := ⟨R.DDR_TRN_STAT n, 15, 0⟩

/-- R358. -/
def R.DDR_TRN_PASS0 (n : Nat) : Nat := 0x100048 + 0x10000 * n
def F.DDR_TRN_PASS0_DQ (n : Nat) : Fld := ⟨R.DDR_TRN_PASS0 n, 31, 0⟩

/-- R358. -/
def R.DDR_TRN_PASS1 (n : Nat) : Nat := 0x10004C + 0x10000 * n
def F.DDR_TRN_PASS1_CA (n : Nat) : Fld := ⟨R.DDR_TRN_PASS1 n, 19, 4⟩
def F.DDR_TRN_PASS1_DMI (n : Nat) : Fld := ⟨R.DDR_TRN_PASS1 n, 3, 0⟩

/-- R358. -/
def R.DDR_TRN_ROW (n : Nat) : Nat := 0x100050 + 0x10000 * n
def F.DDR_TRN_ROW_ROW (n : Nat) : Fld := ⟨R.DDR_TRN_ROW n, 17, 0⟩

/-- R359. -/
def R.DDR_TIM0 (n p : Nat) : Nat := 0x100100 + 0x10000 * n + 0x10 * p
def F.DDR_TIM0_TRP (n p : Nat) : Fld := ⟨R.DDR_TIM0 n p, 31, 24⟩
def F.DDR_TIM0_TRCD (n p : Nat) : Fld := ⟨R.DDR_TIM0 n p, 23, 16⟩
def F.DDR_TIM0_WL (n p : Nat) : Fld := ⟨R.DDR_TIM0 n p, 15, 8⟩
def F.DDR_TIM0_RL (n p : Nat) : Fld := ⟨R.DDR_TIM0 n p, 7, 0⟩

/-- R359. -/
def R.DDR_TIM1 (n p : Nat) : Nat := 0x100104 + 0x10000 * n + 0x10 * p
def F.DDR_TIM1_TWTR (n p : Nat) : Fld := ⟨R.DDR_TIM1 n p, 31, 24⟩
def F.DDR_TIM1_TFAW (n p : Nat) : Fld := ⟨R.DDR_TIM1 n p, 23, 16⟩
def F.DDR_TIM1_TRRD (n p : Nat) : Fld := ⟨R.DDR_TIM1 n p, 15, 8⟩
def F.DDR_TIM1_TRAS (n p : Nat) : Fld := ⟨R.DDR_TIM1 n p, 7, 0⟩

/-- R359. -/
def R.DDR_TIM2 (n p : Nat) : Nat := 0x100108 + 0x10000 * n + 0x10 * p
def F.DDR_TIM2_TRTW (n p : Nat) : Fld := ⟨R.DDR_TIM2 n p, 31, 24⟩
def F.DDR_TIM2_TCCD (n p : Nat) : Fld := ⟨R.DDR_TIM2 n p, 23, 16⟩
def F.DDR_TIM2_TRTP (n p : Nat) : Fld := ⟨R.DDR_TIM2 n p, 15, 8⟩
def F.DDR_TIM2_TWR (n p : Nat) : Fld := ⟨R.DDR_TIM2 n p, 7, 0⟩

/-- R359. -/
def R.DDR_TIM3 (n p : Nat) : Nat := 0x10010C + 0x10000 * n + 0x10 * p
def F.DDR_TIM3_TXSR (n p : Nat) : Fld := ⟨R.DDR_TIM3 n p, 27, 16⟩
def F.DDR_TIM3_TRFC (n p : Nat) : Fld := ⟨R.DDR_TIM3 n p, 11, 0⟩

/-- R361. -/
def R.DDR_GCTL : Nat := 0x100C00
def F.DDR_GCTL_READY : Fld := ⟨R.DDR_GCTL, 0, 0⟩

/-- R361. -/
def R.DDR_FC_CTL : Nat := 0x100C04
def F.DDR_FC_CTL_GO : Fld := ⟨R.DDR_FC_CTL, 31, 31⟩
def F.DDR_FC_CTL_FORCE : Fld := ⟨R.DDR_FC_CTL, 30, 30⟩
def F.DDR_FC_CTL_TARGET : Fld := ⟨R.DDR_FC_CTL, 25, 24⟩
def F.DDR_FC_CTL_NEED : Fld := ⟨R.DDR_FC_CTL, 23, 16⟩
def F.DDR_FC_CTL_TIMEOUT : Fld := ⟨R.DDR_FC_CTL, 15, 0⟩

/-- R361. -/
def R.DDR_FC_STAT : Nat := 0x100C08
def F.DDR_FC_STAT_BUSY : Fld := ⟨R.DDR_FC_STAT, 31, 31⟩
def F.DDR_FC_STAT_PREP : Fld := ⟨R.DDR_FC_STAT, 30, 30⟩
def F.DDR_FC_STAT_DURATION : Fld := ⟨R.DDR_FC_STAT, 23, 16⟩
def F.DDR_FC_STAT_FORCED : Fld := ⟨R.DDR_FC_STAT, 3, 3⟩
def F.DDR_FC_STAT_NOWIN : Fld := ⟨R.DDR_FC_STAT, 2, 2⟩
def F.DDR_FC_STAT_DONE : Fld := ⟨R.DDR_FC_STAT, 1, 1⟩

/-- R361. -/
def R.DDR_TOP : Nat := 0x100C0C
def F.DDR_TOP_GIB : Fld := ⟨R.DDR_TOP, 7, 0⟩

/-- R382. -/
def R.ECC_ERR : Nat := 0x180000
def F.ECC_ERR_ERR : Fld := ⟨R.ECC_ERR, 8, 0⟩

/-- R382. -/
def R.ECC_IRQ_EN : Nat := 0x180004
def F.ECC_IRQ_EN_EN : Fld := ⟨R.ECC_IRQ_EN, 7, 0⟩

/-- R382. -/
def R.ECC_CNT_CE_DRAM : Nat := 0x180008
def F.ECC_CNT_CE_DRAM_COUNT : Fld := ⟨R.ECC_CNT_CE_DRAM, 31, 0⟩

/-- R382. -/
def R.ECC_CNT_UE_DRAM : Nat := 0x18000C
def F.ECC_CNT_UE_DRAM_COUNT : Fld := ⟨R.ECC_CNT_UE_DRAM, 31, 0⟩

/-- R382. -/
def R.ECC_CNT_CE_SRAM : Nat := 0x180010
def F.ECC_CNT_CE_SRAM_COUNT : Fld := ⟨R.ECC_CNT_CE_SRAM, 31, 0⟩

/-- R382. -/
def R.ECC_CNT_UE_SRAM : Nat := 0x180014
def F.ECC_CNT_UE_SRAM_COUNT : Fld := ⟨R.ECC_CNT_UE_SRAM, 31, 0⟩

/-- R382. -/
def R.ECC_CNT_REPLAY : Nat := 0x180018
def F.ECC_CNT_REPLAY_COUNT : Fld := ⟨R.ECC_CNT_REPLAY, 31, 0⟩

/-- R382. -/
def R.ECC_CNT_PARFAIL : Nat := 0x18001C
def F.ECC_CNT_PARFAIL_COUNT : Fld := ⟨R.ECC_CNT_PARFAIL, 31, 0⟩

/-- R382. -/
def R.ECC_CNT_RET : Nat := 0x180020
def F.ECC_CNT_RET_COUNT : Fld := ⟨R.ECC_CNT_RET, 31, 0⟩

/-- R382. -/
def R.ECC_LOG_LO : Nat := 0x180030
def F.ECC_LOG_LO_ADDR : Fld := ⟨R.ECC_LOG_LO, 31, 3⟩

/-- R382. -/
def R.ECC_LOG_HI : Nat := 0x180034
def F.ECC_LOG_HI_VALID : Fld := ⟨R.ECC_LOG_HI, 31, 31⟩
def F.ECC_LOG_HI_CODE : Fld := ⟨R.ECC_LOG_HI, 27, 24⟩
def F.ECC_LOG_HI_MASTER : Fld := ⟨R.ECC_LOG_HI, 23, 16⟩
def F.ECC_LOG_HI_ADDR : Fld := ⟨R.ECC_LOG_HI, 15, 0⟩

/-- R382. -/
def R.ECC_CELOG_LO : Nat := 0x180038
def F.ECC_CELOG_LO_ADDR : Fld := ⟨R.ECC_CELOG_LO, 31, 3⟩

/-- R382. -/
def R.ECC_CELOG_HI : Nat := 0x18003C
def F.ECC_CELOG_HI_VALID : Fld := ⟨R.ECC_CELOG_HI, 31, 31⟩
def F.ECC_CELOG_HI_SYM : Fld := ⟨R.ECC_CELOG_HI, 30, 24⟩
def F.ECC_CELOG_HI_MASTER : Fld := ⟨R.ECC_CELOG_HI, 23, 16⟩
def F.ECC_CELOG_HI_ADDR : Fld := ⟨R.ECC_CELOG_HI, 15, 0⟩

/-- R382. -/
def R.ECC_RETIRE (n : Nat) : Nat := 0x180100 + 4 * n
def F.ECC_RETIRE_VALID (n : Nat) : Fld := ⟨R.ECC_RETIRE n, 31, 31⟩
def F.ECC_RETIRE_PAGE (n : Nat) : Fld := ⟨R.ECC_RETIRE n, 23, 0⟩

/-- R382. -/
def R.ECC_DIAG_CTL : Nat := 0x180400
def F.ECC_DIAG_CTL_GO : Fld := ⟨R.ECC_DIAG_CTL, 31, 31⟩
def F.ECC_DIAG_CTL_OP : Fld := ⟨R.ECC_DIAG_CTL, 1, 0⟩

/-- R382. -/
def R.ECC_DIAG_ADDR_LO : Nat := 0x180404
def F.ECC_DIAG_ADDR_LO_ADDR : Fld := ⟨R.ECC_DIAG_ADDR_LO, 31, 3⟩

/-- R382. -/
def R.ECC_DIAG_ADDR_HI : Nat := 0x180408
def F.ECC_DIAG_ADDR_HI_ADDR : Fld := ⟨R.ECC_DIAG_ADDR_HI, 15, 0⟩

/-- R382. -/
def R.ECC_DIAG_DATA (k : Nat) : Nat := 0x180410 + 4 * k
def F.ECC_DIAG_DATA_DATA (k : Nat) : Fld := ⟨R.ECC_DIAG_DATA k, 31, 0⟩

/-- R382. -/
def R.ECC_DIAG_CHK : Nat := 0x180430
def F.ECC_DIAG_CHK_CHK : Fld := ⟨R.ECC_DIAG_CHK, 31, 0⟩

/-- R382. -/
def R.ECC_DIAG_STAT : Nat := 0x180434
def F.ECC_DIAG_STAT_DONE : Fld := ⟨R.ECC_DIAG_STAT, 31, 31⟩
def F.ECC_DIAG_STAT_REFUSED : Fld := ⟨R.ECC_DIAG_STAT, 30, 30⟩
def F.ECC_DIAG_STAT_RESULT : Fld := ⟨R.ECC_DIAG_STAT, 17, 16⟩
def F.ECC_DIAG_STAT_SYM : Fld := ⟨R.ECC_DIAG_STAT, 6, 0⟩

/-- R383. -/
def R.CHURN_CTL : Nat := 0x190000
def F.CHURN_CTL_GO : Fld := ⟨R.CHURN_CTL, 31, 31⟩
def F.CHURN_CTL_ABORT : Fld := ⟨R.CHURN_CTL, 30, 30⟩
def F.CHURN_CTL_MODE : Fld := ⟨R.CHURN_CTL, 0, 0⟩

/-- R383. -/
def R.CHURN_STAT : Nat := 0x190004
def F.CHURN_STAT_BUSY : Fld := ⟨R.CHURN_STAT, 31, 31⟩
def F.CHURN_STAT_REFUSED : Fld := ⟨R.CHURN_STAT, 3, 3⟩
def F.CHURN_STAT_ABORTED : Fld := ⟨R.CHURN_STAT, 2, 2⟩
def F.CHURN_STAT_DONE : Fld := ⟨R.CHURN_STAT, 1, 1⟩
def F.CHURN_STAT_WPROT : Fld := ⟨R.CHURN_STAT, 0, 0⟩

/-- R383. -/
def R.CHURN_IRQ_EN : Nat := 0x190008
def F.CHURN_IRQ_EN_EN : Fld := ⟨R.CHURN_IRQ_EN, 3, 0⟩

/-- R383. -/
def R.CHURN_RATE : Nat := 0x19000C
def F.CHURN_RATE_MBPS : Fld := ⟨R.CHURN_RATE, 13, 0⟩

/-- R383. -/
def R.CHURN_START_LO : Nat := 0x190010
def F.CHURN_START_LO_ADDR : Fld := ⟨R.CHURN_START_LO, 31, 5⟩

/-- R383. -/
def R.CHURN_START_HI : Nat := 0x190014
def F.CHURN_START_HI_ADDR : Fld := ⟨R.CHURN_START_HI, 15, 0⟩

/-- R383. -/
def R.CHURN_END_LO : Nat := 0x190018
def F.CHURN_END_LO_ADDR : Fld := ⟨R.CHURN_END_LO, 31, 5⟩

/-- R383. -/
def R.CHURN_END_HI : Nat := 0x19001C
def F.CHURN_END_HI_ADDR : Fld := ⟨R.CHURN_END_HI, 15, 0⟩

/-- R383. -/
def R.CHURN_POS_LO : Nat := 0x190020
def F.CHURN_POS_LO_ADDR : Fld := ⟨R.CHURN_POS_LO, 31, 3⟩

/-- R383. -/
def R.CHURN_POS_HI : Nat := 0x190024
def F.CHURN_POS_HI_ADDR : Fld := ⟨R.CHURN_POS_HI, 15, 0⟩

/-- R383. -/
def R.CHURN_WORDS : Nat := 0x190028
def F.CHURN_WORDS_COUNT : Fld := ⟨R.CHURN_WORDS, 31, 0⟩

/-- R383. -/
def R.CHURN_CORR : Nat := 0x19002C
def F.CHURN_CORR_COUNT : Fld := ⟨R.CHURN_CORR, 31, 0⟩

/-- R383. -/
def R.CHURN_UNCORR : Nat := 0x190030
def F.CHURN_UNCORR_COUNT : Fld := ⟨R.CHURN_UNCORR, 31, 0⟩

/-- R383. -/
def R.CHURN_POISON : Nat := 0x190034
def F.CHURN_POISON_COUNT : Fld := ⟨R.CHURN_POISON, 31, 0⟩

/-- R383. -/
def R.CHURN_SKIP : Nat := 0x190038
def F.CHURN_SKIP_COUNT : Fld := ⟨R.CHURN_SKIP, 31, 0⟩

/-- R383. -/
def R.CHURN_DROPPED : Nat := 0x19003C
def F.CHURN_DROPPED_COUNT : Fld := ⟨R.CHURN_DROPPED, 31, 0⟩

/-- R383. -/
def R.CHURN_UE_LO (k : Nat) : Nat := 0x190040 + 8 * k
def F.CHURN_UE_LO_ADDR (k : Nat) : Fld := ⟨R.CHURN_UE_LO k, 31, 3⟩

/-- R383. -/
def R.CHURN_UE_HI (k : Nat) : Nat := 0x190044 + 8 * k
def F.CHURN_UE_HI_VALID (k : Nat) : Fld := ⟨R.CHURN_UE_HI k, 31, 31⟩
def F.CHURN_UE_HI_NEW (k : Nat) : Fld := ⟨R.CHURN_UE_HI k, 30, 30⟩
def F.CHURN_UE_HI_ADDR (k : Nat) : Fld := ⟨R.CHURN_UE_HI k, 15, 0⟩

/-- R403. -/
def R.MPU_ERR : Nat := 0x90000
def F.MPU_ERR_LOCKED : Fld := ⟨R.MPU_ERR, 6, 6⟩
def F.MPU_ERR_KIND : Fld := ⟨R.MPU_ERR, 5, 0⟩

/-- R403. -/
def R.MPU_IRQ_EN : Nat := 0x90004
def F.MPU_IRQ_EN_EN : Fld := ⟨R.MPU_IRQ_EN, 6, 0⟩

/-- R403. -/
def R.MPU_NOTICE_LO : Nat := 0x90008
def F.MPU_NOTICE_LO_ADDR : Fld := ⟨R.MPU_NOTICE_LO, 31, 0⟩

/-- R403. -/
def R.MPU_NOTICE_HI : Nat := 0x9000C
def F.MPU_NOTICE_HI_VALID : Fld := ⟨R.MPU_NOTICE_HI, 31, 31⟩
def F.MPU_NOTICE_HI_PRECISE : Fld := ⟨R.MPU_NOTICE_HI, 30, 30⟩
def F.MPU_NOTICE_HI_KIND : Fld := ⟨R.MPU_NOTICE_HI, 26, 24⟩
def F.MPU_NOTICE_HI_MASTER : Fld := ⟨R.MPU_NOTICE_HI, 23, 16⟩
def F.MPU_NOTICE_HI_ADDR : Fld := ⟨R.MPU_NOTICE_HI, 15, 0⟩

/-- R403. -/
def R.MPU_NOTICE_EPOCH : Nat := 0x90010
def F.MPU_NOTICE_EPOCH_EPOCH : Fld := ⟨R.MPU_NOTICE_EPOCH, 15, 0⟩

/-- R403. -/
def R.MPU_NOTICE_CNT : Nat := 0x90014
def F.MPU_NOTICE_CNT_COUNT : Fld := ⟨R.MPU_NOTICE_CNT, 31, 0⟩

/-- R403. -/
def R.MPU_MAINT : Nat := 0x90020
def F.MPU_MAINT_ACTIVE : Fld := ⟨R.MPU_MAINT, 1, 1⟩
def F.MPU_MAINT_OPEN : Fld := ⟨R.MPU_MAINT, 0, 0⟩

/-- R403. -/
def R.MPU_EPOCH (u : Nat) : Nat := 0x90100 + 4 * u
def F.MPU_EPOCH_APPLY (u : Nat) : Fld := ⟨R.MPU_EPOCH u, 31, 31⟩
def F.MPU_EPOCH_EPOCH (u : Nat) : Fld := ⟨R.MPU_EPOCH u, 15, 0⟩

/-- R404. -/
def R.MPU_RGN_START_LO (u r : Nat) : Nat := 0x91000 + 0x200 * u + 0x10 * r
def F.MPU_RGN_START_LO_ADDR (u r : Nat) : Fld := ⟨R.MPU_RGN_START_LO u r, 31, 6⟩

/-- R404. -/
def R.MPU_RGN_START_HI (u r : Nat) : Nat := 0x91004 + 0x200 * u + 0x10 * r
def F.MPU_RGN_START_HI_EN (u r : Nat) : Fld := ⟨R.MPU_RGN_START_HI u r, 31, 31⟩
def F.MPU_RGN_START_HI_ADDR (u r : Nat) : Fld := ⟨R.MPU_RGN_START_HI u r, 15, 0⟩

/-- R404. -/
def R.MPU_RGN_END_LO (u r : Nat) : Nat := 0x91008 + 0x200 * u + 0x10 * r
def F.MPU_RGN_END_LO_ADDR (u r : Nat) : Fld := ⟨R.MPU_RGN_END_LO u r, 31, 6⟩

/-- R404. -/
def R.MPU_RGN_END_HI (u r : Nat) : Nat := 0x9100C + 0x200 * u + 0x10 * r
def F.MPU_RGN_END_HI_LOCK (u r : Nat) : Fld := ⟨R.MPU_RGN_END_HI u r, 31, 31⟩
def F.MPU_RGN_END_HI_ADDR (u r : Nat) : Fld := ⟨R.MPU_RGN_END_HI u r, 15, 0⟩

/-- R413. -/
def R.CVU_CTL (n : Nat) : Nat := 0x80000 + 0x40 * n
def F.CVU_CTL_RESET (n : Nat) : Fld := ⟨R.CVU_CTL n, 31, 31⟩
def F.CVU_CTL_INIT_ONES (n : Nat) : Fld := ⟨R.CVU_CTL n, 8, 8⟩
def F.CVU_CTL_INVERT (n : Nat) : Fld := ⟨R.CVU_CTL n, 5, 5⟩
def F.CVU_CTL_REFLECT (n : Nat) : Fld := ⟨R.CVU_CTL n, 4, 4⟩
def F.CVU_CTL_POLY (n : Nat) : Fld := ⟨R.CVU_CTL n, 1, 0⟩

/-- R413. -/
def R.CVU_FEED_B (n : Nat) : Nat := 0x80004 + 0x40 * n
def F.CVU_FEED_B_DATA (n : Nat) : Fld := ⟨R.CVU_FEED_B n, 7, 0⟩

/-- R413. -/
def R.CVU_FEED_H (n : Nat) : Nat := 0x80008 + 0x40 * n
def F.CVU_FEED_H_DATA (n : Nat) : Fld := ⟨R.CVU_FEED_H n, 15, 0⟩

/-- R413. -/
def R.CVU_FEED_W (n : Nat) : Nat := 0x8000C + 0x40 * n
def F.CVU_FEED_W_DATA (n : Nat) : Fld := ⟨R.CVU_FEED_W n, 31, 0⟩

/-- R413. -/
def R.CVU_VALUE (n : Nat) : Nat := 0x80010 + 0x40 * n
def F.CVU_VALUE_VALUE (n : Nat) : Fld := ⟨R.CVU_VALUE n, 31, 0⟩

/-- R413. -/
def R.CVU_RESULT (n : Nat) : Nat := 0x80014 + 0x40 * n
def F.CVU_RESULT_RESULT (n : Nat) : Fld := ⟨R.CVU_RESULT n, 31, 0⟩

/-- R413. -/
def R.CVU_EXPECT (n : Nat) : Nat := 0x80018 + 0x40 * n
def F.CVU_EXPECT_EXPECT (n : Nat) : Fld := ⟨R.CVU_EXPECT n, 31, 0⟩

/-- R413. -/
def R.CVU_CMP (n : Nat) : Nat := 0x8001C + 0x40 * n
def F.CVU_CMP_GO (n : Nat) : Fld := ⟨R.CVU_CMP n, 0, 0⟩

/-- R413. -/
def R.CVU_STAT (n : Nat) : Nat := 0x80020 + 0x40 * n
def F.CVU_STAT_LEVEL (n : Nat) : Fld := ⟨R.CVU_STAT n, 11, 8⟩
def F.CVU_STAT_BUSY (n : Nat) : Fld := ⟨R.CVU_STAT n, 2, 2⟩
def F.CVU_STAT_MISMATCH (n : Nat) : Fld := ⟨R.CVU_STAT n, 1, 1⟩
def F.CVU_STAT_MATCH (n : Nat) : Fld := ⟨R.CVU_STAT n, 0, 0⟩

/-- R413. -/
def R.CVU_IRQ_EN (n : Nat) : Nat := 0x80024 + 0x40 * n
def F.CVU_IRQ_EN_EN (n : Nat) : Fld := ⟨R.CVU_IRQ_EN n, 0, 0⟩

/-- R413. -/
def R.CVU_LAST (n : Nat) : Nat := 0x80028 + 0x40 * n
def F.CVU_LAST_RESULT (n : Nat) : Fld := ⟨R.CVU_LAST n, 31, 0⟩

/-- R430. -/
def R.LOG_CTL : Nat := 0x60000
def F.LOG_CTL_ARM : Fld := ⟨R.LOG_CTL, 0, 0⟩

/-- R430. -/
def R.LOG_CFG : Nat := 0x60004
def F.LOG_CFG_KEEP : Fld := ⟨R.LOG_CFG, 4, 0⟩

/-- R430. -/
def R.LOG_STAT : Nat := 0x60008
def F.LOG_STAT_ARMING : Fld := ⟨R.LOG_STAT, 1, 1⟩
def F.LOG_STAT_KEEP_FULL : Fld := ⟨R.LOG_STAT, 0, 0⟩

/-- R430. -/
def R.LOG_ERR : Nat := 0x6000C
def F.LOG_ERR_ERR : Fld := ⟨R.LOG_ERR, 3, 0⟩

/-- R430. -/
def R.LOG_IRQ_EN : Nat := 0x60010
def F.LOG_IRQ_EN_EN : Fld := ⟨R.LOG_IRQ_EN, 3, 0⟩

/-- R430. -/
def R.LOG_WCOUNT_LO : Nat := 0x60020
def F.LOG_WCOUNT_LO_COUNT : Fld := ⟨R.LOG_WCOUNT_LO, 31, 0⟩

/-- R430. -/
def R.LOG_WCOUNT_HI : Nat := 0x60024
def F.LOG_WCOUNT_HI_COUNT : Fld := ⟨R.LOG_WCOUNT_HI, 31, 0⟩

/-- R430. -/
def R.LOG_NEXT_SEQ_LO : Nat := 0x60028
def F.LOG_NEXT_SEQ_LO_SEQ : Fld := ⟨R.LOG_NEXT_SEQ_LO, 31, 0⟩

/-- R430. -/
def R.LOG_NEXT_SEQ_HI : Nat := 0x6002C
def F.LOG_NEXT_SEQ_HI_SEQ : Fld := ⟨R.LOG_NEXT_SEQ_HI, 31, 0⟩

/-- R430. -/
def R.LOG_TAIL : Nat := 0x60030
def F.LOG_TAIL_VALID : Fld := ⟨R.LOG_TAIL, 31, 31⟩
def F.LOG_TAIL_OFF : Fld := ⟨R.LOG_TAIL, 20, 4⟩

/-- R430. -/
def R.LOG_KEEP_END : Nat := 0x60034
def F.LOG_KEEP_END_OFF : Fld := ⟨R.LOG_KEEP_END, 20, 4⟩

/-- R430. -/
def R.LOG_OLD : Nat := 0x60038
def F.LOG_OLD_VALID : Fld := ⟨R.LOG_OLD, 31, 31⟩
def F.LOG_OLD_OFF : Fld := ⟨R.LOG_OLD, 20, 4⟩

/-- R430. -/
def R.LOG_OLD_SEQ_LO : Nat := 0x6003C
def F.LOG_OLD_SEQ_LO_SEQ : Fld := ⟨R.LOG_OLD_SEQ_LO, 31, 0⟩

/-- R430. -/
def R.LOG_OLD_SEQ_HI : Nat := 0x60040
def F.LOG_OLD_SEQ_HI_SEQ : Fld := ⟨R.LOG_OLD_SEQ_HI, 31, 0⟩

/-- R430. -/
def R.LOG_LOST : Nat := 0x60044
def F.LOG_LOST_COUNT : Fld := ⟨R.LOG_LOST, 31, 0⟩

/-- R430. -/
def R.LOG_SUBMIT : Nat := 0x60050
def F.LOG_SUBMIT_AREA : Fld := ⟨R.LOG_SUBMIT, 31, 31⟩
def F.LOG_SUBMIT_OFF : Fld := ⟨R.LOG_SUBMIT, 19, 0⟩

/-- R430. -/
def R.LOG_SPILL_CTL : Nat := 0x60060
def F.LOG_SPILL_CTL_EN : Fld := ⟨R.LOG_SPILL_CTL, 31, 31⟩
def F.LOG_SPILL_CTL_SIZE : Fld := ⟨R.LOG_SPILL_CTL, 10, 0⟩

/-- R430. -/
def R.LOG_SPILL_LO : Nat := 0x60064
def F.LOG_SPILL_LO_ADDR : Fld := ⟨R.LOG_SPILL_LO, 31, 16⟩

/-- R430. -/
def R.LOG_SPILL_HI : Nat := 0x60068
def F.LOG_SPILL_HI_ADDR : Fld := ⟨R.LOG_SPILL_HI, 15, 0⟩

/-- R430. -/
def R.LOG_SPILL_WR : Nat := 0x6006C
def F.LOG_SPILL_WR_OFF : Fld := ⟨R.LOG_SPILL_WR, 29, 4⟩

/-- R430. -/
def R.LOG_SPILL_SEQ_LO : Nat := 0x60070
def F.LOG_SPILL_SEQ_LO_SEQ : Fld := ⟨R.LOG_SPILL_SEQ_LO, 31, 0⟩

/-- R430. -/
def R.LOG_SPILL_SEQ_HI : Nat := 0x60074
def F.LOG_SPILL_SEQ_HI_SEQ : Fld := ⟨R.LOG_SPILL_SEQ_HI, 31, 0⟩

/-- R430. -/
def R.LOG_SPILL_MISS : Nat := 0x60078
def F.LOG_SPILL_MISS_COUNT : Fld := ⟨R.LOG_SPILL_MISS, 31, 0⟩

/-- R436. -/
def R.TELE_CTL : Nat := 0x70000
def F.TELE_CTL_USER : Fld := ⟨R.TELE_CTL, 0, 0⟩

/-- R436. -/
def R.TELE_ERR : Nat := 0x70004
def F.TELE_ERR_ERR : Fld := ⟨R.TELE_ERR, 2, 0⟩

/-- R436. -/
def R.TELE_IRQ_EN : Nat := 0x70008
def F.TELE_IRQ_EN_EN : Fld := ⟨R.TELE_IRQ_EN, 2, 0⟩

/-- R436. -/
def R.TELE_DUMP_CTL : Nat := 0x70010
def F.TELE_DUMP_CTL_EN : Fld := ⟨R.TELE_DUMP_CTL, 31, 31⟩
def F.TELE_DUMP_CTL_CLEAR_HIST : Fld := ⟨R.TELE_DUMP_CTL, 30, 30⟩
def F.TELE_DUMP_CTL_TICK : Fld := ⟨R.TELE_DUMP_CTL, 16, 16⟩
def F.TELE_DUMP_CTL_PERIOD : Fld := ⟨R.TELE_DUMP_CTL, 15, 0⟩

/-- R436. -/
def R.TELE_DUMP_LO : Nat := 0x70014
def F.TELE_DUMP_LO_ADDR : Fld := ⟨R.TELE_DUMP_LO, 31, 12⟩

/-- R436. -/
def R.TELE_DUMP_HI : Nat := 0x70018
def F.TELE_DUMP_HI_ADDR : Fld := ⟨R.TELE_DUMP_HI, 15, 0⟩

/-- R436. -/
def R.TELE_DUMP_SLOTS : Nat := 0x7001C
def F.TELE_DUMP_SLOTS_SLOTS : Fld := ⟨R.TELE_DUMP_SLOTS, 15, 0⟩

/-- R436. -/
def R.TELE_DUMP_SEQ_LO : Nat := 0x70020
def F.TELE_DUMP_SEQ_LO_DSEQ : Fld := ⟨R.TELE_DUMP_SEQ_LO, 31, 0⟩

/-- R436. -/
def R.TELE_DUMP_SEQ_HI : Nat := 0x70024
def F.TELE_DUMP_SEQ_HI_DSEQ : Fld := ⟨R.TELE_DUMP_SEQ_HI, 31, 0⟩

/-- R436. -/
def R.TELE_DUMP_SKIP : Nat := 0x70028
def F.TELE_DUMP_SKIP_COUNT : Fld := ⟨R.TELE_DUMP_SKIP, 31, 0⟩

/-- R436. -/
def R.TELE_SEL (i : Nat) : Nat := 0x71000 + 4 * i
def F.TELE_SEL_EVENT (i : Nat) : Fld := ⟨R.TELE_SEL i, 23, 16⟩
def F.TELE_SEL_QUAL (i : Nat) : Fld := ⟨R.TELE_SEL i, 15, 0⟩

/-- R436. -/
def R.TELE_CNT_LO (i : Nat) : Nat := 0x72000 + 8 * i
def F.TELE_CNT_LO_VALUE (i : Nat) : Fld := ⟨R.TELE_CNT_LO i, 31, 0⟩

/-- R436. -/
def R.TELE_CNT_HI (i : Nat) : Nat := 0x72004 + 8 * i
def F.TELE_CNT_HI_OVF (i : Nat) : Fld := ⟨R.TELE_CNT_HI i, 31, 31⟩
def F.TELE_CNT_HI_VALUE (i : Nat) : Fld := ⟨R.TELE_CNT_HI i, 15, 0⟩

/-- R436. -/
def R.TELE_HSEL (k : Nat) : Nat := 0x73000 + 4 * k
def F.TELE_HSEL_SHIFT (k : Nat) : Fld := ⟨R.TELE_HSEL k, 27, 24⟩
def F.TELE_HSEL_SOURCE (k : Nat) : Fld := ⟨R.TELE_HSEL k, 23, 16⟩
def F.TELE_HSEL_QUAL (k : Nat) : Fld := ⟨R.TELE_HSEL k, 15, 0⟩

/-- R436. -/
def R.TELE_HMAX (k : Nat) : Nat := 0x73040 + 4 * k
def F.TELE_HMAX_MAX (k : Nat) : Fld := ⟨R.TELE_HMAX k, 31, 0⟩

/-- R436. -/
def R.TELE_HBIN (k b : Nat) : Nat := 0x74000 + 0x80 * k + 4 * b
def F.TELE_HBIN_COUNT (k b : Nat) : Fld := ⟨R.TELE_HBIN k b, 31, 0⟩

/-- R472. -/
def R.STEP_CTL : Nat := 0x980000
def F.STEP_CTL_FULL_REQ : Fld := ⟨R.STEP_CTL, 3, 3⟩
def F.STEP_CTL_LEAVE : Fld := ⟨R.STEP_CTL, 2, 2⟩
def F.STEP_CTL_READY : Fld := ⟨R.STEP_CTL, 1, 1⟩

/-- R472. -/
def R.STEP_STATUS : Nat := 0x980004
def F.STEP_STATUS_SWAP_DUE : Fld := ⟨R.STEP_STATUS, 21, 21⟩
def F.STEP_STATUS_READY_PENDING : Fld := ⟨R.STEP_STATUS, 20, 20⟩
def F.STEP_STATUS_JOIN_PENDING : Fld := ⟨R.STEP_STATUS, 19, 19⟩
def F.STEP_STATUS_TOUCH_OWNER : Fld := ⟨R.STEP_STATUS, 18, 18⟩
def F.STEP_STATUS_Q23_UP : Fld := ⟨R.STEP_STATUS, 17, 17⟩
def F.STEP_STATUS_Q22_UP : Fld := ⟨R.STEP_STATUS, 16, 16⟩
def F.STEP_STATUS_PARTNER_HEALTH : Fld := ⟨R.STEP_STATUS, 15, 14⟩
def F.STEP_STATUS_PARTNER_ROLE : Fld := ⟨R.STEP_STATUS, 13, 11⟩
def F.STEP_STATUS_PARTNER_SEEN : Fld := ⟨R.STEP_STATUS, 10, 10⟩
def F.STEP_STATUS_AGREED : Fld := ⟨R.STEP_STATUS, 9, 9⟩
def F.STEP_STATUS_IN_STEP : Fld := ⟨R.STEP_STATUS, 8, 8⟩
def F.STEP_STATUS_HEALTH : Fld := ⟨R.STEP_STATUS, 7, 6⟩
def F.STEP_STATUS_PINS : Fld := ⟨R.STEP_STATUS, 5, 4⟩
def F.STEP_STATUS_ROLE : Fld := ⟨R.STEP_STATUS, 2, 0⟩

/-- R472. -/
def R.STEP_ERR : Nat := 0x980008
def F.STEP_ERR_ERR : Fld := ⟨R.STEP_ERR, 10, 0⟩

/-- R472. -/
def R.STEP_IRQ_EN : Nat := 0x98000C
def F.STEP_IRQ_EN_EN : Fld := ⟨R.STEP_IRQ_EN, 10, 0⟩

/-- R472. -/
def R.STEP_HEALTH : Nat := 0x980010
def F.STEP_HEALTH_FAIL_FLOOR : Fld := ⟨R.STEP_HEALTH, 9, 9⟩
def F.STEP_HEALTH_DEG_FLOOR : Fld := ⟨R.STEP_HEALTH, 8, 8⟩
def F.STEP_HEALTH_LEVEL : Fld := ⟨R.STEP_HEALTH, 1, 0⟩

/-- R472. -/
def R.STEP_REASON : Nat := 0x980014
def F.STEP_REASON_REASON : Fld := ⟨R.STEP_REASON, 31, 0⟩

/-- R472. -/
def R.STEP_HB : Nat := 0x980018
def F.STEP_HB_KICK : Fld := ⟨R.STEP_HB, 0, 0⟩

/-- R472. -/
def R.STEP_DIG_LOCAL : Nat := 0x98001C
def F.STEP_DIG_LOCAL_DIGEST : Fld := ⟨R.STEP_DIG_LOCAL, 31, 0⟩

/-- R472. -/
def R.STEP_DIG_PARTNER : Nat := 0x980020
def F.STEP_DIG_PARTNER_DIGEST : Fld := ⟨R.STEP_DIG_PARTNER, 31, 0⟩

/-- R472. -/
def R.STEP_DIG_TICK_LO : Nat := 0x980024
def F.STEP_DIG_TICK_LO_TICK : Fld := ⟨R.STEP_DIG_TICK_LO, 31, 0⟩

/-- R472. -/
def R.STEP_DIG_TICK_HI : Nat := 0x980028
def F.STEP_DIG_TICK_HI_TICK : Fld := ⟨R.STEP_DIG_TICK_HI, 31, 0⟩

/-- R472. -/
def R.STEP_CNT_MISMATCH : Nat := 0x98002C
def F.STEP_CNT_MISMATCH_COUNT : Fld := ⟨R.STEP_CNT_MISMATCH, 31, 0⟩

/-- R472. -/
def R.STEP_CNT_AGREE_MISS : Nat := 0x980030
def F.STEP_CNT_AGREE_MISS_COUNT : Fld := ⟨R.STEP_CNT_AGREE_MISS, 31, 0⟩

/-- R472. -/
def R.STEP_CFG : Nat := 0x980040
def F.STEP_CFG_FULL_PERIOD : Fld := ⟨R.STEP_CFG, 31, 16⟩
def F.STEP_CFG_READY_TICKS : Fld := ⟨R.STEP_CFG, 7, 0⟩

/-- R472. -/
def R.STEP_SWAP_LO : Nat := 0x980044
def F.STEP_SWAP_LO_TICK : Fld := ⟨R.STEP_SWAP_LO, 31, 0⟩

/-- R472. -/
def R.STEP_SWAP_HI : Nat := 0x980048
def F.STEP_SWAP_HI_TICK : Fld := ⟨R.STEP_SWAP_HI, 31, 0⟩

/-- R472. -/
def R.STEP_STATE_LOCAL : Nat := 0x980090
def F.STEP_STATE_LOCAL_CRC : Fld := ⟨R.STEP_STATE_LOCAL, 31, 0⟩

/-- R472. -/
def R.STEP_STATE_PARTNER : Nat := 0x980094
def F.STEP_STATE_PARTNER_CRC : Fld := ⟨R.STEP_STATE_PARTNER, 31, 0⟩

/-- R473. -/
def R.STEP_SNAP_CTL : Nat := 0x980050
def F.STEP_SNAP_CTL_GO : Fld := ⟨R.STEP_SNAP_CTL, 31, 31⟩
def F.STEP_SNAP_CTL_COUNT : Fld := ⟨R.STEP_SNAP_CTL, 7, 0⟩

/-- R473. -/
def R.STEP_SNAP_LIST_LO : Nat := 0x980054
def F.STEP_SNAP_LIST_LO_ADDR : Fld := ⟨R.STEP_SNAP_LIST_LO, 31, 4⟩

/-- R473. -/
def R.STEP_SNAP_LIST_HI : Nat := 0x980058
def F.STEP_SNAP_LIST_HI_ADDR : Fld := ⟨R.STEP_SNAP_LIST_HI, 15, 0⟩

/-- R473. -/
def R.STEP_SNAP_TICK_LO : Nat := 0x98005C
def F.STEP_SNAP_TICK_LO_TICK : Fld := ⟨R.STEP_SNAP_TICK_LO, 31, 0⟩

/-- R473. -/
def R.STEP_SNAP_TICK_HI : Nat := 0x980060
def F.STEP_SNAP_TICK_HI_TICK : Fld := ⟨R.STEP_SNAP_TICK_HI, 31, 0⟩

/-- R473. -/
def R.STEP_SNAP_STAT : Nat := 0x980064
def F.STEP_SNAP_STAT_BUSY : Fld := ⟨R.STEP_SNAP_STAT, 31, 31⟩
def F.STEP_SNAP_STAT_REFUSED : Fld := ⟨R.STEP_SNAP_STAT, 3, 3⟩
def F.STEP_SNAP_STAT_RECEIVED : Fld := ⟨R.STEP_SNAP_STAT, 2, 2⟩
def F.STEP_SNAP_STAT_FAIL : Fld := ⟨R.STEP_SNAP_STAT, 1, 1⟩
def F.STEP_SNAP_STAT_DONE : Fld := ⟨R.STEP_SNAP_STAT, 0, 0⟩

/-- R473. -/
def R.STEP_SNAP_RTICK_LO : Nat := 0x980068
def F.STEP_SNAP_RTICK_LO_TICK : Fld := ⟨R.STEP_SNAP_RTICK_LO, 31, 0⟩

/-- R473. -/
def R.STEP_SNAP_RTICK_HI : Nat := 0x98006C
def F.STEP_SNAP_RTICK_HI_TICK : Fld := ⟨R.STEP_SNAP_RTICK_HI, 31, 0⟩

/-- R473. -/
def R.STEP_JOIN (k : Nat) : Nat := 0x980080 + 4 * k
def F.STEP_JOIN_ARM (k : Nat) : Fld := ⟨R.STEP_JOIN k, 31, 0⟩

/-- R486. -/
def R.TOUCH_CTL : Nat := 0xA00000
def F.TOUCH_CTL_DELTAS : Fld := ⟨R.TOUCH_CTL, 8, 8⟩
def F.TOUCH_CTL_TEST : Fld := ⟨R.TOUCH_CTL, 4, 4⟩
def F.TOUCH_CTL_INIT : Fld := ⟨R.TOUCH_CTL, 1, 1⟩
def F.TOUCH_CTL_EN : Fld := ⟨R.TOUCH_CTL, 0, 0⟩

/-- R486. -/
def R.TOUCH_CFG : Nat := 0xA00004
def F.TOUCH_CFG_RES : Fld := ⟨R.TOUCH_CFG, 30, 28⟩
def F.TOUCH_CFG_RANGE : Fld := ⟨R.TOUCH_CFG, 26, 24⟩
def F.TOUCH_CFG_NY : Fld := ⟨R.TOUCH_CFG, 20, 16⟩
def F.TOUCH_CFG_NX : Fld := ⟨R.TOUCH_CFG, 12, 8⟩
def F.TOUCH_CFG_MODE : Fld := ⟨R.TOUCH_CFG, 0, 0⟩

/-- R486. -/
def R.TOUCH_PIN_EN_LO : Nat := 0xA00008
def F.TOUCH_PIN_EN_LO_EN : Fld := ⟨R.TOUCH_PIN_EN_LO, 31, 0⟩

/-- R486. -/
def R.TOUCH_PIN_EN_HI : Nat := 0xA0000C
def F.TOUCH_PIN_EN_HI_EN : Fld := ⟨R.TOUCH_PIN_EN_HI, 15, 0⟩

/-- R486. -/
def R.TOUCH_DET : Nat := 0xA00010
def F.TOUCH_DET_TH : Fld := ⟨R.TOUCH_DET, 15, 0⟩

/-- R486. -/
def R.TOUCH_DET2 : Nat := 0xA00014
def F.TOUCH_DET2_DEBOUNCE : Fld := ⟨R.TOUCH_DET2, 19, 16⟩
def F.TOUCH_DET2_REL_TH : Fld := ⟨R.TOUCH_DET2, 15, 0⟩

/-- R486. -/
def R.TOUCH_BASECFG : Nat := 0xA00018
def F.TOUCH_BASECFG_DRIFT : Fld := ⟨R.TOUCH_BASECFG, 31, 24⟩
def F.TOUCH_BASECFG_NEG_SCANS : Fld := ⟨R.TOUCH_BASECFG, 23, 16⟩
def F.TOUCH_BASECFG_NEG_TH : Fld := ⟨R.TOUCH_BASECFG, 15, 0⟩

/-- R486. -/
def R.TOUCH_STUCK : Nat := 0xA0001C
def F.TOUCH_STUCK_MAX_ON : Fld := ⟨R.TOUCH_STUCK, 7, 0⟩

/-- R486. -/
def R.TOUCH_RATE : Nat := 0xA00020
def F.TOUCH_RATE_RATE_C : Fld := ⟨R.TOUCH_RATE, 23, 16⟩
def F.TOUCH_RATE_RATE_B : Fld := ⟨R.TOUCH_RATE, 15, 8⟩
def F.TOUCH_RATE_RATE_A : Fld := ⟨R.TOUCH_RATE, 7, 0⟩

/-- R486. -/
def R.TOUCH_IDLE : Nat := 0xA00024
def F.TOUCH_IDLE_IDLE_C : Fld := ⟨R.TOUCH_IDLE, 31, 16⟩
def F.TOUCH_IDLE_IDLE_B : Fld := ⟨R.TOUCH_IDLE, 15, 0⟩

/-- R486. -/
def R.TOUCH_TESTCFG : Nat := 0xA00028
def F.TOUCH_TESTCFG_BRIDGE_TH : Fld := ⟨R.TOUCH_TESTCFG, 31, 16⟩
def F.TOUCH_TESTCFG_OPEN_TH : Fld := ⟨R.TOUCH_TESTCFG, 15, 0⟩

/-- R486. -/
def R.TOUCH_STATUS : Nat := 0xA00030
def F.TOUCH_STATUS_BASE_VALID : Fld := ⟨R.TOUCH_STATUS, 5, 5⟩
def F.TOUCH_STATUS_TEST_BUSY : Fld := ⟨R.TOUCH_STATUS, 4, 4⟩
def F.TOUCH_STATUS_STEP : Fld := ⟨R.TOUCH_STATUS, 3, 2⟩
def F.TOUCH_STATUS_OWNER : Fld := ⟨R.TOUCH_STATUS, 1, 1⟩
def F.TOUCH_STATUS_SCANNING : Fld := ⟨R.TOUCH_STATUS, 0, 0⟩

/-- R486. -/
def R.TOUCH_SCAN : Nat := 0xA00034
def F.TOUCH_SCAN_COUNT : Fld := ⟨R.TOUCH_SCAN, 31, 0⟩

/-- R486. -/
def R.TOUCH_ERR : Nat := 0xA00038
def F.TOUCH_ERR_ERR : Fld := ⟨R.TOUCH_ERR, 7, 0⟩

/-- R486. -/
def R.TOUCH_IRQ_EN : Nat := 0xA0003C
def F.TOUCH_IRQ_EN_EN : Fld := ⟨R.TOUCH_IRQ_EN, 7, 0⟩

/-- R487. -/
def R.TOUCH_OPEN_LO : Nat := 0xA00040
def F.TOUCH_OPEN_LO_PINS : Fld := ⟨R.TOUCH_OPEN_LO, 31, 0⟩

/-- R487. -/
def R.TOUCH_OPEN_HI : Nat := 0xA00044
def F.TOUCH_OPEN_HI_PINS : Fld := ⟨R.TOUCH_OPEN_HI, 15, 0⟩

/-- R487. -/
def R.TOUCH_SHORT_LO : Nat := 0xA00048
def F.TOUCH_SHORT_LO_PINS : Fld := ⟨R.TOUCH_SHORT_LO, 31, 0⟩

/-- R487. -/
def R.TOUCH_SHORT_HI : Nat := 0xA0004C
def F.TOUCH_SHORT_HI_PINS : Fld := ⟨R.TOUCH_SHORT_HI, 15, 0⟩

/-- R487. -/
def R.TOUCH_BRIDGE_LO : Nat := 0xA00050
def F.TOUCH_BRIDGE_LO_PAIRS : Fld := ⟨R.TOUCH_BRIDGE_LO, 31, 0⟩

/-- R487. -/
def R.TOUCH_BRIDGE_HI : Nat := 0xA00054
def F.TOUCH_BRIDGE_HI_PAIRS : Fld := ⟨R.TOUCH_BRIDGE_HI, 14, 0⟩

/-- R487. -/
def R.TOUCH_BASE (i : Nat) : Nat := 0xA01000 + 4 * i
def F.TOUCH_BASE_BASE (i : Nat) : Fld := ⟨R.TOUCH_BASE i, 15, 0⟩

/-- R487. -/
def R.TOUCH_NODE (i : Nat) : Nat := 0xA02000 + 4 * i
def F.TOUCH_NODE_FAULT (i : Nat) : Fld := ⟨R.TOUCH_NODE i, 18, 18⟩
def F.TOUCH_NODE_STUCK (i : Nat) : Fld := ⟨R.TOUCH_NODE i, 17, 17⟩
def F.TOUCH_NODE_TOUCHED (i : Nat) : Fld := ⟨R.TOUCH_NODE i, 16, 16⟩
def F.TOUCH_NODE_RAW16 (i : Nat) : Fld := ⟨R.TOUCH_NODE i, 15, 0⟩

/-- R524. -/
def R.PWR_STATE : Nat := 0x10000
def F.PWR_STATE_GO : Fld := ⟨R.PWR_STATE, 31, 31⟩
def F.PWR_STATE_TARGET : Fld := ⟨R.PWR_STATE, 1, 0⟩

/-- R524. -/
def R.PWR_DVFS : Nat := 0x10004
def F.PWR_DVFS_GO : Fld := ⟨R.PWR_DVFS, 31, 31⟩
def F.PWR_DVFS_SETTLE : Fld := ⟨R.PWR_DVFS, 23, 16⟩
def F.PWR_DVFS_CURRENT : Fld := ⟨R.PWR_DVFS, 9, 8⟩
def F.PWR_DVFS_TARGET : Fld := ⟨R.PWR_DVFS, 1, 0⟩

/-- R524. -/
def R.PWR_STATUS : Nat := 0x10008
def F.PWR_STATUS_DIP_ACTIVE : Fld := ⟨R.PWR_STATUS, 17, 17⟩
def F.PWR_STATUS_DVFS_BUSY : Fld := ⟨R.PWR_STATUS, 16, 16⟩
def F.PWR_STATUS_RAIL_LOW : Fld := ⟨R.PWR_STATUS, 6, 0⟩

/-- R524. -/
def R.PWR_ERR : Nat := 0x1000C
def F.PWR_ERR_ERR : Fld := ⟨R.PWR_ERR, 6, 0⟩

/-- R524. -/
def R.PWR_IRQ_EN : Nat := 0x10010
def F.PWR_IRQ_EN_EN : Fld := ⟨R.PWR_IRQ_EN, 6, 0⟩

/-- R524. -/
def R.PWR_DIP_DUR : Nat := 0x10014
def F.PWR_DIP_DUR_NS : Fld := ⟨R.PWR_DIP_DUR, 31, 0⟩

/-- R524. -/
def R.PWR_DIP_MIN : Nat := 0x10018
def F.PWR_DIP_MIN_MV : Fld := ⟨R.PWR_DIP_MIN, 15, 0⟩

/-- R524. -/
def R.PWR_DIP_CNT : Nat := 0x1001C
def F.PWR_DIP_CNT_COUNT : Fld := ⟨R.PWR_DIP_CNT, 31, 0⟩

/-- R524. -/
def R.PWR_VCORE : Nat := 0x10020
def F.PWR_VCORE_MV : Fld := ⟨R.PWR_VCORE, 15, 0⟩

/-- R524. -/
def R.PWR_TEMP (k : Nat) : Nat := 0x10040 + 4 * k
def F.PWR_TEMP_TEMP (k : Nat) : Fld := ⟨R.PWR_TEMP k, 15, 0⟩

/-- R524. -/
def R.PWR_TEMP_ALARM : Nat := 0x10060
def F.PWR_TEMP_ALARM_TEMP : Fld := ⟨R.PWR_TEMP_ALARM, 15, 0⟩

/-- R524. -/
def R.PWR_LOCK : Nat := 0x10064
def F.PWR_LOCK_LOCK : Fld := ⟨R.PWR_LOCK, 0, 0⟩

/-- R524. -/
def R.PWR_DDR_RESUME : Nat := 0x10090
def F.PWR_DDR_RESUME_DONE : Fld := ⟨R.PWR_DDR_RESUME, 1, 1⟩
def F.PWR_DDR_RESUME_GO : Fld := ⟨R.PWR_DDR_RESUME, 0, 0⟩

/-- R525. -/
def R.PWR_WAKE : Nat := 0x10080
def F.PWR_WAKE_CAUSE : Fld := ⟨R.PWR_WAKE, 10, 8⟩
def F.PWR_WAKE_EN : Fld := ⟨R.PWR_WAKE, 2, 0⟩

/-- R525. -/
def R.PWR_WAKE_TIMER : Nat := 0x10084
def F.PWR_WAKE_TIMER_SEC : Fld := ⟨R.PWR_WAKE_TIMER, 31, 0⟩

/-- R525. -/
def R.PWR_AON_STAT : Nat := 0x10088
def F.PWR_AON_STAT_TRIPPED : Fld := ⟨R.PWR_AON_STAT, 8, 8⟩
def F.PWR_AON_STAT_FAILS : Fld := ⟨R.PWR_AON_STAT, 7, 0⟩

/-- R525. -/
def R.PWR_AON_SCRATCH (k : Nat) : Nat := 0x100A0 + 4 * k
def F.PWR_AON_SCRATCH_DATA (k : Nat) : Fld := ⟨R.PWR_AON_SCRATCH k, 31, 0⟩

/-- R526. -/
def R.KEEP_RESET : Nat := 0x50000
def F.KEEP_RESET_KIND : Fld := ⟨R.KEEP_RESET, 31, 28⟩
def F.KEEP_RESET_INDEX : Fld := ⟨R.KEEP_RESET, 12, 8⟩
def F.KEEP_RESET_CODE : Fld := ⟨R.KEEP_RESET, 7, 0⟩

/-- R526. -/
def R.KEEP_CAUSE : Nat := 0x50004
def F.KEEP_CAUSE_CAUSE : Fld := ⟨R.KEEP_CAUSE, 31, 0⟩

/-- R526. -/
def R.KEEP_WDOG_CTL : Nat := 0x50010
def F.KEEP_WDOG_CTL_LOCK : Fld := ⟨R.KEEP_WDOG_CTL, 31, 31⟩
def F.KEEP_WDOG_CTL_TIMEOUT : Fld := ⟨R.KEEP_WDOG_CTL, 23, 0⟩

/-- R526. -/
def R.KEEP_WDOG_KICK : Nat := 0x50014
def F.KEEP_WDOG_KICK_KICK : Fld := ⟨R.KEEP_WDOG_KICK, 0, 0⟩

/-- R526. -/
def R.KEEP_WDOG_STAT : Nat := 0x50018
def F.KEEP_WDOG_STAT_REMAIN : Fld := ⟨R.KEEP_WDOG_STAT, 23, 0⟩

/-- R526. -/
def R.KEEP_APP_RELEASE : Nat := 0x50020
def F.KEEP_APP_RELEASE_CORES : Fld := ⟨R.KEEP_APP_RELEASE, 7, 0⟩

/-- R526. -/
def R.KEEP_APP_ENTRY_LO : Nat := 0x50024
def F.KEEP_APP_ENTRY_LO_ADDR : Fld := ⟨R.KEEP_APP_ENTRY_LO, 31, 2⟩

/-- R526. -/
def R.KEEP_APP_ENTRY_HI : Nat := 0x50028
def F.KEEP_APP_ENTRY_HI_ADDR : Fld := ⟨R.KEEP_APP_ENTRY_HI, 15, 0⟩

/-- R526. -/
def R.KEEP_BOOT : Nat := 0x50030
def F.KEEP_BOOT_HALT : Fld := ⟨R.KEEP_BOOT, 8, 8⟩
def F.KEEP_BOOT_FALLBACK : Fld := ⟨R.KEEP_BOOT, 4, 4⟩
def F.KEEP_BOOT_SLOT : Fld := ⟨R.KEEP_BOOT, 0, 0⟩

/-- R526. -/
def R.KEEP_BOOT_VER : Nat := 0x50034
def F.KEEP_BOOT_VER_VERSION : Fld := ⟨R.KEEP_BOOT_VER, 31, 0⟩

/-- R526. -/
def R.KEEP_FUSE_HASH (w : Nat) : Nat := 0x50040 + 4 * w
def F.KEEP_FUSE_HASH_HASH (w : Nat) : Fld := ⟨R.KEEP_FUSE_HASH w, 31, 0⟩

/-- R526. -/
def R.KEEP_FUSE_MINVER : Nat := 0x50060
def F.KEEP_FUSE_MINVER_MINVER : Fld := ⟨R.KEEP_FUSE_MINVER, 5, 0⟩

/-- R526. -/
def R.KEEP_FUSE_BURN : Nat := 0x50064
def F.KEEP_FUSE_BURN_BURN : Fld := ⟨R.KEEP_FUSE_BURN, 0, 0⟩

/-- R526. -/
def R.KEEP_ERR : Nat := 0x50068
def F.KEEP_ERR_ERR : Fld := ⟨R.KEEP_ERR, 1, 0⟩

/-- R527. -/
def R.MGMT_XSPI_CFG : Nat := 0xB00000
def F.MGMT_XSPI_CFG_SIZE : Fld := ⟨R.MGMT_XSPI_CFG, 19, 16⟩
def F.MGMT_XSPI_CFG_FREQ : Fld := ⟨R.MGMT_XSPI_CFG, 9, 8⟩
def F.MGMT_XSPI_CFG_DUMMY : Fld := ⟨R.MGMT_XSPI_CFG, 4, 0⟩

/-- R527. -/
def R.MGMT_XSPI_PROT : Nat := 0xB00004
def F.MGMT_XSPI_PROT_LOCK : Fld := ⟨R.MGMT_XSPI_PROT, 31, 31⟩
def F.MGMT_XSPI_PROT_TOP : Fld := ⟨R.MGMT_XSPI_PROT, 15, 0⟩

/-- R527. -/
def R.MGMT_XSPI_OPC : Nat := 0xB00008
def F.MGMT_XSPI_OPC_PROG : Fld := ⟨R.MGMT_XSPI_OPC, 31, 24⟩
def F.MGMT_XSPI_OPC_ERASE_4K : Fld := ⟨R.MGMT_XSPI_OPC, 23, 16⟩
def F.MGMT_XSPI_OPC_ERASE_64K : Fld := ⟨R.MGMT_XSPI_OPC, 15, 8⟩
def F.MGMT_XSPI_OPC_RDSR : Fld := ⟨R.MGMT_XSPI_OPC, 7, 0⟩

/-- R527. -/
def R.MGMT_XSPI_ADDR : Nat := 0xB0000C
def F.MGMT_XSPI_ADDR_OFF : Fld := ⟨R.MGMT_XSPI_ADDR, 31, 0⟩

/-- R527. -/
def R.MGMT_XSPI_CMD : Nat := 0xB00010
def F.MGMT_XSPI_CMD_GO : Fld := ⟨R.MGMT_XSPI_CMD, 31, 31⟩
def F.MGMT_XSPI_CMD_OP : Fld := ⟨R.MGMT_XSPI_CMD, 17, 16⟩
def F.MGMT_XSPI_CMD_LEN : Fld := ⟨R.MGMT_XSPI_CMD, 8, 0⟩

/-- R527. -/
def R.MGMT_XSPI_STAT : Nat := 0xB00014
def F.MGMT_XSPI_STAT_BUSY : Fld := ⟨R.MGMT_XSPI_STAT, 31, 31⟩
def F.MGMT_XSPI_STAT_ERR : Fld := ⟨R.MGMT_XSPI_STAT, 2, 2⟩
def F.MGMT_XSPI_STAT_REFUSED : Fld := ⟨R.MGMT_XSPI_STAT, 1, 1⟩
def F.MGMT_XSPI_STAT_DONE : Fld := ⟨R.MGMT_XSPI_STAT, 0, 0⟩

/-- R527. -/
def R.MGMT_XSPI_BUF (w : Nat) : Nat := 0xB00100 + 4 * w
def F.MGMT_XSPI_BUF_DATA (w : Nat) : Fld := ⟨R.MGMT_XSPI_BUF w, 31, 0⟩

/-- R548. -/
def R.MGMT_GPIO_OUT : Nat := 0xB01000
def F.MGMT_GPIO_OUT_OUT : Fld := ⟨R.MGMT_GPIO_OUT, 31, 0⟩

/-- R548. -/
def R.MGMT_GPIO_OE : Nat := 0xB01004
def F.MGMT_GPIO_OE_OE : Fld := ⟨R.MGMT_GPIO_OE, 31, 0⟩

/-- R548. -/
def R.MGMT_GPIO_IN : Nat := 0xB01008
def F.MGMT_GPIO_IN_IN : Fld := ⟨R.MGMT_GPIO_IN, 31, 0⟩

/-- R548. -/
def R.MGMT_GPIO_IRQ_CFG_LO : Nat := 0xB01010
def F.MGMT_GPIO_IRQ_CFG_LO_MODE : Fld := ⟨R.MGMT_GPIO_IRQ_CFG_LO, 31, 0⟩

/-- R548. -/
def R.MGMT_GPIO_IRQ_CFG_HI : Nat := 0xB01014
def F.MGMT_GPIO_IRQ_CFG_HI_MODE : Fld := ⟨R.MGMT_GPIO_IRQ_CFG_HI, 31, 0⟩

/-- R548. -/
def R.MGMT_GPIO_IRQ_STAT : Nat := 0xB01018
def F.MGMT_GPIO_IRQ_STAT_EDGE : Fld := ⟨R.MGMT_GPIO_IRQ_STAT, 31, 0⟩

/-- R548. -/
def R.MGMT_I2C_CTL (k : Nat) : Nat := 0xB02000 + 0x40 * k
def F.MGMT_I2C_CTL_GO (k : Nat) : Fld := ⟨R.MGMT_I2C_CTL k, 31, 31⟩
def F.MGMT_I2C_CTL_SPEED (k : Nat) : Fld := ⟨R.MGMT_I2C_CTL k, 25, 24⟩
def F.MGMT_I2C_CTL_ADDR (k : Nat) : Fld := ⟨R.MGMT_I2C_CTL k, 22, 16⟩
def F.MGMT_I2C_CTL_WLEN (k : Nat) : Fld := ⟨R.MGMT_I2C_CTL k, 11, 8⟩
def F.MGMT_I2C_CTL_RLEN (k : Nat) : Fld := ⟨R.MGMT_I2C_CTL k, 3, 0⟩

/-- R548. -/
def R.MGMT_I2C_WDATA_LO (k : Nat) : Nat := 0xB02004 + 0x40 * k
def F.MGMT_I2C_WDATA_LO_DATA (k : Nat) : Fld := ⟨R.MGMT_I2C_WDATA_LO k, 31, 0⟩

/-- R548. -/
def R.MGMT_I2C_WDATA_HI (k : Nat) : Nat := 0xB02008 + 0x40 * k
def F.MGMT_I2C_WDATA_HI_DATA (k : Nat) : Fld := ⟨R.MGMT_I2C_WDATA_HI k, 31, 0⟩

/-- R548. -/
def R.MGMT_I2C_RDATA_LO (k : Nat) : Nat := 0xB0200C + 0x40 * k
def F.MGMT_I2C_RDATA_LO_DATA (k : Nat) : Fld := ⟨R.MGMT_I2C_RDATA_LO k, 31, 0⟩

/-- R548. -/
def R.MGMT_I2C_RDATA_HI (k : Nat) : Nat := 0xB02010 + 0x40 * k
def F.MGMT_I2C_RDATA_HI_DATA (k : Nat) : Fld := ⟨R.MGMT_I2C_RDATA_HI k, 31, 0⟩

/-- R548. -/
def R.MGMT_I2C_STAT (k : Nat) : Nat := 0xB02014 + 0x40 * k
def F.MGMT_I2C_STAT_BUSY (k : Nat) : Fld := ⟨R.MGMT_I2C_STAT k, 31, 31⟩
def F.MGMT_I2C_STAT_END (k : Nat) : Fld := ⟨R.MGMT_I2C_STAT k, 3, 0⟩

/-- R548. -/
def R.MGMT_UART_CFG (u : Nat) : Nat := 0xB03000 + 0x40 * u
def F.MGMT_UART_CFG_EN (u : Nat) : Fld := ⟨R.MGMT_UART_CFG u, 31, 31⟩
def F.MGMT_UART_CFG_PARITY (u : Nat) : Fld := ⟨R.MGMT_UART_CFG u, 17, 16⟩
def F.MGMT_UART_CFG_DIV (u : Nat) : Fld := ⟨R.MGMT_UART_CFG u, 15, 0⟩

/-- R548. -/
def R.MGMT_UART_TX (u : Nat) : Nat := 0xB03004 + 0x40 * u
def F.MGMT_UART_TX_DATA (u : Nat) : Fld := ⟨R.MGMT_UART_TX u, 7, 0⟩

/-- R548. -/
def R.MGMT_UART_RX (u : Nat) : Nat := 0xB03008 + 0x40 * u
def F.MGMT_UART_RX_VALID (u : Nat) : Fld := ⟨R.MGMT_UART_RX u, 8, 8⟩
def F.MGMT_UART_RX_DATA (u : Nat) : Fld := ⟨R.MGMT_UART_RX u, 7, 0⟩

/-- R548. -/
def R.MGMT_UART_STAT (u : Nat) : Nat := 0xB0300C + 0x40 * u
def F.MGMT_UART_STAT_TXLEVEL (u : Nat) : Fld := ⟨R.MGMT_UART_STAT u, 22, 16⟩
def F.MGMT_UART_STAT_RXLEVEL (u : Nat) : Fld := ⟨R.MGMT_UART_STAT u, 14, 8⟩
def F.MGMT_UART_STAT_ERR (u : Nat) : Fld := ⟨R.MGMT_UART_STAT u, 4, 1⟩
def F.MGMT_UART_STAT_RXREADY (u : Nat) : Fld := ⟨R.MGMT_UART_STAT u, 0, 0⟩

/-- R33. -/
def R.TIME_SET_0 : Nat := 0x20014
def F.TIME_SET_0_VAL : Fld := ⟨R.TIME_SET_0, 31, 0⟩

/-- R33. -/
def R.TIME_SET_1 : Nat := 0x20018
def F.TIME_SET_1_VAL : Fld := ⟨R.TIME_SET_1, 31, 0⟩

/-- R33. -/
def R.TIME_SET_2 : Nat := 0x2001C
def F.TIME_SET_2_VAL : Fld := ⟨R.TIME_SET_2, 31, 0⟩

/-- R33. -/
def R.TIME_NOW_0 : Nat := 0x20024
def F.TIME_NOW_0_VAL : Fld := ⟨R.TIME_NOW_0, 31, 0⟩

/-- R33. -/
def R.TIME_NOW_1 : Nat := 0x20028
def F.TIME_NOW_1_VAL : Fld := ⟨R.TIME_NOW_1, 31, 0⟩

/-- R33. -/
def R.TIME_NOW_2 : Nat := 0x2002C
def F.TIME_NOW_2_VAL : Fld := ⟨R.TIME_NOW_2, 31, 0⟩

/-- R33. -/
def R.TIME_PPS_0 : Nat := 0x20030
def F.TIME_PPS_0_VAL : Fld := ⟨R.TIME_PPS_0, 31, 0⟩

/-- R33. -/
def R.TIME_PPS_1 : Nat := 0x20034
def F.TIME_PPS_1_VAL : Fld := ⟨R.TIME_PPS_1, 31, 0⟩

/-- R33. -/
def R.TIME_PPS_2 : Nat := 0x20038
def F.TIME_PPS_2_VAL : Fld := ⟨R.TIME_PPS_2, 31, 0⟩

/-- R33. -/
def R.TIME_TS_EV_0 : Nat := 0x2004C
def F.TIME_TS_EV_0_VAL : Fld := ⟨R.TIME_TS_EV_0, 31, 0⟩

/-- R33. -/
def R.TIME_TS_EV_1 : Nat := 0x20050
def F.TIME_TS_EV_1_VAL : Fld := ⟨R.TIME_TS_EV_1, 31, 0⟩

/-- R33. -/
def R.TIME_TS_EV_2 : Nat := 0x20054
def F.TIME_TS_EV_2_VAL : Fld := ⟨R.TIME_TS_EV_2, 31, 0⟩

/-- R33. -/
def R.TIME_TS_ORG_0 : Nat := 0x20058
def F.TIME_TS_ORG_0_VAL : Fld := ⟨R.TIME_TS_ORG_0, 31, 0⟩

/-- R33. -/
def R.TIME_TS_ORG_1 : Nat := 0x2005C
def F.TIME_TS_ORG_1_VAL : Fld := ⟨R.TIME_TS_ORG_1, 31, 0⟩

/-- R33. -/
def R.TIME_TS_ORG_2 : Nat := 0x20060
def F.TIME_TS_ORG_2_VAL : Fld := ⟨R.TIME_TS_ORG_2, 31, 0⟩

/-- R39. -/
def R.TICK_EPOCH_0 : Nat := 0x3000C
def F.TICK_EPOCH_0_VAL : Fld := ⟨R.TICK_EPOCH_0, 31, 0⟩

/-- R39. -/
def R.TICK_EPOCH_1 : Nat := 0x30010
def F.TICK_EPOCH_1_VAL : Fld := ⟨R.TICK_EPOCH_1, 31, 0⟩

/-- R39. -/
def R.TICK_EPOCH_2 : Nat := 0x30014
def F.TICK_EPOCH_2_VAL : Fld := ⟨R.TICK_EPOCH_2, 31, 0⟩

/-- R39. -/
def R.TICK_NOMINAL_0 : Nat := 0x30020
def F.TICK_NOMINAL_0_VAL : Fld := ⟨R.TICK_NOMINAL_0, 31, 0⟩

/-- R39. -/
def R.TICK_NOMINAL_1 : Nat := 0x30024
def F.TICK_NOMINAL_1_VAL : Fld := ⟨R.TICK_NOMINAL_1, 31, 0⟩

/-- R39. -/
def R.TICK_NOMINAL_2 : Nat := 0x30028
def F.TICK_NOMINAL_2_VAL : Fld := ⟨R.TICK_NOMINAL_2, 31, 0⟩

/-- R91. -/
def R.ICTL_PEND (k : Nat) : Nat := 0x40100 + 4 * k
def F.ICTL_PEND_PEND (k : Nat) : Fld := ⟨R.ICTL_PEND k, 31, 0⟩

/-- R92. -/
def R.ICTL_SWI_SET : Nat := 0x40000
def F.ICTL_SWI_SET_LINE : Fld := ⟨R.ICTL_SWI_SET, 9, 0⟩

/-- R92. -/
def R.ICTL_HALT : Nat := 0x40010
def F.ICTL_HALT_WD : Fld := ⟨R.ICTL_HALT, 15, 8⟩
def F.ICTL_HALT_DF : Fld := ⟨R.ICTL_HALT, 7, 0⟩

/-- R164. -/
def R.BL_IRQ_EN (q : Nat) : Nat := 0x80000C + 0x10000 * q
def F.BL_IRQ_EN_CRC (q : Nat) : Fld := ⟨R.BL_IRQ_EN q, 0, 0⟩
def F.BL_IRQ_EN_SEQ (q : Nat) : Fld := ⟨R.BL_IRQ_EN q, 1, 1⟩
def F.BL_IRQ_EN_REPLAY (q : Nat) : Fld := ⟨R.BL_IRQ_EN q, 2, 2⟩
def F.BL_IRQ_EN_REPLAY_FAIL (q : Nat) : Fld := ⟨R.BL_IRQ_EN q, 3, 3⟩
def F.BL_IRQ_EN_PROTO (q : Nat) : Fld := ⟨R.BL_IRQ_EN q, 4, 4⟩
def F.BL_IRQ_EN_CREDIT (q : Nat) : Fld := ⟨R.BL_IRQ_EN q, 5, 5⟩
def F.BL_IRQ_EN_TRAIN_FAIL (q : Nat) : Fld := ⟨R.BL_IRQ_EN q, 6, 6⟩
def F.BL_IRQ_EN_ROLE_MISMATCH (q : Nat) : Fld := ⟨R.BL_IRQ_EN q, 7, 7⟩
def F.BL_IRQ_EN_DESKEW (q : Nat) : Fld := ⟨R.BL_IRQ_EN q, 8, 8⟩
def F.BL_IRQ_EN_LINE_DROP (q : Nat) : Fld := ⟨R.BL_IRQ_EN q, 9, 9⟩
def F.BL_IRQ_EN_TS_REPLAY (q : Nat) : Fld := ⟨R.BL_IRQ_EN q, 10, 10⟩
def F.BL_IRQ_EN_CFG (q : Nat) : Fld := ⟨R.BL_IRQ_EN q, 11, 11⟩
def F.BL_IRQ_EN_CREDIT_LOW (q : Nat) : Fld := ⟨R.BL_IRQ_EN q, 12, 12⟩

/-- R360. -/
def R.DDR_RDQ (n p i : Nat) : Nat := 0x100400 + 0x10000 * n + 0x200 * p + 4 * i
def F.DDR_RDQ_DLY (n p i : Nat) : Fld := ⟨R.DDR_RDQ n p i, 8, 0⟩

/-- R360. -/
def R.DDR_RDQS (n p b : Nat) : Nat := 0x1004A0 + 0x10000 * n + 0x200 * p + 4 * b
def F.DDR_RDQS_DLY (n p b : Nat) : Fld := ⟨R.DDR_RDQS n p b, 8, 0⟩

/-- R360. -/
def R.DDR_WDQ (n p i : Nat) : Nat := 0x100500 + 0x10000 * n + 0x200 * p + 4 * i
def F.DDR_WDQ_DLY (n p i : Nat) : Fld := ⟨R.DDR_WDQ n p i, 8, 0⟩

/-- R360. -/
def R.DDR_WCK (n p s : Nat) : Nat := 0x1005A0 + 0x10000 * n + 0x200 * p + 4 * s
def F.DDR_WCK_DLY (n p s : Nat) : Fld := ⟨R.DDR_WCK n p s, 8, 0⟩

/-- R360. -/
def R.DDR_CA (n p s j : Nat) : Nat := 0x1005C0 + 0x10000 * n + 0x200 * p + 0x20 * s + 4 * j
def F.DDR_CA_DLY (n p s j : Nat) : Fld := ⟨R.DDR_CA n p s j, 8, 0⟩

end Sys2Proof.Machine
end

