-- ==== Sys2Proof/Machine/RegTable.lean ====
section
/-!
DEFINITION. The register map: one row for each register (or register array) of the spec's register tables, with the
base offset from 0x50_0000_0000 (R18), the strides and counts of its indices, the reset kinds that restore it, and
its fields with their access types (R3) and reset values. A register that differs between instances has a row each.
-/
namespace Sys2Proof.Machine

/-- The registers of the SYS block. -/
def rowsSys : List RegRow := [
  ⟨0, [], .core, 0, [⟨31, 16, .ro, .open, 0x3296⟩, ⟨15, 8, .ro, .open, 0x56⟩, ⟨7, 4, .ro, .open, 1⟩, ⟨3, 0, .ro, .open, 0⟩]⟩  /- SYS_DEVICE_ID -/,
  ⟨4, [], .strap, 0, [⟨0, 0, .ro, .open, 0⟩]⟩  /- SYS_STRAP -/]

/-- The registers of the PWR block. -/
def rowsPwr : List RegRow := [
  ⟨0x10000, [], .core, 0, [⟨31, 31, .w1s, .keeper, 0⟩, ⟨1, 0, .rw, .keeper, 0⟩]⟩  /- PWR_STATE -/,
  ⟨0x10004, [], .core, 0, [⟨31, 31, .w1s, .keeper, 0⟩, ⟨23, 16, .rw, .keeper, 0x28⟩, ⟨9, 8, .ro, .open, 1⟩, ⟨1, 0, .rw, .keeper, 1⟩]⟩  /- PWR_DVFS -/,
  ⟨0x10008, [], .core, 0, [⟨17, 17, .ro, .open, 0⟩, ⟨16, 16, .ro, .open, 0⟩, ⟨6, 0, .ro, .open, 0⟩]⟩  /- PWR_STATUS -/,
  ⟨0x1000C, [], .core, 0, [⟨6, 0, .w1c, .open, 0⟩]⟩  /- PWR_ERR -/,
  ⟨0x10010, [], .core, 0, [⟨6, 0, .rw, .keeper, 0⟩]⟩  /- PWR_IRQ_EN -/,
  ⟨0x10014, [], .core, 0, [⟨31, 0, .ro, .open, 0⟩]⟩  /- PWR_DIP_DUR -/,
  ⟨0x10018, [], .core, 0, [⟨15, 0, .ro, .open, 0⟩]⟩  /- PWR_DIP_MIN -/,
  ⟨0x1001C, [], .core, 0, [⟨31, 0, .ro, .open, 0⟩]⟩  /- PWR_DIP_CNT -/,
  ⟨0x10020, [], .core, 0, [⟨15, 0, .ro, .open, 0⟩]⟩  /- PWR_VCORE -/,
  ⟨0x10040, [(4, 8)], .core, 0, [⟨15, 0, .ro, .open, 0⟩]⟩  /- PWR_TEMP -/,
  ⟨0x10060, [], .core, 0, [⟨15, 0, .rw, .lock, 0x190⟩]⟩  /- PWR_TEMP_ALARM -/,
  ⟨0x10064, [], .core, 0, [⟨0, 0, .rw, .keeper, 0⟩]⟩  /- PWR_LOCK -/,
  ⟨0x10090, [], .core, 0, [⟨1, 1, .w1c, .open, 0⟩, ⟨0, 0, .w1s, .keeper, 0⟩]⟩  /- PWR_DDR_RESUME -/,
  ⟨0x10080, [], .aon, 0, [⟨10, 8, .ro, .open, 0⟩, ⟨2, 0, .rw, .keeper, 1⟩]⟩  /- PWR_WAKE -/,
  ⟨0x10084, [], .aon, 0, [⟨31, 0, .rw, .keeper, 0⟩]⟩  /- PWR_WAKE_TIMER -/,
  ⟨0x10088, [], .aon, 0, [⟨8, 8, .ro, .open, 0⟩, ⟨7, 0, .ro, .open, 0⟩]⟩  /- PWR_AON_STAT -/,
  ⟨0x100A0, [(4, 8)], .aon, 0, [⟨31, 0, .rw, .keeper, 0⟩]⟩  /- PWR_AON_SCRATCH -/]

/-- The registers of the TIME block. -/
def rowsTime : List RegRow := [
  ⟨0x20000, [], .core, 0, [⟨16, 16, .rw, .keeper, 0⟩, ⟨15, 0, .rw, .keeper, 0x7D0⟩]⟩  /- TIME_CTRL -/,
  ⟨0x20004, [], .core, 0, [⟨22, 16, .ro, .open, 0⟩, ⟨7, 7, .w1c, .open, 0⟩, ⟨6, 6, .w1c, .open, 0⟩, ⟨5, 5, .w1c, .open, 0⟩, ⟨4, 4, .w1c, .open, 0⟩, ⟨1, 0, .ro, .open, 0⟩]⟩  /- TIME_STATUS -/,
  ⟨0x20008, [], .core, 0, [⟨31, 0, .rw, .keeper, 0⟩]⟩  /- TIME_RATE -/,
  ⟨0x2000C, [], .core, 0, [⟨31, 0, .rw, .keeper, 0⟩]⟩  /- TIME_STEP_NS -/,
  ⟨0x20010, [], .core, 0, [⟨31, 31, .rw, .keeper, 0⟩, ⟨15, 0, .rw, .keeper, 0⟩]⟩  /- TIME_STEP_CTL -/,
  ⟨0x20020, [], .core, 0, [⟨0, 0, .rw, .keeper, 0⟩]⟩  /- TIME_LOAD -/,
  ⟨0x2003C, [], .core, 0, [⟨31, 16, .rw, .keeper, 0⟩, ⟨1, 1, .rw, .keeper, 0⟩, ⟨0, 0, .rw, .keeper, 0⟩]⟩  /- TIME_PPS_CTL -/,
  ⟨0x20040, [], .core, 0, [⟨15, 0, .rw, .keeper, 0⟩]⟩  /- TIME_LINK_LAT -/,
  ⟨0x20044, [], .core, 0, [⟨0, 0, .rw, .keeper, 0⟩]⟩  /- TIME_TS_POP -/,
  ⟨0x20048, [], .core, 0, [⟨31, 16, .ro, .open, 0⟩, ⟨15, 12, .ro, .open, 0⟩, ⟨8, 8, .ro, .open, 0⟩, ⟨0, 0, .ro, .open, 0⟩]⟩  /- TIME_TS_INFO -/,
  ⟨0x20014, [], .core, 0, [⟨31, 0, .rw, .keeper, 0⟩]⟩  /- TIME_SET_0 -/,
  ⟨0x20018, [], .core, 0, [⟨31, 0, .rw, .keeper, 0⟩]⟩  /- TIME_SET_1 -/,
  ⟨0x2001C, [], .core, 0, [⟨31, 0, .rw, .keeper, 0⟩]⟩  /- TIME_SET_2 -/,
  ⟨0x20024, [], .core, 0, [⟨31, 0, .ro, .open, 0⟩]⟩  /- TIME_NOW_0 -/,
  ⟨0x20028, [], .core, 0, [⟨31, 0, .ro, .open, 0⟩]⟩  /- TIME_NOW_1 -/,
  ⟨0x2002C, [], .core, 0, [⟨31, 0, .ro, .open, 0⟩]⟩  /- TIME_NOW_2 -/,
  ⟨0x20030, [], .core, 0, [⟨31, 0, .ro, .open, 0⟩]⟩  /- TIME_PPS_0 -/,
  ⟨0x20034, [], .core, 0, [⟨31, 0, .ro, .open, 0⟩]⟩  /- TIME_PPS_1 -/,
  ⟨0x20038, [], .core, 0, [⟨31, 0, .ro, .open, 0⟩]⟩  /- TIME_PPS_2 -/,
  ⟨0x2004C, [], .core, 0, [⟨31, 0, .ro, .open, 0⟩]⟩  /- TIME_TS_EV_0 -/,
  ⟨0x20050, [], .core, 0, [⟨31, 0, .ro, .open, 0⟩]⟩  /- TIME_TS_EV_1 -/,
  ⟨0x20054, [], .core, 0, [⟨31, 0, .ro, .open, 0⟩]⟩  /- TIME_TS_EV_2 -/,
  ⟨0x20058, [], .core, 0, [⟨31, 0, .ro, .open, 0⟩]⟩  /- TIME_TS_ORG_0 -/,
  ⟨0x2005C, [], .core, 0, [⟨31, 0, .ro, .open, 0⟩]⟩  /- TIME_TS_ORG_1 -/,
  ⟨0x20060, [], .core, 0, [⟨31, 0, .ro, .open, 0⟩]⟩  /- TIME_TS_ORG_2 -/]

/-- The registers of the TICK block. -/
def rowsTick : List RegRow := [
  ⟨0x30000, [], .core, 0, [⟨11, 8, .rw, .keeper, 2⟩, ⟨0, 0, .rw, .keeper, 0⟩]⟩  /- TICK_CTRL -/,
  ⟨0x30004, [], .core, 0, [⟨23, 20, .w1c, .open, 0⟩, ⟨19, 16, .w1c, .open, 0⟩, ⟨1, 1, .w1c, .open, 0⟩, ⟨0, 0, .ro, .open, 0⟩]⟩  /- TICK_STATUS -/,
  ⟨0x30008, [], .core, 0, [⟨31, 16, .rw, .keeper, 1⟩, ⟨15, 0, .rw, .keeper, 0x3C⟩]⟩  /- TICK_RATE -/,
  ⟨0x30018, [], .core, 0, [⟨31, 0, .ro, .open, 0⟩]⟩  /- TICK_COUNT_LO -/,
  ⟨0x3001C, [], .core, 0, [⟨31, 0, .ro, .open, 0⟩]⟩  /- TICK_COUNT_HI -/,
  ⟨0x3002C, [], .core, 0, [⟨31, 0, .ro, .open, 0⟩]⟩  /- TICK_LOCK -/,
  ⟨0x30100, [(4, 32)], .core, 0, [⟨31, 31, .rws, .open, 0⟩, ⟨25, 0, .rws, .open, 0⟩]⟩  /- TICK_HPHASE -/,
  ⟨0x30030, [(4, 4)], .app, 0, [⟨17, 2, .rw, .open, 0⟩]⟩  /- TICK_SQ_RESTART -/,
  ⟨0x30200, [(0x20, 4)], .app, 0, [⟨0, 0, .rw, .open, 0⟩]⟩  /- TICK_SQ_CTL -/,
  ⟨0x30204, [(0x20, 4)], .app, 0, [⟨2, 0, .ro, .open, 0⟩]⟩  /- TICK_SQ_STATUS -/,
  ⟨0x30208, [(0x20, 4)], .app, 0, [⟨31, 0, .rw, .open, 0⟩]⟩  /- TICK_SQ_HEADS -/,
  ⟨0x3020C, [(0x20, 4)], .app, 0, [⟨24, 16, .rw, .open, 0⟩, ⟨8, 0, .rw, .open, 0⟩]⟩  /- TICK_SQ_LP -/,
  ⟨0x30210, [(0x20, 4)], .app, 0, [⟨30, 16, .rw, .open, 0⟩, ⟨13, 0, .rw, .open, 0⟩]⟩  /- TICK_SQ_DESC -/,
  ⟨0x30214, [(0x20, 4)], .app, 0, [⟨31, 31, .w1c, .open, 0⟩, ⟨23, 8, .ro, .open, 0⟩, ⟨7, 0, .ro, .open, 0⟩]⟩  /- TICK_SQ_FAULT -/,
  ⟨0x30218, [(0x20, 4)], .app, 0, [⟨31, 0, .ro, .open, 0⟩]⟩  /- TICK_SQ_FVAL_LO -/,
  ⟨0x3021C, [(0x20, 4)], .app, 0, [⟨31, 0, .ro, .open, 0⟩]⟩  /- TICK_SQ_FVAL_HI -/,
  ⟨0x3000C, [], .core, 0, [⟨31, 0, .rw, .keeper, 0⟩]⟩  /- TICK_EPOCH_0 -/,
  ⟨0x30010, [], .core, 0, [⟨31, 0, .rw, .keeper, 0⟩]⟩  /- TICK_EPOCH_1 -/,
  ⟨0x30014, [], .core, 0, [⟨31, 0, .rw, .keeper, 0⟩]⟩  /- TICK_EPOCH_2 -/,
  ⟨0x30020, [], .core, 0, [⟨31, 0, .ro, .open, 0⟩]⟩  /- TICK_NOMINAL_0 -/,
  ⟨0x30024, [], .core, 0, [⟨31, 0, .ro, .open, 0⟩]⟩  /- TICK_NOMINAL_1 -/,
  ⟨0x30028, [], .core, 0, [⟨31, 0, .ro, .open, 0⟩]⟩  /- TICK_NOMINAL_2 -/]

/-- The registers of the ICTL block. -/
def rowsIctl : List RegRow := [
  ⟨0x41000, [(4, 64)], .core, 0, [⟨31, 31, .rw, .keeper, 0⟩, ⟨27, 24, .rw, .keeper, 0⟩, ⟨3, 0, .ro, .open, 8⟩]⟩  /- ICTL_CFG -/,
  ⟨0x41100, [(4, 960)], .app, 0, [⟨31, 31, .rw, .open, 0⟩, ⟨27, 24, .rw, .open, 0⟩, ⟨3, 0, .rw, .open, 0⟩]⟩  /- ICTL_CFG -/,
  ⟨0x40200, [(0x10, 8)], .app, 0, [⟨3, 0, .rw, .open, 0⟩]⟩  /- ICTL_THRESH -/,
  ⟨0x40280, [], .core, 0, [⟨3, 0, .rw, .keeper, 0⟩]⟩  /- ICTL_THRESH -/,
  ⟨0x40204, [(0x10, 8)], .app, 0, [⟨31, 31, .ro, .open, 1⟩, ⟨9, 0, .ro, .open, 0⟩]⟩  /- ICTL_CLAIM -/,
  ⟨0x40284, [], .core, 0, [⟨31, 31, .ro, .open, 1⟩, ⟨9, 0, .ro, .open, 0⟩]⟩  /- ICTL_CLAIM -/,
  ⟨0x40208, [(0x10, 8)], .app, 0, [⟨9, 0, .wo, .open, 0⟩]⟩  /- ICTL_DONE -/,
  ⟨0x40288, [], .core, 0, [⟨9, 0, .wo, .open, 0⟩]⟩  /- ICTL_DONE -/,
  ⟨0x40400, [(0x10, 8)], .core, 0, [⟨31, 31, .rw, .keeper, 0⟩, ⟨30, 30, .rw, .keeper, 0⟩, ⟨23, 0, .rw, .keeper, 0x2710⟩]⟩  /- ICTL_WDOG_CTL -/,
  ⟨0x40404, [(0x10, 8)], .core, 0, [⟨31, 8, .ro, .open, 0⟩, ⟨1, 1, .ro, .open, 0⟩, ⟨0, 0, .ro, .open, 0⟩]⟩  /- ICTL_WDOG_STAT -/,
  ⟨0x40100, [(4, 8)], .app, 0, [⟨31, 0, .ro, .open, 0⟩]⟩  /- ICTL_PEND -/,
  ⟨0x40120, [(4, 24)], .app, 0, [⟨31, 0, .w1c, .open, 0⟩]⟩  /- ICTL_PEND -/,
  ⟨0x40000, [], .app, 0, [⟨9, 0, .wo, .open, 0⟩]⟩  /- ICTL_SWI_SET -/,
  ⟨0x40010, [], .app, 0, [⟨15, 8, .ro, .open, 0⟩, ⟨7, 0, .ro, .open, 0⟩]⟩  /- ICTL_HALT -/]

/-- The registers of the KEEP block. -/
def rowsKeep : List RegRow := [
  ⟨0x50000, [], .core, 0, [⟨31, 28, .wo, .keeper, 0⟩, ⟨12, 8, .wo, .keeper, 0⟩, ⟨7, 0, .wo, .keeper, 0⟩]⟩  /- KEEP_RESET -/,
  ⟨0x50004, [], .core, 0, [⟨31, 0, .ro, .open, 0⟩]⟩  /- KEEP_CAUSE -/,
  ⟨0x50010, [], .core, 0, [⟨31, 31, .rw, .keeper, 0⟩, ⟨23, 0, .rw, .lock, 0x1E8480⟩]⟩  /- KEEP_WDOG_CTL -/,
  ⟨0x50014, [], .core, 0, [⟨0, 0, .wo, .keeper, 0⟩]⟩  /- KEEP_WDOG_KICK -/,
  ⟨0x50018, [], .core, 0, [⟨23, 0, .ro, .open, 0x1E8480⟩]⟩  /- KEEP_WDOG_STAT -/,
  ⟨0x50020, [], .app, 0, [⟨7, 0, .w1s, .keeper, 0⟩]⟩  /- KEEP_APP_RELEASE -/,
  ⟨0x50024, [], .core, 0, [⟨31, 2, .rw, .keeper, 0⟩]⟩  /- KEEP_APP_ENTRY_LO -/,
  ⟨0x50028, [], .core, 0, [⟨15, 0, .rw, .keeper, 0⟩]⟩  /- KEEP_APP_ENTRY_HI -/,
  ⟨0x50030, [], .core, 0, [⟨8, 8, .ro, .open, 0⟩, ⟨4, 4, .ro, .open, 0⟩, ⟨0, 0, .ro, .open, 0⟩]⟩  /- KEEP_BOOT -/,
  ⟨0x50034, [], .core, 0, [⟨31, 0, .ro, .open, 0⟩]⟩  /- KEEP_BOOT_VER -/,
  ⟨0x50040, [(4, 8)], .core, 0, [⟨31, 0, .ro, .open, 0⟩]⟩  /- KEEP_FUSE_HASH -/,
  ⟨0x50060, [], .core, 0, [⟨5, 0, .ro, .open, 0⟩]⟩  /- KEEP_FUSE_MINVER -/,
  ⟨0x50064, [], .core, 0, [⟨0, 0, .wo, .keeper, 0⟩]⟩  /- KEEP_FUSE_BURN -/,
  ⟨0x50068, [], .core, 0, [⟨1, 0, .w1c, .open, 0⟩]⟩  /- KEEP_ERR -/]

/-- The registers of the LOG block. -/
def rowsLog : List RegRow := [
  ⟨0x60000, [], .por, 0, [⟨0, 0, .wo, .keeper, 0⟩]⟩  /- LOG_CTL -/,
  ⟨0x60004, [], .por, 0, [⟨4, 0, .rw, .keeper, 8⟩]⟩  /- LOG_CFG -/,
  ⟨0x60008, [], .por, 0, [⟨1, 1, .ro, .open, 0⟩, ⟨0, 0, .ro, .open, 0⟩]⟩  /- LOG_STAT -/,
  ⟨0x6000C, [], .por, 0, [⟨3, 0, .w1c, .open, 0⟩]⟩  /- LOG_ERR -/,
  ⟨0x60010, [], .por, 0, [⟨3, 0, .rw, .keeper, 0⟩]⟩  /- LOG_IRQ_EN -/,
  ⟨0x60020, [], .por, 0, [⟨31, 0, .ro, .open, 0⟩]⟩  /- LOG_WCOUNT_LO -/,
  ⟨0x60024, [], .por, 0, [⟨31, 0, .ro, .open, 0⟩]⟩  /- LOG_WCOUNT_HI -/,
  ⟨0x60028, [], .por, 0, [⟨31, 0, .ro, .open, 0⟩]⟩  /- LOG_NEXT_SEQ_LO -/,
  ⟨0x6002C, [], .por, 0, [⟨31, 0, .ro, .open, 0⟩]⟩  /- LOG_NEXT_SEQ_HI -/,
  ⟨0x60030, [], .por, 0, [⟨31, 31, .ro, .open, 0⟩, ⟨20, 4, .ro, .open, 0⟩]⟩  /- LOG_TAIL -/,
  ⟨0x60034, [], .por, 0, [⟨20, 4, .ro, .open, 0⟩]⟩  /- LOG_KEEP_END -/,
  ⟨0x60038, [], .por, 0, [⟨31, 31, .ro, .open, 0⟩, ⟨20, 4, .ro, .open, 0⟩]⟩  /- LOG_OLD -/,
  ⟨0x6003C, [], .por, 0, [⟨31, 0, .ro, .open, 0⟩]⟩  /- LOG_OLD_SEQ_LO -/,
  ⟨0x60040, [], .por, 0, [⟨31, 0, .ro, .open, 0⟩]⟩  /- LOG_OLD_SEQ_HI -/,
  ⟨0x60044, [], .por, 0, [⟨31, 0, .ro, .open, 0⟩]⟩  /- LOG_LOST -/,
  ⟨0x60050, [], .por, 0, [⟨31, 31, .wo, .open, 0⟩, ⟨19, 0, .wo, .open, 0⟩]⟩  /- LOG_SUBMIT -/,
  ⟨0x60060, [], .por, 0, [⟨31, 31, .rw, .keeper, 0⟩, ⟨10, 0, .rw, .keeper, 1⟩]⟩  /- LOG_SPILL_CTL -/,
  ⟨0x60064, [], .por, 0, [⟨31, 16, .rw, .keeper, 0⟩]⟩  /- LOG_SPILL_LO -/,
  ⟨0x60068, [], .por, 0, [⟨15, 0, .rw, .keeper, 0⟩]⟩  /- LOG_SPILL_HI -/,
  ⟨0x6006C, [], .por, 0, [⟨29, 4, .ro, .open, 0⟩]⟩  /- LOG_SPILL_WR -/,
  ⟨0x60070, [], .por, 0, [⟨31, 0, .ro, .open, 0⟩]⟩  /- LOG_SPILL_SEQ_LO -/,
  ⟨0x60074, [], .por, 0, [⟨31, 0, .ro, .open, 0⟩]⟩  /- LOG_SPILL_SEQ_HI -/,
  ⟨0x60078, [], .por, 0, [⟨31, 0, .ro, .open, 0⟩]⟩  /- LOG_SPILL_MISS -/]

/-- The registers of the TELE block. -/
def rowsTele : List RegRow := [
  ⟨0x70000, [], .core, 0, [⟨0, 0, .rw, .keeper, 0⟩]⟩  /- TELE_CTL -/,
  ⟨0x70004, [], .core, 0, [⟨2, 0, .w1c, .open, 0⟩]⟩  /- TELE_ERR -/,
  ⟨0x70008, [], .core, 0, [⟨2, 0, .rw, .open, 0⟩]⟩  /- TELE_IRQ_EN -/,
  ⟨0x70010, [], .core, 0, [⟨31, 31, .rw, .open, 0⟩, ⟨30, 30, .rw, .open, 0⟩, ⟨16, 16, .rw, .open, 1⟩, ⟨15, 0, .rw, .open, 0x3E8⟩]⟩  /- TELE_DUMP_CTL -/,
  ⟨0x70014, [], .core, 0, [⟨31, 12, .rw, .open, 0⟩]⟩  /- TELE_DUMP_LO -/,
  ⟨0x70018, [], .core, 0, [⟨15, 0, .rw, .open, 0⟩]⟩  /- TELE_DUMP_HI -/,
  ⟨0x7001C, [], .core, 0, [⟨15, 0, .rw, .open, 2⟩]⟩  /- TELE_DUMP_SLOTS -/,
  ⟨0x70020, [], .core, 0, [⟨31, 0, .ro, .open, 0⟩]⟩  /- TELE_DUMP_SEQ_LO -/,
  ⟨0x70024, [], .core, 0, [⟨31, 0, .ro, .open, 0⟩]⟩  /- TELE_DUMP_SEQ_HI -/,
  ⟨0x70028, [], .core, 0, [⟨31, 0, .ro, .open, 0⟩]⟩  /- TELE_DUMP_SKIP -/,
  ⟨0x71000, [(4, 256)], .core, 0, [⟨23, 16, .rw, .open, 0⟩, ⟨15, 0, .rw, .open, 0xFFFF⟩]⟩  /- TELE_SEL -/,
  ⟨0x72000, [(8, 256)], .core, 0, [⟨31, 0, .ro, .open, 0⟩]⟩  /- TELE_CNT_LO -/,
  ⟨0x72004, [(8, 256)], .core, 0, [⟨31, 31, .w1c, .open, 0⟩, ⟨15, 0, .ro, .open, 0⟩]⟩  /- TELE_CNT_HI -/,
  ⟨0x73000, [(4, 16)], .core, 0, [⟨27, 24, .rw, .open, 0⟩, ⟨23, 16, .rw, .open, 0⟩, ⟨15, 0, .rw, .open, 0xFFFF⟩]⟩  /- TELE_HSEL -/,
  ⟨0x73040, [(4, 16)], .core, 0, [⟨31, 0, .ro, .open, 0⟩]⟩  /- TELE_HMAX -/,
  ⟨0x74000, [(0x80, 16), (4, 32)], .core, 0, [⟨31, 0, .ro, .open, 0⟩]⟩  /- TELE_HBIN -/]

/-- The registers of the CVU block. -/
def rowsCvu : List RegRow := [
  ⟨0x80000, [(0x40, 16)], .core, 0, [⟨31, 31, .wo, .open, 0⟩, ⟨8, 8, .rw, .open, 0⟩, ⟨5, 5, .rw, .open, 0⟩, ⟨4, 4, .rw, .open, 0⟩, ⟨1, 0, .rw, .open, 0⟩]⟩  /- CVU_CTL -/,
  ⟨0x80004, [(0x40, 16)], .core, 0, [⟨7, 0, .wo, .open, 0⟩]⟩  /- CVU_FEED_B -/,
  ⟨0x80008, [(0x40, 16)], .core, 0, [⟨15, 0, .wo, .open, 0⟩]⟩  /- CVU_FEED_H -/,
  ⟨0x8000C, [(0x40, 16)], .core, 0, [⟨31, 0, .wo, .open, 0⟩]⟩  /- CVU_FEED_W -/,
  ⟨0x80010, [(0x40, 16)], .core, 0, [⟨31, 0, .rw, .open, 0⟩]⟩  /- CVU_VALUE -/,
  ⟨0x80014, [(0x40, 16)], .core, 0, [⟨31, 0, .ro, .open, 0⟩]⟩  /- CVU_RESULT -/,
  ⟨0x80018, [(0x40, 16)], .core, 0, [⟨31, 0, .rw, .open, 0⟩]⟩  /- CVU_EXPECT -/,
  ⟨0x8001C, [(0x40, 16)], .core, 0, [⟨0, 0, .wo, .open, 0⟩]⟩  /- CVU_CMP -/,
  ⟨0x80020, [(0x40, 16)], .core, 0, [⟨11, 8, .ro, .open, 0⟩, ⟨2, 2, .ro, .open, 0⟩, ⟨1, 1, .w1c, .open, 0⟩, ⟨0, 0, .w1c, .open, 0⟩]⟩  /- CVU_STAT -/,
  ⟨0x80024, [(0x40, 16)], .core, 0, [⟨0, 0, .rw, .open, 0⟩]⟩  /- CVU_IRQ_EN -/,
  ⟨0x80028, [(0x40, 16)], .core, 0, [⟨31, 0, .ro, .open, 0⟩]⟩  /- CVU_LAST -/]

/-- The registers of the MPU block. -/
def rowsMpu : List RegRow := [
  ⟨0x90000, [], .core, 0, [⟨6, 6, .w1c, .open, 0⟩, ⟨5, 0, .w1c, .open, 0⟩]⟩  /- MPU_ERR -/,
  ⟨0x90004, [], .core, 0, [⟨6, 0, .rw, .keeper, 0⟩]⟩  /- MPU_IRQ_EN -/,
  ⟨0x90008, [], .core, 0, [⟨31, 0, .ro, .open, 0⟩]⟩  /- MPU_NOTICE_LO -/,
  ⟨0x9000C, [], .core, 0, [⟨31, 31, .w1c, .open, 0⟩, ⟨30, 30, .ro, .open, 0⟩, ⟨26, 24, .ro, .open, 0⟩, ⟨23, 16, .ro, .open, 0⟩, ⟨15, 0, .ro, .open, 0⟩]⟩  /- MPU_NOTICE_HI -/,
  ⟨0x90010, [], .core, 0, [⟨15, 0, .ro, .open, 0⟩]⟩  /- MPU_NOTICE_EPOCH -/,
  ⟨0x90014, [], .core, 0, [⟨31, 0, .ro, .open, 0⟩]⟩  /- MPU_NOTICE_CNT -/,
  ⟨0x90020, [], .core, 0, [⟨1, 1, .ro, .open, 0⟩, ⟨0, 0, .rw, .keeper, 0⟩]⟩  /- MPU_MAINT -/,
  ⟨0x90100, [(4, 12)], .app, 0, [⟨31, 31, .wo, .keeper, 0⟩, ⟨15, 0, .ro, .open, 0⟩]⟩  /- MPU_EPOCH -/,
  ⟨0x90130, [(4, 65)], .core, 0, [⟨31, 31, .wo, .keeper, 0⟩, ⟨15, 0, .ro, .open, 0⟩]⟩  /- MPU_EPOCH -/,
  ⟨0x92800, [], .core, 0, [⟨31, 6, .rws, .keeper, 0⟩]⟩  /- MPU_RGN_START_LO -/,
  ⟨0x91000, [(0x200, 12), (0x10, 32)], .app, 0, [⟨31, 6, .rws, .keeper, 0⟩]⟩  /- MPU_RGN_START_LO -/,
  ⟨0x92800, [(0x200, 65), (0x10, 32)], .core, 0, [⟨31, 6, .rws, .keeper, 0⟩]⟩  /- MPU_RGN_START_LO -/,
  ⟨0x92804, [], .core, 0, [⟨31, 31, .rws, .keeper, 1⟩, ⟨15, 0, .rws, .keeper, 0⟩]⟩  /- MPU_RGN_START_HI -/,
  ⟨0x91004, [(0x200, 12), (0x10, 32)], .app, 0, [⟨31, 31, .rws, .keeper, 0⟩, ⟨15, 0, .rws, .keeper, 0⟩]⟩  /- MPU_RGN_START_HI -/,
  ⟨0x92804, [(0x200, 65), (0x10, 32)], .core, 0, [⟨31, 31, .rws, .keeper, 0⟩, ⟨15, 0, .rws, .keeper, 0⟩]⟩  /- MPU_RGN_START_HI -/,
  ⟨0x92808, [], .core, 0, [⟨31, 6, .rws, .keeper, 0x3FFF⟩]⟩  /- MPU_RGN_END_LO -/,
  ⟨0x91008, [(0x200, 12), (0x10, 32)], .app, 0, [⟨31, 6, .rws, .keeper, 0⟩]⟩  /- MPU_RGN_END_LO -/,
  ⟨0x92808, [(0x200, 65), (0x10, 32)], .core, 0, [⟨31, 6, .rws, .keeper, 0⟩]⟩  /- MPU_RGN_END_LO -/,
  ⟨0x9280C, [], .core, 0, [⟨31, 31, .rws, .keeper, 0⟩, ⟨15, 0, .rws, .keeper, 0x43⟩]⟩  /- MPU_RGN_END_HI -/,
  ⟨0x9100C, [(0x200, 12), (0x10, 32)], .app, 0, [⟨31, 31, .rws, .keeper, 0⟩, ⟨15, 0, .rws, .keeper, 0⟩]⟩  /- MPU_RGN_END_HI -/,
  ⟨0x9280C, [(0x200, 65), (0x10, 32)], .core, 0, [⟨31, 31, .rws, .keeper, 0⟩, ⟨15, 0, .rws, .keeper, 0⟩]⟩  /- MPU_RGN_END_HI -/]

/-- The registers of the DDR block. -/
def rowsDdr : List RegRow := [
  ⟨0x100000, [(0x10000, 8)], .core, 0, [⟨8, 8, .w1s, .keeper, 0⟩, ⟨1, 1, .wo, .keeper, 0⟩, ⟨0, 0, .rw, .keeper, 0⟩]⟩  /- DDR_CTL -/,
  ⟨0x100004, [(0x10000, 8)], .core, 0, [⟨10, 8, .ro, .open, 0⟩, ⟨1, 0, .ro, .open, 3⟩]⟩  /- DDR_STATUS -/,
  ⟨0x100008, [(0x10000, 8)], .core, 0, [⟨1, 0, .rw, .keeper, 0⟩]⟩  /- DDR_CFG -/,
  ⟨0x10000C, [(0x10000, 8)], .core, 0, [⟨23, 16, .rw, .keeper, 0x60⟩, ⟨15, 8, .rw, .keeper, 0xA⟩, ⟨7, 0, .rw, .keeper, 0x20⟩]⟩  /- DDR_WQ -/,
  ⟨0x100010, [(0x10000, 8)], .core, 0, [⟨15, 0, .rw, .keeper, 0xF40⟩]⟩  /- DDR_REF -/,
  ⟨0x100014, [(0x10000, 8)], .core, 0, [⟨1, 1, .w1c, .open, 0⟩, ⟨0, 0, .w1c, .open, 0⟩]⟩  /- DDR_ERR -/,
  ⟨0x100020, [(0x10000, 8)], .core, 0, [⟨31, 0, .ro, .open, 0⟩]⟩  /- DDR_CNT_RD -/,
  ⟨0x100024, [(0x10000, 8)], .core, 0, [⟨31, 0, .ro, .open, 0⟩]⟩  /- DDR_CNT_WR -/,
  ⟨0x100028, [(0x10000, 8)], .core, 0, [⟨31, 0, .ro, .open, 0⟩]⟩  /- DDR_CNT_HAZ -/,
  ⟨0x10002C, [(0x10000, 8)], .core, 0, [⟨15, 0, .ro, .open, 0⟩]⟩  /- DDR_LAT_MAX -/,
  ⟨0x100030, [(0x10000, 8)], .core, 0, [⟨31, 0, .ro, .open, 0⟩]⟩  /- DDR_PEAK50 -/,
  ⟨0x100040, [(0x10000, 8)], .core, 0, [⟨31, 31, .w1s, .keeper, 0⟩, ⟨16, 16, .rw, .keeper, 0⟩, ⟨15, 8, .rw, .keeper, 0⟩, ⟨3, 0, .rw, .keeper, 0⟩]⟩  /- DDR_TRN_CTL -/,
  ⟨0x100044, [(0x10000, 8)], .core, 0, [⟨31, 31, .w1c, .open, 0⟩, ⟨30, 30, .w1c, .open, 0⟩, ⟨15, 0, .ro, .open, 0⟩]⟩  /- DDR_TRN_STAT -/,
  ⟨0x100048, [(0x10000, 8)], .core, 0, [⟨31, 0, .ro, .open, 0⟩]⟩  /- DDR_TRN_PASS0 -/,
  ⟨0x10004C, [(0x10000, 8)], .core, 0, [⟨19, 4, .ro, .open, 0⟩, ⟨3, 0, .ro, .open, 0⟩]⟩  /- DDR_TRN_PASS1 -/,
  ⟨0x100050, [(0x10000, 8)], .core, 0, [⟨17, 0, .rw, .keeper, 0⟩]⟩  /- DDR_TRN_ROW -/,
  ⟨0x100100, [(0x10000, 8), (0x10, 4)], .core, 0, [⟨31, 24, .rw, .keeper, 0⟩, ⟨23, 16, .rw, .keeper, 0⟩, ⟨15, 8, .rw, .keeper, 0⟩, ⟨7, 0, .rw, .keeper, 0⟩]⟩  /- DDR_TIM0 -/,
  ⟨0x100104, [(0x10000, 8), (0x10, 4)], .core, 0, [⟨31, 24, .rw, .keeper, 0⟩, ⟨23, 16, .rw, .keeper, 0⟩, ⟨15, 8, .rw, .keeper, 0⟩, ⟨7, 0, .rw, .keeper, 0⟩]⟩  /- DDR_TIM1 -/,
  ⟨0x100108, [(0x10000, 8), (0x10, 4)], .core, 0, [⟨31, 24, .rw, .keeper, 0⟩, ⟨23, 16, .rw, .keeper, 0⟩, ⟨15, 8, .rw, .keeper, 0⟩, ⟨7, 0, .rw, .keeper, 0⟩]⟩  /- DDR_TIM2 -/,
  ⟨0x10010C, [(0x10000, 8), (0x10, 4)], .core, 0, [⟨27, 16, .rw, .keeper, 0⟩, ⟨11, 0, .rw, .keeper, 0⟩]⟩  /- DDR_TIM3 -/,
  ⟨0x100C00, [], .core, 0, [⟨0, 0, .rw, .keeper, 0⟩]⟩  /- DDR_GCTL -/,
  ⟨0x100C04, [], .core, 0, [⟨31, 31, .w1s, .keeper, 0⟩, ⟨30, 30, .rw, .keeper, 0⟩, ⟨25, 24, .rw, .keeper, 3⟩, ⟨23, 16, .rw, .keeper, 0x19⟩, ⟨15, 0, .rw, .keeper, 0x3E8⟩]⟩  /- DDR_FC_CTL -/,
  ⟨0x100C08, [], .core, 0, [⟨31, 31, .ro, .open, 0⟩, ⟨30, 30, .ro, .open, 0⟩, ⟨23, 16, .ro, .open, 0⟩, ⟨3, 3, .w1c, .open, 0⟩, ⟨2, 2, .w1c, .open, 0⟩, ⟨1, 1, .w1c, .open, 0⟩]⟩  /- DDR_FC_STAT -/,
  ⟨0x100C0C, [], .core, 0, [⟨7, 0, .ro, .open, 0⟩]⟩  /- DDR_TOP -/,
  ⟨0x100400, [(0x10000, 8), (0x200, 4), (4, 36)], .core, 0, [⟨8, 0, .rws, .open, 0x40⟩]⟩  /- DDR_RDQ -/,
  ⟨0x1004A0, [(0x10000, 8), (0x200, 4), (4, 4)], .core, 0, [⟨8, 0, .rws, .open, 0x40⟩]⟩  /- DDR_RDQS -/,
  ⟨0x100500, [(0x10000, 8), (0x200, 4), (4, 36)], .core, 0, [⟨8, 0, .rws, .open, 0x40⟩]⟩  /- DDR_WDQ -/,
  ⟨0x1005A0, [(0x10000, 8), (0x200, 4), (4, 2)], .core, 0, [⟨8, 0, .rws, .open, 0x40⟩]⟩  /- DDR_WCK -/,
  ⟨0x1005C0, [(0x10000, 8), (0x200, 4), (0x20, 2), (4, 8)], .core, 0, [⟨8, 0, .rws, .open, 0x40⟩]⟩  /- DDR_CA -/]

/-- The registers of the ECC block. -/
def rowsEcc : List RegRow := [
  ⟨0x180000, [], .core, 0, [⟨8, 0, .w1c, .open, 0⟩]⟩  /- ECC_ERR -/,
  ⟨0x180004, [], .core, 0, [⟨7, 0, .rw, .open, 0⟩]⟩  /- ECC_IRQ_EN -/,
  ⟨0x180008, [], .core, 0, [⟨31, 0, .ro, .open, 0⟩]⟩  /- ECC_CNT_CE_DRAM -/,
  ⟨0x18000C, [], .core, 0, [⟨31, 0, .ro, .open, 0⟩]⟩  /- ECC_CNT_UE_DRAM -/,
  ⟨0x180010, [], .core, 0, [⟨31, 0, .ro, .open, 0⟩]⟩  /- ECC_CNT_CE_SRAM -/,
  ⟨0x180014, [], .core, 0, [⟨31, 0, .ro, .open, 0⟩]⟩  /- ECC_CNT_UE_SRAM -/,
  ⟨0x180018, [], .core, 0, [⟨31, 0, .ro, .open, 0⟩]⟩  /- ECC_CNT_REPLAY -/,
  ⟨0x18001C, [], .core, 0, [⟨31, 0, .ro, .open, 0⟩]⟩  /- ECC_CNT_PARFAIL -/,
  ⟨0x180020, [], .core, 0, [⟨31, 0, .ro, .open, 0⟩]⟩  /- ECC_CNT_RET -/,
  ⟨0x180030, [], .core, 0, [⟨31, 3, .ro, .open, 0⟩]⟩  /- ECC_LOG_LO -/,
  ⟨0x180034, [], .core, 0, [⟨31, 31, .w1c, .open, 0⟩, ⟨27, 24, .ro, .open, 0⟩, ⟨23, 16, .ro, .open, 0⟩, ⟨15, 0, .ro, .open, 0⟩]⟩  /- ECC_LOG_HI -/,
  ⟨0x180038, [], .core, 0, [⟨31, 3, .ro, .open, 0⟩]⟩  /- ECC_CELOG_LO -/,
  ⟨0x18003C, [], .core, 0, [⟨31, 31, .w1c, .open, 0⟩, ⟨30, 24, .ro, .open, 0⟩, ⟨23, 16, .ro, .open, 0⟩, ⟨15, 0, .ro, .open, 0⟩]⟩  /- ECC_CELOG_HI -/,
  ⟨0x180100, [(4, 128)], .core, 0, [⟨31, 31, .rw, .keeper, 0⟩, ⟨23, 0, .rw, .keeper, 0⟩]⟩  /- ECC_RETIRE -/,
  ⟨0x180400, [], .core, 0, [⟨31, 31, .w1s, .keeper, 0⟩, ⟨1, 0, .rw, .keeper, 0⟩]⟩  /- ECC_DIAG_CTL -/,
  ⟨0x180404, [], .core, 0, [⟨31, 3, .rw, .keeper, 0⟩]⟩  /- ECC_DIAG_ADDR_LO -/,
  ⟨0x180408, [], .core, 0, [⟨15, 0, .rw, .keeper, 0⟩]⟩  /- ECC_DIAG_ADDR_HI -/,
  ⟨0x180410, [(4, 8)], .core, 0, [⟨31, 0, .rw, .keeper, 0⟩]⟩  /- ECC_DIAG_DATA -/,
  ⟨0x180430, [], .core, 0, [⟨31, 0, .rw, .keeper, 0⟩]⟩  /- ECC_DIAG_CHK -/,
  ⟨0x180434, [], .core, 0, [⟨31, 31, .w1c, .open, 0⟩, ⟨30, 30, .w1c, .open, 0⟩, ⟨17, 16, .ro, .open, 0⟩, ⟨6, 0, .ro, .open, 0⟩]⟩  /- ECC_DIAG_STAT -/]

/-- The registers of the CHURN block. -/
def rowsChurn : List RegRow := [
  ⟨0x190000, [], .core, 0, [⟨31, 31, .w1s, .keeper, 0⟩, ⟨30, 30, .wo, .keeper, 0⟩, ⟨0, 0, .rw, .keeper, 0⟩]⟩  /- CHURN_CTL -/,
  ⟨0x190004, [], .core, 0, [⟨31, 31, .ro, .open, 0⟩, ⟨3, 3, .w1c, .open, 0⟩, ⟨2, 2, .w1c, .open, 0⟩, ⟨1, 1, .w1c, .open, 0⟩, ⟨0, 0, .w1c, .open, 0⟩]⟩  /- CHURN_STAT -/,
  ⟨0x190008, [], .core, 0, [⟨3, 0, .rw, .keeper, 0⟩]⟩  /- CHURN_IRQ_EN -/,
  ⟨0x19000C, [], .core, 0, [⟨13, 0, .rw, .keeper, 0x3E8⟩]⟩  /- CHURN_RATE -/,
  ⟨0x190010, [], .core, 0, [⟨31, 5, .rw, .keeper, 0⟩]⟩  /- CHURN_START_LO -/,
  ⟨0x190014, [], .core, 0, [⟨15, 0, .rw, .keeper, 0⟩]⟩  /- CHURN_START_HI -/,
  ⟨0x190018, [], .core, 0, [⟨31, 5, .rw, .keeper, 0⟩]⟩  /- CHURN_END_LO -/,
  ⟨0x19001C, [], .core, 0, [⟨15, 0, .rw, .keeper, 0⟩]⟩  /- CHURN_END_HI -/,
  ⟨0x190020, [], .core, 0, [⟨31, 3, .ro, .open, 0⟩]⟩  /- CHURN_POS_LO -/,
  ⟨0x190024, [], .core, 0, [⟨15, 0, .ro, .open, 0⟩]⟩  /- CHURN_POS_HI -/,
  ⟨0x190028, [], .core, 0, [⟨31, 0, .ro, .open, 0⟩]⟩  /- CHURN_WORDS -/,
  ⟨0x19002C, [], .core, 0, [⟨31, 0, .ro, .open, 0⟩]⟩  /- CHURN_CORR -/,
  ⟨0x190030, [], .core, 0, [⟨31, 0, .ro, .open, 0⟩]⟩  /- CHURN_UNCORR -/,
  ⟨0x190034, [], .core, 0, [⟨31, 0, .ro, .open, 0⟩]⟩  /- CHURN_POISON -/,
  ⟨0x190038, [], .core, 0, [⟨31, 0, .ro, .open, 0⟩]⟩  /- CHURN_SKIP -/,
  ⟨0x19003C, [], .core, 0, [⟨31, 0, .ro, .open, 0⟩]⟩  /- CHURN_DROPPED -/,
  ⟨0x190040, [(8, 8)], .core, 0, [⟨31, 3, .ro, .open, 0⟩]⟩  /- CHURN_UE_LO -/,
  ⟨0x190044, [(8, 8)], .core, 0, [⟨31, 31, .ro, .open, 0⟩, ⟨30, 30, .ro, .open, 0⟩, ⟨15, 0, .ro, .open, 0⟩]⟩  /- CHURN_UE_HI -/]

/-- The registers of the DEC block. -/
def rowsDec : List RegRow := [
  ⟨0x200000, [(0x10000, 16)], .engine, 0, [⟨1, 1, .rw, .keeper, 0⟩, ⟨0, 0, .rw, .open, 0⟩]⟩  /- DEC_ENG_CTL -/,
  ⟨0x200004, [(0x10000, 16)], .engine, 0, [⟨23, 23, .ro, .open, 0⟩, ⟨22, 16, .ro, .open, 0⟩, ⟨12, 8, .ro, .open, 0⟩, ⟨1, 0, .ro, .open, 0⟩]⟩  /- DEC_ENG_STATUS -/,
  ⟨0x200008, [(0x10000, 16)], .engine, 0, [⟨4, 4, .w1c, .open, 0⟩, ⟨3, 3, .w1c, .open, 0⟩, ⟨2, 2, .w1c, .open, 0⟩, ⟨1, 1, .w1c, .open, 0⟩, ⟨0, 0, .w1c, .open, 0⟩]⟩  /- DEC_ENG_ERR -/,
  ⟨0x20000C, [(0x10000, 16)], .engine, 0, [⟨4, 0, .rw, .open, 0⟩]⟩  /- DEC_ENG_IRQ_EN -/,
  ⟨0x200010, [(0x10000, 16)], .engine, 0, [⟨23, 0, .rw, .keeper, 0xC350⟩]⟩  /- DEC_ENG_WDOG -/,
  ⟨0x200014, [(0x10000, 16)], .engine, 0, [⟨31, 0, .ro, .open, 0⟩]⟩  /- DEC_ENG_PICS -/,
  ⟨0x200018, [(0x10000, 16)], .engine, 0, [⟨31, 0, .ro, .open, 0⟩]⟩  /- DEC_ENG_BUSY -/,
  ⟨0x201000, [(0x10000, 16), (0x100, 8)], .app, 0, [⟨31, 31, .rw, .open, 0⟩, ⟨30, 30, .rw, .open, 0⟩, ⟨28, 28, .rw, .open, 0⟩, ⟨3, 0, .rw, .open, 0⟩]⟩  /- DEC_CTX_CTL -/,
  ⟨0x201004, [(0x10000, 16), (0x100, 8)], .app, 0, [⟨4, 4, .ro, .open, 0⟩, ⟨3, 3, .ro, .open, 0⟩, ⟨2, 0, .ro, .open, 0⟩]⟩  /- DEC_CTX_STATUS -/,
  ⟨0x201008, [(0x10000, 16), (0x100, 8)], .app, 0, [⟨9, 0, .w1c, .open, 0⟩]⟩  /- DEC_CTX_ERR -/,
  ⟨0x20100C, [(0x10000, 16), (0x100, 8)], .app, 0, [⟨31, 0, .rw, .open, 1⟩]⟩  /- DEC_CTX_NEXT_LO -/,
  ⟨0x201010, [(0x10000, 16), (0x100, 8)], .app, 0, [⟨31, 0, .rw, .open, 0⟩]⟩  /- DEC_CTX_NEXT_HI -/,
  ⟨0x201014, [(0x10000, 16), (0x100, 8)], .app, 0, [⟨31, 0, .ro, .open, 0⟩]⟩  /- DEC_CTX_DONE_LO -/,
  ⟨0x201018, [(0x10000, 16), (0x100, 8)], .app, 0, [⟨31, 0, .ro, .open, 0⟩]⟩  /- DEC_CTX_DONE_HI -/,
  ⟨0x20101C, [(0x10000, 16), (0x100, 8)], .app, 0, [⟨31, 0, .ro, .open, 0⟩]⟩  /- DEC_CTX_RETAIN_LO -/,
  ⟨0x201020, [(0x10000, 16), (0x100, 8)], .app, 0, [⟨31, 0, .ro, .open, 0⟩]⟩  /- DEC_CTX_RETAIN_HI -/,
  ⟨0x201024, [(0x10000, 16), (0x100, 8)], .app, 0, [⟨31, 12, .rw, .open, 0⟩]⟩  /- DEC_CTX_BS_LO -/,
  ⟨0x201028, [(0x10000, 16), (0x100, 8)], .app, 0, [⟨15, 0, .rw, .open, 0⟩]⟩  /- DEC_CTX_BS_HI -/,
  ⟨0x20102C, [(0x10000, 16), (0x100, 8)], .app, 0, [⟨31, 12, .rw, .open, 0⟩]⟩  /- DEC_CTX_BS_SIZE -/,
  ⟨0x201030, [(0x10000, 16), (0x100, 8)], .app, 0, [⟨31, 5, .rw, .open, 0⟩]⟩  /- DEC_CTX_IDX_LO -/,
  ⟨0x201034, [(0x10000, 16), (0x100, 8)], .app, 0, [⟨15, 0, .rw, .open, 0⟩]⟩  /- DEC_CTX_IDX_HI -/,
  ⟨0x201038, [(0x10000, 16), (0x100, 8)], .app, 0, [⟨31, 5, .rw, .open, 0⟩]⟩  /- DEC_CTX_DT_LO -/,
  ⟨0x20103C, [(0x10000, 16), (0x100, 8)], .app, 0, [⟨15, 0, .rw, .open, 0⟩]⟩  /- DEC_CTX_DT_HI -/,
  ⟨0x201040, [(0x10000, 16), (0x100, 8)], .app, 0, [⟨31, 12, .rw, .open, 0⟩]⟩  /- DEC_CTX_POOL_LO -/,
  ⟨0x201044, [(0x10000, 16), (0x100, 8)], .app, 0, [⟨15, 0, .rw, .open, 0⟩]⟩  /- DEC_CTX_POOL_HI -/,
  ⟨0x201048, [(0x10000, 16), (0x100, 8)], .app, 0, [⟨23, 16, .rw, .open, 0⟩, ⟨11, 8, .rw, .open, 2⟩, ⟨5, 0, .rw, .open, 0⟩]⟩  /- DEC_CTX_POOL_CFG -/,
  ⟨0x20104C, [(0x10000, 16), (0x100, 8)], .app, 0, [⟨31, 12, .rw, .open, 0⟩]⟩  /- DEC_CTX_POOL_LUMA -/,
  ⟨0x201050, [(0x10000, 16), (0x100, 8)], .app, 0, [⟨31, 12, .rw, .open, 0⟩]⟩  /- DEC_CTX_POOL_STRIDE -/,
  ⟨0x201054, [(0x10000, 16), (0x100, 8)], .app, 0, [⟨31, 0, .ro, .open, 0⟩]⟩  /- DEC_CTX_DROP -/,
  ⟨0x201058, [(0x10000, 16), (0x100, 8)], .app, 0, [⟨31, 0, .ro, .open, 0⟩]⟩  /- DEC_CTX_PICS -/]

/-- The registers of the ENC block. -/
def rowsEnc : List RegRow := [
  ⟨0x300000, [(0x10000, 8)], .engine, 0, [⟨1, 1, .rw, .keeper, 0⟩, ⟨0, 0, .rw, .open, 0⟩]⟩  /- ENC_ENG_CTL -/,
  ⟨0x300004, [(0x10000, 8)], .engine, 0, [⟨23, 23, .ro, .open, 0⟩, ⟨20, 16, .ro, .open, 0⟩, ⟨12, 8, .ro, .open, 0⟩, ⟨1, 0, .ro, .open, 0⟩]⟩  /- ENC_ENG_STATUS -/,
  ⟨0x300008, [(0x10000, 8)], .engine, 0, [⟨4, 0, .w1c, .open, 0⟩]⟩  /- ENC_ENG_ERR -/,
  ⟨0x30000C, [(0x10000, 8)], .engine, 0, [⟨4, 0, .rw, .open, 0⟩]⟩  /- ENC_ENG_IRQ_EN -/,
  ⟨0x300010, [(0x10000, 8)], .engine, 0, [⟨23, 0, .rw, .keeper, 0x4E20⟩]⟩  /- ENC_ENG_WDOG -/,
  ⟨0x300014, [(0x10000, 8)], .engine, 0, [⟨31, 0, .ro, .open, 0⟩]⟩  /- ENC_ENG_FRAMES -/,
  ⟨0x300018, [(0x10000, 8)], .engine, 0, [⟨31, 0, .ro, .open, 0⟩]⟩  /- ENC_ENG_BUSY -/,
  ⟨0x301000, [(0x10000, 8), (0x100, 4)], .app, 0, [⟨31, 31, .rw, .open, 0⟩, ⟨28, 28, .rw, .open, 0⟩, ⟨27, 27, .rw, .open, 0⟩, ⟨26, 26, .rw, .open, 1⟩, ⟨25, 25, .rw, .open, 0⟩, ⟨24, 24, .rw, .open, 0⟩, ⟨2, 0, .rw, .open, 0⟩]⟩  /- ENC_CTX_CTL -/,
  ⟨0x301004, [(0x10000, 8), (0x100, 4)], .app, 0, [⟨21, 16, .ro, .open, 0⟩, ⟨4, 4, .ro, .open, 0⟩, ⟨2, 0, .ro, .open, 0⟩]⟩  /- ENC_CTX_STATUS -/,
  ⟨0x301008, [(0x10000, 8), (0x100, 4)], .app, 0, [⟨9, 0, .w1c, .open, 0⟩]⟩  /- ENC_CTX_ERR -/,
  ⟨0x30100C, [(0x10000, 8), (0x100, 4)], .app, 0, [⟨31, 12, .rw, .open, 0⟩]⟩  /- ENC_CTX_SRC_LO -/,
  ⟨0x301010, [(0x10000, 8), (0x100, 4)], .app, 0, [⟨15, 0, .rw, .open, 0⟩]⟩  /- ENC_CTX_SRC_HI -/,
  ⟨0x301014, [(0x10000, 8), (0x100, 4)], .app, 0, [⟨21, 16, .rw, .open, 0⟩, ⟨15, 8, .rw, .open, 0⟩, ⟨0, 0, .rw, .open, 0⟩]⟩  /- ENC_CTX_SRC_CFG -/,
  ⟨0x301018, [(0x10000, 8), (0x100, 4)], .app, 0, [⟨27, 16, .rw, .open, 0⟩, ⟨12, 0, .rw, .open, 0⟩]⟩  /- ENC_CTX_SRC_GEOM -/,
  ⟨0x30101C, [(0x10000, 8), (0x100, 4)], .app, 0, [⟨31, 12, .rw, .open, 0⟩]⟩  /- ENC_CTX_SRC_STRIDE -/,
  ⟨0x301020, [(0x10000, 8), (0x100, 4)], .app, 0, [⟨31, 12, .rw, .open, 0⟩]⟩  /- ENC_CTX_SRC_LUMA -/,
  ⟨0x301024, [(0x10000, 8), (0x100, 4)], .app, 0, [⟨31, 12, .rw, .open, 0⟩]⟩  /- ENC_CTX_SRC_SIDE -/,
  ⟨0x301028, [(0x10000, 8), (0x100, 4)], .app, 0, [⟨31, 12, .rw, .open, 0⟩]⟩  /- ENC_CTX_WORK_LO -/,
  ⟨0x30102C, [(0x10000, 8), (0x100, 4)], .app, 0, [⟨15, 0, .rw, .open, 0⟩]⟩  /- ENC_CTX_WORK_HI -/,
  ⟨0x301030, [(0x10000, 8), (0x100, 4)], .app, 0, [⟨31, 12, .rw, .open, 0⟩]⟩  /- ENC_CTX_OUT_LO -/,
  ⟨0x301034, [(0x10000, 8), (0x100, 4)], .app, 0, [⟨15, 0, .rw, .open, 0⟩]⟩  /- ENC_CTX_OUT_HI -/,
  ⟨0x301038, [(0x10000, 8), (0x100, 4)], .app, 0, [⟨31, 12, .rw, .open, 0⟩]⟩  /- ENC_CTX_OUT_SIZE -/,
  ⟨0x30103C, [(0x10000, 8), (0x100, 4)], .app, 0, [⟨31, 5, .ro, .open, 0⟩]⟩  /- ENC_CTX_OUT_WR -/,
  ⟨0x301040, [(0x10000, 8), (0x100, 4)], .app, 0, [⟨31, 5, .rw, .open, 0⟩]⟩  /- ENC_CTX_OUT_RD -/,
  ⟨0x301044, [(0x10000, 8), (0x100, 4)], .app, 0, [⟨23, 0, .rw, .open, 0⟩]⟩  /- ENC_CTX_RATE -/,
  ⟨0x301048, [(0x10000, 8), (0x100, 4)], .app, 0, [⟨23, 0, .rw, .open, 0⟩]⟩  /- ENC_CTX_CPB -/,
  ⟨0x30104C, [(0x10000, 8), (0x100, 4)], .app, 0, [⟨23, 0, .rw, .open, 0⟩]⟩  /- ENC_CTX_TARGET -/,
  ⟨0x301050, [(0x10000, 8), (0x100, 4)], .app, 0, [⟨29, 24, .rw, .open, 0x20⟩, ⟨21, 16, .rw, .open, 0x2D⟩, ⟨13, 8, .rw, .open, 0x12⟩]⟩  /- ENC_CTX_QP -/,
  ⟨0x301054, [(0x10000, 8), (0x100, 4)], .app, 0, [⟨31, 24, .rw, .open, 1⟩, ⟨23, 16, .rw, .open, 0x99⟩, ⟨15, 0, .rw, .open, 0⟩]⟩  /- ENC_CTX_GOP -/,
  ⟨0x301058, [(0x10000, 8), (0x100, 4)], .app, 0, [⟨31, 16, .rw, .open, 1⟩, ⟨15, 0, .rw, .open, 0x3C⟩]⟩  /- ENC_CTX_SRATE -/,
  ⟨0x30105C, [(0x10000, 8), (0x100, 4)], .app, 0, [⟨31, 0, .ro, .open, 0⟩]⟩  /- ENC_CTX_FULL -/,
  ⟨0x301060, [(0x10000, 8), (0x100, 4)], .app, 0, [⟨31, 0, .ro, .open, 0⟩]⟩  /- ENC_CTX_FRAMES -/,
  ⟨0x301064, [(0x10000, 8), (0x100, 4)], .app, 0, [⟨31, 0, .ro, .open, 0⟩]⟩  /- ENC_CTX_CARRIED -/]

/-- The registers of the COMP block. -/
def rowsComp : List RegRow := [
  ⟨0x400000, [], .core, 0, [⟨7, 7, .w1c, .open, 0⟩, ⟨6, 6, .w1c, .open, 0⟩, ⟨5, 5, .w1c, .open, 0⟩, ⟨4, 4, .w1c, .open, 0⟩, ⟨3, 3, .w1c, .open, 0⟩, ⟨2, 2, .w1c, .open, 0⟩, ⟨1, 1, .w1c, .open, 0⟩, ⟨0, 0, .w1c, .open, 0⟩]⟩  /- COMP_ERR -/,
  ⟨0x400004, [], .core, 0, [⟨7, 0, .rw, .open, 0⟩]⟩  /- COMP_IRQ_EN -/,
  ⟨0x400008, [], .core, 0, [⟨31, 31, .w1c, .open, 0⟩, ⟨26, 24, .ro, .open, 0⟩, ⟨20, 16, .ro, .open, 0⟩, ⟨8, 0, .ro, .open, 0⟩]⟩  /- COMP_ERRLOG -/,
  ⟨0x400010, [], .core, 0, [⟨31, 31, .rw, .open, 0⟩, ⟨13, 0, .rw, .open, 0⟩]⟩  /- COMP_DESC_SEL -/,
  ⟨0x400040, [(4, 16)], .core, 0, [⟨31, 0, .ro, .open, 0⟩]⟩  /- COMP_DESC_DATA -/,
  ⟨0x400100, [(4, 32)], .core, 0, [⟨4, 4, .rws, .open, 1⟩, ⟨1, 0, .rws, .open, 0⟩]⟩  /- COMP_HEAD_CFG -/,
  ⟨0x400180, [(4, 32)], .core, 0, [⟨29, 0, .rws, .open, 0⟩]⟩  /- COMP_BG -/,
  ⟨0x400200, [(4, 32)], .core, 0, [⟨31, 0, .ro, .open, 0⟩]⟩  /- COMP_HFETCH -/,
  ⟨0x401000, [(0x40, 32), (4, 16)], .core, 0, [⟨31, 31, .ro, .open, 0⟩, ⟨24, 16, .ro, .open, 0⟩]⟩  /- COMP_STACK -/,
  ⟨0x402000, [(8, 384)], .core, 0, [⟨31, 31, .ro, .open, 0⟩, ⟨30, 30, .ro, .open, 0⟩, ⟨29, 29, .ro, .open, 0⟩, ⟨28, 28, .ro, .open, 0⟩, ⟨24, 20, .ro, .open, 0⟩, ⟨19, 16, .ro, .open, 0⟩, ⟨13, 0, .ro, .open, 0⟩]⟩  /- COMP_LP_STAT -/,
  ⟨0x402004, [(8, 384)], .core, 0, [⟨31, 0, .ro, .open, 0⟩]⟩  /- COMP_LP_FETCH -/,
  ⟨0x400400, [(0x20, 24)], .core, 0, [⟨31, 31, .rw, .open, 0⟩, ⟨21, 16, .rw, .open, 0⟩, ⟨15, 8, .rw, .open, 0⟩, ⟨1, 0, .rw, .open, 0⟩]⟩  /- COMP_IN_CTL -/,
  ⟨0x400404, [(0x20, 24)], .core, 0, [⟨31, 12, .rw, .open, 0⟩]⟩  /- COMP_IN_LO -/,
  ⟨0x400408, [(0x20, 24)], .core, 0, [⟨15, 0, .rw, .open, 0⟩]⟩  /- COMP_IN_HI -/,
  ⟨0x40040C, [(0x20, 24)], .core, 0, [⟨31, 12, .rw, .open, 0⟩]⟩  /- COMP_IN_STRIDE -/,
  ⟨0x400410, [(0x20, 24)], .core, 0, [⟨31, 12, .rw, .open, 0⟩]⟩  /- COMP_IN_CHROMA -/,
  ⟨0x403000, [(0x40, 8)], .core, 0, [⟨31, 31, .rw, .open, 0⟩, ⟨20, 16, .rw, .open, 0⟩, ⟨9, 8, .rw, .open, 0⟩, ⟨0, 0, .rw, .open, 0⟩]⟩  /- COMP_WB_CTL -/,
  ⟨0x403004, [(0x40, 8)], .core, 0, [⟨31, 12, .rw, .open, 0⟩]⟩  /- COMP_WB_LO -/,
  ⟨0x403008, [(0x40, 8)], .core, 0, [⟨15, 0, .rw, .open, 0⟩]⟩  /- COMP_WB_HI -/,
  ⟨0x40300C, [(0x40, 8)], .core, 0, [⟨21, 16, .rw, .open, 0⟩, ⟨15, 8, .rw, .open, 0⟩]⟩  /- COMP_WB_CFG -/,
  ⟨0x403010, [(0x40, 8)], .core, 0, [⟨31, 12, .rw, .open, 0⟩]⟩  /- COMP_WB_STRIDE -/,
  ⟨0x403014, [(0x40, 8)], .core, 0, [⟨31, 12, .rw, .open, 0⟩]⟩  /- COMP_WB_LUMA -/,
  ⟨0x403018, [(0x40, 8)], .core, 0, [⟨31, 12, .rw, .open, 0⟩]⟩  /- COMP_WB_SIDE -/,
  ⟨0x40301C, [(0x40, 8)], .core, 0, [⟨31, 3, .rw, .open, 0⟩]⟩  /- COMP_WB_FENCE_LO -/,
  ⟨0x403020, [(0x40, 8)], .core, 0, [⟨15, 0, .rw, .open, 0⟩]⟩  /- COMP_WB_FENCE_HI -/,
  ⟨0x403028, [(0x40, 8)], .core, 0, [⟨2, 2, .w1c, .open, 0⟩, ⟨1, 1, .w1c, .open, 0⟩, ⟨0, 0, .w1c, .open, 0⟩]⟩  /- COMP_WB_ERR -/,
  ⟨0x40302C, [(0x40, 8)], .core, 0, [⟨2, 0, .rw, .open, 0⟩]⟩  /- COMP_WB_IRQ_EN -/,
  ⟨0x403030, [(0x40, 8)], .core, 0, [⟨31, 0, .ro, .open, 0⟩]⟩  /- COMP_WB_LAST_LO -/,
  ⟨0x403034, [(0x40, 8)], .core, 0, [⟨15, 0, .ro, .open, 0⟩]⟩  /- COMP_WB_LAST_HI -/,
  ⟨0x403038, [(0x40, 8)], .core, 0, [⟨31, 0, .ro, .open, 0⟩]⟩  /- COMP_WB_ABANDON -/]

/-- The registers of the SCL block. -/
def rowsScl : List RegRow := [
  ⟨0x410000, [(4, 128)], .core, 0, [⟨31, 31, .ro, .open, 0⟩, ⟨8, 0, .ro, .open, 0⟩]⟩  /- SCL_STAT -/,
  ⟨0x410800, [], .core, 0, [⟨0, 0, .w1c, .open, 0⟩]⟩  /- SCL_ERR -/,
  ⟨0x410804, [], .core, 0, [⟨0, 0, .rw, .open, 0⟩]⟩  /- SCL_IRQ_EN -/,
  ⟨0x411000, [(0x400, 2), (0x10, 64), (4, 4)], .core, 0, [⟨25, 16, .rw, .open, 0⟩, ⟨9, 0, .rw, .open, 0⟩]⟩  /- SCL_HCOEF -/,
  ⟨0x412000, [(0x200, 2), (8, 64), (4, 2)], .core, 0, [⟨25, 16, .rw, .open, 0⟩, ⟨9, 0, .rw, .open, 0⟩]⟩  /- SCL_VCOEF -/]

/-- The registers of the HEAD block. -/
def rowsHead : List RegRow := [
  ⟨0x500000, [(0x10000, 32)], .head, 0, [⟨0, 0, .rw, .open, 0⟩]⟩  /- HEAD_CTL -/,
  ⟨0x500008, [(0x10000, 32)], .head, 0, [⟨1, 1, .rw, .open, 0⟩, ⟨0, 0, .w1s, .open, 0⟩]⟩  /- HEAD_COMMIT -/,
  ⟨0x50000C, [(0x10000, 32)], .head, 0, [⟨31, 0, .rw, .open, 0⟩]⟩  /- HEAD_CMT_TICK_LO -/,
  ⟨0x500010, [(0x10000, 32)], .head, 0, [⟨31, 0, .rw, .open, 0⟩]⟩  /- HEAD_CMT_TICK_HI -/,
  ⟨0x500020, [(0x10000, 32)], .head, 0, [⟨28, 16, .rws, .open, 0x1130⟩, ⟨12, 0, .rws, .open, 0xF00⟩]⟩  /- HEAD_HTIMING -/,
  ⟨0x500024, [(0x10000, 32)], .head, 0, [⟨28, 16, .rws, .open, 0xB0⟩, ⟨12, 0, .rws, .open, 0x58⟩]⟩  /- HEAD_HSYNC -/,
  ⟨0x500028, [(0x10000, 32)], .head, 0, [⟨27, 16, .rws, .open, 0x8CA⟩, ⟨11, 0, .rws, .open, 0x870⟩]⟩  /- HEAD_VTIMING -/,
  ⟨0x50002C, [(0x10000, 32)], .head, 0, [⟨27, 16, .rws, .open, 8⟩, ⟨11, 0, .rws, .open, 0xA⟩]⟩  /- HEAD_VSYNC -/,
  ⟨0x500030, [(0x10000, 32)], .head, 0, [⟨15, 8, .rws, .open, 0⟩, ⟨1, 1, .rws, .open, 1⟩, ⟨0, 0, .rws, .open, 1⟩]⟩  /- HEAD_MODE -/,
  ⟨0x500040, [(0x10000, 32)], .head, 0, [⟨2, 2, .w1c, .open, 0⟩, ⟨1, 1, .w1c, .open, 0⟩, ⟨0, 0, .w1c, .open, 0⟩]⟩  /- HEAD_ERR -/,
  ⟨0x500044, [(0x10000, 32)], .head, 0, [⟨2, 0, .rw, .open, 0⟩]⟩  /- HEAD_IRQ_EN -/,
  ⟨0x500004, [(0x10000, 32)], .head, 0, [⟨18, 18, .ro, .open, 0⟩, ⟨17, 17, .ro, .open, 0⟩, ⟨16, 16, .ro, .open, 0⟩, ⟨2, 0, .ro, .open, 0⟩]⟩  /- HEAD_STATUS -/,
  ⟨0x500048, [(0x10000, 32)], .head, 0, [⟨31, 0, .ro, .open, 0⟩]⟩  /- HEAD_FRAME_LO -/,
  ⟨0x50004C, [(0x10000, 32)], .head, 0, [⟨15, 0, .ro, .open, 0⟩]⟩  /- HEAD_FRAME_HI -/,
  ⟨0x500050, [(0x10000, 32)], .head, 0, [⟨31, 0, .ro, .open, 0⟩]⟩  /- HEAD_PRES_0 -/,
  ⟨0x500054, [(0x10000, 32)], .head, 0, [⟨31, 0, .ro, .open, 0⟩]⟩  /- HEAD_PRES_1 -/,
  ⟨0x500058, [(0x10000, 32)], .head, 0, [⟨31, 0, .ro, .open, 0⟩]⟩  /- HEAD_PRES_2 -/,
  ⟨0x50005C, [(0x10000, 32)], .head, 0, [⟨31, 0, .ro, .open, 0⟩]⟩  /- HEAD_TS_0 -/,
  ⟨0x500060, [(0x10000, 32)], .head, 0, [⟨31, 0, .ro, .open, 0⟩]⟩  /- HEAD_TS_1 -/,
  ⟨0x500064, [(0x10000, 32)], .head, 0, [⟨31, 0, .ro, .open, 0⟩]⟩  /- HEAD_TS_2 -/,
  ⟨0x500068, [(0x10000, 32)], .head, 0, [⟨31, 0, .ro, .open, 0⟩]⟩  /- HEAD_FLIP_TS_0 -/,
  ⟨0x50006C, [(0x10000, 32)], .head, 0, [⟨31, 0, .ro, .open, 0⟩]⟩  /- HEAD_FLIP_TS_1 -/,
  ⟨0x500070, [(0x10000, 32)], .head, 0, [⟨31, 0, .ro, .open, 0⟩]⟩  /- HEAD_FLIP_TS_2 -/,
  ⟨0x500074, [(0x10000, 32)], .head, 0, [⟨31, 0, .ro, .open, 0⟩]⟩  /- HEAD_FLIP_FRAME_LO -/,
  ⟨0x500078, [(0x10000, 32)], .head, 0, [⟨15, 0, .ro, .open, 0⟩]⟩  /- HEAD_FLIP_FRAME_HI -/,
  ⟨0x50007C, [(0x10000, 32)], .head, 0, [⟨31, 0, .ro, .open, 0⟩]⟩  /- HEAD_UFLOW -/,
  ⟨0x500080, [(0x10000, 32)], .head, 0, [⟨31, 31, .ro, .open, 0⟩, ⟨12, 0, .ro, .open, 0⟩]⟩  /- HEAD_LINE -/,
  ⟨0x500100, [(0x10000, 32), (4, 16)], .head, 0, [⟨31, 0, .ro, .open, 0⟩]⟩  /- HEAD_CERT -/]

/-- The registers of the FG block. -/
def rowsFg : List RegRow := [
  ⟨0x700000, [], .core, 0, [⟨29, 16, .rw, .lock, 0x2710⟩, ⟨13, 0, .rw, .lock, 1⟩]⟩  /- FG_BOUND -/,
  ⟨0x700004, [], .core, 0, [⟨24, 24, .rw, .lock, 0⟩, ⟨19, 16, .rw, .lock, 3⟩, ⟨13, 0, .rw, .lock, 0x1F4⟩]⟩  /- FG_POLICY -/,
  ⟨0x700008, [], .core, 0, [⟨31, 16, .rw, .lock, 0x64⟩, ⟨15, 0, .rw, .lock, 0⟩]⟩  /- FG_TIMING -/,
  ⟨0x700010, [], .core, 0, [⟨29, 0, .rw, .lock, 0x3FF80000⟩]⟩  /- FG_PAL -/,
  ⟨0x700014, [], .core, 0, [⟨29, 0, .rw, .lock, 0x8020080⟩]⟩  /- FG_PAL -/,
  ⟨0x700018, [], .core, 0, [⟨29, 0, .rw, .lock, 0x3FF003FF⟩]⟩  /- FG_PAL -/,
  ⟨0x70001C, [], .core, 0, [⟨29, 0, .rw, .lock, 0x8020080⟩]⟩  /- FG_PAL -/,
  ⟨0x700020, [], .core, 0, [⟨29, 0, .rw, .lock, 0x3FFFFFFF⟩]⟩  /- FG_PAL -/,
  ⟨0x700024, [], .core, 0, [⟨29, 0, .rw, .lock, 0⟩]⟩  /- FG_PAL -/,
  ⟨0x700028, [], .core, 0, [⟨23, 0, .rw, .lock, 0⟩]⟩  /- FG_NOISY_IN -/,
  ⟨0x70002C, [(4, 4)], .core, 0, [⟨31, 0, .rw, .lock, 0⟩]⟩  /- FG_NOISY_CTX -/,
  ⟨0x70003C, [], .core, 0, [⟨0, 0, .rw, .keeper, 0⟩]⟩  /- FG_LOCK -/,
  ⟨0x700040, [], .core, 0, [⟨4, 4, .w1c, .open, 0⟩, ⟨3, 3, .w1c, .open, 0⟩, ⟨2, 2, .w1c, .open, 0⟩, ⟨1, 1, .w1c, .open, 0⟩, ⟨0, 0, .w1c, .open, 0⟩]⟩  /- FG_ERR -/,
  ⟨0x700044, [], .core, 0, [⟨4, 0, .rw, .open, 0⟩]⟩  /- FG_IRQ_EN -/,
  ⟨0x700100, [(8, 32)], .core, 0x2000, [⟨17, 0, .rws, .open, 0⟩]⟩  /- FG_HEAD_AMAP -/,
  ⟨0x700104, [(8, 32)], .core, 0, [⟨31, 16, .ro, .open, 0⟩, ⟨15, 0, .ro, .open, 0⟩]⟩  /- FG_HEAD_STAT -/,
  ⟨0x700300, [(4, 32)], .core, 0, [⟨29, 0, .ro, .open, 0⟩]⟩  /- FG_HEAD_MAXAGE -/,
  ⟨0x700800, [(0x10, 16), (4, 4)], .core, 0, [⟨31, 0, .ro, .open, 0⟩]⟩  /- FG_FONT -/,
  ⟨0x701000, [(8, 384)], .core, 0, [⟨31, 16, .ro, .open, 0⟩, ⟨15, 15, .ro, .open, 0⟩, ⟨9, 0, .ro, .open, 0⟩]⟩  /- FG_LP_STAT -/,
  ⟨0x701004, [(8, 384)], .core, 0, [⟨29, 0, .ro, .open, 0⟩]⟩  /- FG_LP_AGE -/]

/-- The registers of the AGE block. -/
def rowsAge : List RegRow := [
  ⟨0x710000, [], .core, 0, [⟨17, 0, .rw, .open, 0⟩]⟩  /- AGE_SEL -/,
  ⟨0x710004, [], .core, 0, [⟨31, 0, .ro, .open, 0⟩]⟩  /- AGE_ENTRY_LO -/,
  ⟨0x710008, [], .core, 0, [⟨31, 0, .ro, .open, 0⟩]⟩  /- AGE_ENTRY_HI -/,
  ⟨0x71000C, [], .core, 0, [⟨31, 31, .ro, .open, 0⟩, ⟨4, 0, .ro, .open, 0⟩]⟩  /- AGE_OWNER -/]

/-- The registers of the BL block. -/
def rowsBl : List RegRow := [
  ⟨0x800000, [(0x10000, 22)], .core, 0, [⟨13, 13, .wo, .open, 0⟩, ⟨12, 12, .wo, .open, 0⟩, ⟨9, 9, .rw, .open, 0⟩, ⟨8, 8, .rw, .open, 0⟩, ⟨3, 0, .rw, .open, 0⟩]⟩  /- BL_CTRL -/,
  ⟨0x960000, [(0x10000, 2)], .core, 0, [⟨13, 13, .wo, .open, 0⟩, ⟨12, 12, .wo, .open, 0⟩, ⟨9, 9, .rw, .keeper, 0⟩, ⟨8, 8, .rw, .keeper, 0⟩, ⟨3, 0, .rw, .keeper, 0⟩]⟩  /- BL_CTRL -/,
  ⟨0x800004, [(0x10000, 24)], .core, 0, [⟨18, 16, .ro, .open, 0⟩, ⟨14, 12, .ro, .open, 0⟩, ⟨11, 8, .ro, .open, 0⟩, ⟨0, 0, .ro, .open, 0⟩]⟩  /- BL_STATUS -/,
  ⟨0x800008, [(0x10000, 24)], .core, 0, [⟨0, 0, .w1c, .open, 0⟩, ⟨1, 1, .w1c, .open, 0⟩, ⟨2, 2, .w1c, .open, 0⟩, ⟨3, 3, .w1c, .open, 0⟩, ⟨4, 4, .w1c, .open, 0⟩, ⟨5, 5, .w1c, .open, 0⟩, ⟨6, 6, .w1c, .open, 0⟩, ⟨7, 7, .w1c, .open, 0⟩, ⟨8, 8, .w1c, .open, 0⟩, ⟨9, 9, .w1c, .open, 0⟩, ⟨10, 10, .w1c, .open, 0⟩, ⟨11, 11, .w1c, .open, 0⟩, ⟨12, 12, .w1c, .open, 0⟩]⟩  /- BL_ERR -/,
  ⟨0x800010, [(0x10000, 24)], .core, 0, [⟨31, 0, .ro, .open, 0⟩]⟩  /- BL_CNT_CRC -/,
  ⟨0x800014, [(0x10000, 24)], .core, 0, [⟨31, 0, .ro, .open, 0⟩]⟩  /- BL_CNT_REPLAY -/,
  ⟨0x800018, [(0x10000, 24)], .core, 0, [⟨31, 0, .ro, .open, 0⟩]⟩  /- BL_CNT_PROTO -/,
  ⟨0x80001C, [(0x10000, 24)], .core, 0, [⟨31, 0, .ro, .open, 0⟩]⟩  /- BL_CNT_DROP -/,
  ⟨0x800020, [(0x10000, 22)], .core, 0, [⟨31, 16, .rw, .open, 0x64⟩, ⟨1, 0, .rw, .open, 0⟩]⟩  /- BL_PWR -/,
  ⟨0x960020, [(0x10000, 2)], .core, 0, [⟨31, 16, .rw, .keeper, 0x64⟩, ⟨1, 0, .rw, .keeper, 0⟩]⟩  /- BL_PWR -/,
  ⟨0x800024, [(0x10000, 24)], .core, 0, [⟨31, 16, .ro, .open, 0⟩, ⟨15, 0, .ro, .open, 0⟩]⟩  /- BL_TXCRED_0 -/,
  ⟨0x800028, [(0x10000, 24)], .core, 0, [⟨15, 0, .ro, .open, 0⟩]⟩  /- BL_TXCRED_1 -/,
  ⟨0x800030, [(0x10000, 24)], .core, 0, [⟨31, 3, .rw, .open, 0⟩]⟩  /- BL_TXQ_ADDR_LO -/,
  ⟨0x800034, [(0x10000, 24)], .core, 0, [⟨15, 0, .rw, .open, 0⟩]⟩  /- BL_TXQ_ADDR_HI -/,
  ⟨0x800038, [(0x10000, 24)], .core, 0, [⟨31, 31, .w1s, .open, 0⟩, ⟨25, 24, .rw, .open, 0⟩, ⟨23, 16, .rw, .open, 0⟩, ⟨10, 0, .rw, .open, 0⟩]⟩  /- BL_TXQ_CMD -/,
  ⟨0x80003C, [(0x10000, 24)], .core, 0, [⟨31, 0, .ro, .open, 0⟩]⟩  /- BL_BSTAT_LO -/,
  ⟨0x800044, [(0x10000, 24)], .core, 0, [⟨31, 0, .ro, .open, 0⟩]⟩  /- BL_BSTAT_HI -/,
  ⟨0x800040, [(0x10000, 12)], .core, 0, [⟨23, 23, .rw, .open, 0⟩, ⟨22, 21, .rw, .open, 0⟩, ⟨20, 16, .rw, .open, 0⟩, ⟨15, 15, .rw, .open, 0⟩, ⟨14, 13, .rw, .open, 0⟩, ⟨12, 8, .rw, .open, 0⟩, ⟨7, 7, .rw, .open, 0⟩, ⟨6, 5, .rw, .open, 0⟩, ⟨4, 0, .rw, .open, 0⟩]⟩  /- BL_HEADMAP -/,
  ⟨0x800100, [(0x10000, 22)], .core, 0, [⟨15, 15, .wo, .open, 0⟩, ⟨12, 12, .rw, .open, 0⟩, ⟨11, 8, .rw, .open, 0xF⟩, ⟨5, 4, .rw, .open, 0⟩, ⟨2, 0, .rw, .open, 0⟩]⟩  /- BL_TEST_CTL -/,
  ⟨0x960100, [(0x10000, 2)], .core, 0, [⟨15, 15, .wo, .open, 0⟩, ⟨12, 12, .rw, .keeper, 0⟩, ⟨11, 8, .rw, .keeper, 0xF⟩, ⟨5, 4, .rw, .keeper, 0⟩, ⟨2, 0, .rw, .keeper, 0⟩]⟩  /- BL_TEST_CTL -/,
  ⟨0x800104, [(0x10000, 24)], .core, 0, [⟨8, 8, .ro, .open, 0⟩, ⟨7, 4, .w1c, .open, 0⟩, ⟨3, 0, .ro, .open, 0⟩]⟩  /- BL_TEST_STAT -/,
  ⟨0x800108, [(0x10000, 22)], .core, 0, [⟨12, 8, .rw, .open, 0⟩, ⟨4, 4, .wo, .open, 0⟩, ⟨3, 0, .rw, .open, 0⟩]⟩  /- BL_TEST_INJ -/,
  ⟨0x960108, [(0x10000, 2)], .core, 0, [⟨12, 8, .rw, .keeper, 0⟩, ⟨4, 4, .wo, .keeper, 0⟩, ⟨3, 0, .rw, .keeper, 0⟩]⟩  /- BL_TEST_INJ -/,
  ⟨0x800110, [(0x10000, 24)], .core, 0, [⟨31, 0, .ro, .open, 0⟩]⟩  /- BL_TEST_BITS_LO -/,
  ⟨0x800114, [(0x10000, 24)], .core, 0, [⟨31, 0, .ro, .open, 0⟩]⟩  /- BL_TEST_BITS_HI -/,
  ⟨0x800120, [(0x10000, 24), (4, 4)], .core, 0, [⟨31, 0, .ro, .open, 0⟩]⟩  /- BL_TEST_ERR -/,
  ⟨0x800130, [(0x10000, 22)], .core, 0, [⟨27, 24, .rw, .open, 0⟩, ⟨19, 12, .rw, .open, 0⟩, ⟨10, 4, .rw, .open, 0⟩, ⟨3, 3, .wo, .open, 0⟩, ⟨2, 2, .wo, .open, 0⟩, ⟨1, 0, .rw, .open, 0⟩]⟩  /- BL_EYE_CTL -/,
  ⟨0x960130, [(0x10000, 2)], .core, 0, [⟨27, 24, .rw, .keeper, 0⟩, ⟨19, 12, .rw, .keeper, 0⟩, ⟨10, 4, .rw, .keeper, 0⟩, ⟨3, 3, .wo, .keeper, 0⟩, ⟨2, 2, .wo, .keeper, 0⟩, ⟨1, 0, .rw, .keeper, 0⟩]⟩  /- BL_EYE_CTL -/,
  ⟨0x800134, [(0x10000, 24)], .core, 0, [⟨3, 3, .ro, .open, 0⟩, ⟨2, 2, .w1c, .open, 0⟩, ⟨1, 1, .w1c, .open, 0⟩, ⟨0, 0, .ro, .open, 0⟩]⟩  /- BL_EYE_STAT -/,
  ⟨0x800138, [(0x10000, 24)], .core, 0, [⟨31, 0, .ro, .open, 0⟩]⟩  /- BL_EYE_ERR -/,
  ⟨0x80013C, [(0x10000, 24)], .core, 0, [⟨31, 0, .ro, .open, 0⟩]⟩  /- BL_EYE_BITS -/,
  ⟨0x80000C, [(0x10000, 24)], .core, 0, [⟨0, 0, .rw, .open, 0⟩, ⟨1, 1, .rw, .open, 0⟩, ⟨2, 2, .rw, .open, 0⟩, ⟨3, 3, .rw, .open, 0⟩, ⟨4, 4, .rw, .open, 0⟩, ⟨5, 5, .rw, .open, 0⟩, ⟨6, 6, .rw, .open, 0⟩, ⟨7, 7, .rw, .open, 0⟩, ⟨8, 8, .rw, .open, 0⟩, ⟨9, 9, .rw, .open, 0⟩, ⟨10, 10, .rw, .open, 0⟩, ⟨11, 11, .rw, .open, 0⟩, ⟨12, 12, .rw, .open, 0⟩]⟩  /- BL_IRQ_EN -/]

/-- The registers of the STEP block. -/
def rowsStep : List RegRow := [
  ⟨0x980000, [], .core, 0, [⟨3, 3, .w1s, .keeper, 0⟩, ⟨2, 2, .wo, .keeper, 0⟩, ⟨1, 1, .rw, .keeper, 0⟩]⟩  /- STEP_CTL -/,
  ⟨0x980004, [], .core, 0, [⟨21, 21, .ro, .open, 0⟩, ⟨20, 20, .ro, .open, 0⟩, ⟨19, 19, .ro, .open, 0⟩, ⟨18, 18, .ro, .open, 0⟩, ⟨17, 17, .ro, .open, 0⟩, ⟨16, 16, .ro, .open, 0⟩, ⟨15, 14, .ro, .open, 0⟩, ⟨13, 11, .ro, .open, 0⟩, ⟨10, 10, .ro, .open, 0⟩, ⟨9, 9, .ro, .open, 0⟩, ⟨8, 8, .ro, .open, 0⟩, ⟨7, 6, .ro, .open, 1⟩, ⟨5, 4, .ro, .open, 0⟩, ⟨2, 0, .ro, .open, 0⟩]⟩  /- STEP_STATUS -/,
  ⟨0x980008, [], .core, 0, [⟨10, 0, .w1c, .open, 0⟩]⟩  /- STEP_ERR -/,
  ⟨0x98000C, [], .core, 0, [⟨10, 0, .rw, .keeper, 0⟩]⟩  /- STEP_IRQ_EN -/,
  ⟨0x980010, [], .core, 0, [⟨9, 9, .w1c, .keeper, 0⟩, ⟨8, 8, .w1c, .keeper, 0⟩, ⟨1, 0, .rw, .keeper, 1⟩]⟩  /- STEP_HEALTH -/,
  ⟨0x980014, [], .core, 0, [⟨31, 0, .rw, .keeper, 0⟩]⟩  /- STEP_REASON -/,
  ⟨0x980018, [], .core, 0, [⟨0, 0, .wo, .keeper, 0⟩]⟩  /- STEP_HB -/,
  ⟨0x98001C, [], .core, 0, [⟨31, 0, .ro, .open, 0⟩]⟩  /- STEP_DIG_LOCAL -/,
  ⟨0x980020, [], .core, 0, [⟨31, 0, .ro, .open, 0⟩]⟩  /- STEP_DIG_PARTNER -/,
  ⟨0x980024, [], .core, 0, [⟨31, 0, .ro, .open, 0⟩]⟩  /- STEP_DIG_TICK_LO -/,
  ⟨0x980028, [], .core, 0, [⟨31, 0, .ro, .open, 0⟩]⟩  /- STEP_DIG_TICK_HI -/,
  ⟨0x98002C, [], .core, 0, [⟨31, 0, .ro, .open, 0⟩]⟩  /- STEP_CNT_MISMATCH -/,
  ⟨0x980030, [], .core, 0, [⟨31, 0, .ro, .open, 0⟩]⟩  /- STEP_CNT_AGREE_MISS -/,
  ⟨0x980040, [], .core, 0, [⟨31, 16, .rw, .keeper, 0xE10⟩, ⟨7, 0, .rw, .keeper, 0x10⟩]⟩  /- STEP_CFG -/,
  ⟨0x980044, [], .core, 0, [⟨31, 0, .rw, .keeper, 0⟩]⟩  /- STEP_SWAP_LO -/,
  ⟨0x980048, [], .core, 0, [⟨31, 0, .rw, .keeper, 0⟩]⟩  /- STEP_SWAP_HI -/,
  ⟨0x980090, [], .core, 0, [⟨31, 0, .ro, .open, 0⟩]⟩  /- STEP_STATE_LOCAL -/,
  ⟨0x980094, [], .core, 0, [⟨31, 0, .ro, .open, 0⟩]⟩  /- STEP_STATE_PARTNER -/,
  ⟨0x980050, [], .app, 0, [⟨31, 31, .w1s, .open, 0⟩, ⟨7, 0, .rw, .open, 0⟩]⟩  /- STEP_SNAP_CTL -/,
  ⟨0x980054, [], .app, 0, [⟨31, 4, .rw, .open, 0⟩]⟩  /- STEP_SNAP_LIST_LO -/,
  ⟨0x980058, [], .app, 0, [⟨15, 0, .rw, .open, 0⟩]⟩  /- STEP_SNAP_LIST_HI -/,
  ⟨0x98005C, [], .app, 0, [⟨31, 0, .rw, .open, 0⟩]⟩  /- STEP_SNAP_TICK_LO -/,
  ⟨0x980060, [], .app, 0, [⟨31, 0, .rw, .open, 0⟩]⟩  /- STEP_SNAP_TICK_HI -/,
  ⟨0x980064, [], .app, 0, [⟨31, 31, .ro, .open, 0⟩, ⟨3, 3, .w1c, .open, 0⟩, ⟨2, 2, .w1c, .open, 0⟩, ⟨1, 1, .w1c, .open, 0⟩, ⟨0, 0, .w1c, .open, 0⟩]⟩  /- STEP_SNAP_STAT -/,
  ⟨0x980068, [], .app, 0, [⟨31, 0, .ro, .open, 0⟩]⟩  /- STEP_SNAP_RTICK_LO -/,
  ⟨0x98006C, [], .app, 0, [⟨31, 0, .ro, .open, 0⟩]⟩  /- STEP_SNAP_RTICK_HI -/,
  ⟨0x980080, [(4, 4)], .app, 0, [⟨31, 0, .rw, .open, 0⟩]⟩  /- STEP_JOIN -/]

/-- The registers of the TOUCH block. -/
def rowsTouch : List RegRow := [
  ⟨0xA00000, [], .core, 0, [⟨8, 8, .rw, .open, 0⟩, ⟨4, 4, .w1s, .open, 0⟩, ⟨1, 1, .rw, .open, 0⟩, ⟨0, 0, .rw, .open, 0⟩]⟩  /- TOUCH_CTL -/,
  ⟨0xA00004, [], .core, 0, [⟨30, 28, .rw, .open, 2⟩, ⟨26, 24, .rw, .open, 3⟩, ⟨20, 16, .rw, .open, 0x18⟩, ⟨12, 8, .rw, .open, 0x18⟩, ⟨0, 0, .rw, .open, 0⟩]⟩  /- TOUCH_CFG -/,
  ⟨0xA00008, [], .core, 0, [⟨31, 0, .rw, .open, 0⟩]⟩  /- TOUCH_PIN_EN_LO -/,
  ⟨0xA0000C, [], .core, 0, [⟨15, 0, .rw, .open, 0⟩]⟩  /- TOUCH_PIN_EN_HI -/,
  ⟨0xA00010, [], .core, 0, [⟨15, 0, .rw, .open, 0x400⟩]⟩  /- TOUCH_DET -/,
  ⟨0xA00014, [], .core, 0, [⟨19, 16, .rw, .open, 2⟩, ⟨15, 0, .rw, .open, 0x300⟩]⟩  /- TOUCH_DET2 -/,
  ⟨0xA00018, [], .core, 0, [⟨31, 24, .rw, .open, 0x10⟩, ⟨23, 16, .rw, .open, 8⟩, ⟨15, 0, .rw, .open, 0x200⟩]⟩  /- TOUCH_BASECFG -/,
  ⟨0xA0001C, [], .core, 0, [⟨7, 0, .rw, .open, 0x14⟩]⟩  /- TOUCH_STUCK -/,
  ⟨0xA00020, [], .core, 0, [⟨23, 16, .rw, .open, 8⟩, ⟨15, 8, .rw, .open, 0x1E⟩, ⟨7, 0, .rw, .open, 0x78⟩]⟩  /- TOUCH_RATE -/,
  ⟨0xA00024, [], .core, 0, [⟨31, 16, .rw, .open, 0x258⟩, ⟨15, 0, .rw, .open, 0x32⟩]⟩  /- TOUCH_IDLE -/,
  ⟨0xA00028, [], .core, 0, [⟨31, 16, .rw, .open, 0xF000⟩, ⟨15, 0, .rw, .open, 0x800⟩]⟩  /- TOUCH_TESTCFG -/,
  ⟨0xA00030, [], .core, 0, [⟨5, 5, .ro, .open, 0⟩, ⟨4, 4, .ro, .open, 0⟩, ⟨3, 2, .ro, .open, 0⟩, ⟨1, 1, .ro, .open, 0⟩, ⟨0, 0, .ro, .open, 0⟩]⟩  /- TOUCH_STATUS -/,
  ⟨0xA00034, [], .core, 0, [⟨31, 0, .ro, .open, 0⟩]⟩  /- TOUCH_SCAN -/,
  ⟨0xA00038, [], .core, 0, [⟨7, 0, .w1c, .open, 0⟩]⟩  /- TOUCH_ERR -/,
  ⟨0xA0003C, [], .core, 0, [⟨7, 0, .rw, .open, 0⟩]⟩  /- TOUCH_IRQ_EN -/,
  ⟨0xA00040, [], .core, 0, [⟨31, 0, .ro, .open, 0⟩]⟩  /- TOUCH_OPEN_LO -/,
  ⟨0xA00044, [], .core, 0, [⟨15, 0, .ro, .open, 0⟩]⟩  /- TOUCH_OPEN_HI -/,
  ⟨0xA00048, [], .core, 0, [⟨31, 0, .ro, .open, 0⟩]⟩  /- TOUCH_SHORT_LO -/,
  ⟨0xA0004C, [], .core, 0, [⟨15, 0, .ro, .open, 0⟩]⟩  /- TOUCH_SHORT_HI -/,
  ⟨0xA00050, [], .core, 0, [⟨31, 0, .ro, .open, 0⟩]⟩  /- TOUCH_BRIDGE_LO -/,
  ⟨0xA00054, [], .core, 0, [⟨14, 0, .ro, .open, 0⟩]⟩  /- TOUCH_BRIDGE_HI -/,
  ⟨0xA01000, [(4, 576)], .core, 0, [⟨15, 0, .rw, .open, 0⟩]⟩  /- TOUCH_BASE -/,
  ⟨0xA02000, [(4, 576)], .core, 0, [⟨18, 18, .ro, .open, 0⟩, ⟨17, 17, .ro, .open, 0⟩, ⟨16, 16, .ro, .open, 0⟩, ⟨15, 0, .ro, .open, 0⟩]⟩  /- TOUCH_NODE -/]

/-- The registers of the MGMT block. -/
def rowsMgmt : List RegRow := [
  ⟨0xB00000, [], .core, 0, [⟨19, 16, .rw, .lock, 4⟩, ⟨9, 8, .rw, .lock, 0⟩, ⟨4, 0, .rw, .lock, 8⟩]⟩  /- MGMT_XSPI_CFG -/,
  ⟨0xB00004, [], .core, 0, [⟨31, 31, .rw, .keeper, 0⟩, ⟨15, 0, .rw, .lock, 0⟩]⟩  /- MGMT_XSPI_PROT -/,
  ⟨0xB00008, [], .core, 0, [⟨31, 24, .rw, .lock, 0x12⟩, ⟨23, 16, .rw, .lock, 0x21⟩, ⟨15, 8, .rw, .lock, 0xDC⟩, ⟨7, 0, .rw, .lock, 5⟩]⟩  /- MGMT_XSPI_OPC -/,
  ⟨0xB0000C, [], .core, 0, [⟨31, 0, .rw, .open, 0⟩]⟩  /- MGMT_XSPI_ADDR -/,
  ⟨0xB00010, [], .core, 0, [⟨31, 31, .w1s, .open, 0⟩, ⟨17, 16, .rw, .open, 0⟩, ⟨8, 0, .rw, .open, 0⟩]⟩  /- MGMT_XSPI_CMD -/,
  ⟨0xB00014, [], .core, 0, [⟨31, 31, .ro, .open, 0⟩, ⟨2, 2, .w1c, .open, 0⟩, ⟨1, 1, .w1c, .open, 0⟩, ⟨0, 0, .w1c, .open, 0⟩]⟩  /- MGMT_XSPI_STAT -/,
  ⟨0xB00100, [(4, 64)], .core, 0, [⟨31, 0, .rw, .open, 0⟩]⟩  /- MGMT_XSPI_BUF -/,
  ⟨0xB01000, [], .core, 0, [⟨31, 0, .rw, .open, 0⟩]⟩  /- MGMT_GPIO_OUT -/,
  ⟨0xB01004, [], .core, 0, [⟨31, 0, .rw, .open, 0⟩]⟩  /- MGMT_GPIO_OE -/,
  ⟨0xB01008, [], .core, 0, [⟨31, 0, .ro, .open, 0⟩]⟩  /- MGMT_GPIO_IN -/,
  ⟨0xB01010, [], .core, 0, [⟨31, 0, .rw, .open, 0⟩]⟩  /- MGMT_GPIO_IRQ_CFG_LO -/,
  ⟨0xB01014, [], .core, 0, [⟨31, 0, .rw, .open, 0⟩]⟩  /- MGMT_GPIO_IRQ_CFG_HI -/,
  ⟨0xB01018, [], .core, 0, [⟨31, 0, .w1c, .open, 0⟩]⟩  /- MGMT_GPIO_IRQ_STAT -/,
  ⟨0xB02000, [(0x40, 4)], .core, 0, [⟨31, 31, .w1s, .open, 0⟩, ⟨25, 24, .rw, .open, 0⟩, ⟨22, 16, .rw, .open, 0⟩, ⟨11, 8, .rw, .open, 0⟩, ⟨3, 0, .rw, .open, 0⟩]⟩  /- MGMT_I2C_CTL -/,
  ⟨0xB02004, [(0x40, 4)], .core, 0, [⟨31, 0, .rw, .open, 0⟩]⟩  /- MGMT_I2C_WDATA_LO -/,
  ⟨0xB02008, [(0x40, 4)], .core, 0, [⟨31, 0, .rw, .open, 0⟩]⟩  /- MGMT_I2C_WDATA_HI -/,
  ⟨0xB0200C, [(0x40, 4)], .core, 0, [⟨31, 0, .ro, .open, 0⟩]⟩  /- MGMT_I2C_RDATA_LO -/,
  ⟨0xB02010, [(0x40, 4)], .core, 0, [⟨31, 0, .ro, .open, 0⟩]⟩  /- MGMT_I2C_RDATA_HI -/,
  ⟨0xB02014, [(0x40, 4)], .core, 0, [⟨31, 31, .ro, .open, 0⟩, ⟨3, 0, .w1c, .open, 0⟩]⟩  /- MGMT_I2C_STAT -/,
  ⟨0xB03000, [(0x40, 2)], .core, 0, [⟨31, 31, .rw, .open, 0⟩, ⟨17, 16, .rw, .open, 0⟩, ⟨15, 0, .rw, .open, 0x36⟩]⟩  /- MGMT_UART_CFG -/,
  ⟨0xB03004, [(0x40, 2)], .core, 0, [⟨7, 0, .wo, .open, 0⟩]⟩  /- MGMT_UART_TX -/,
  ⟨0xB03008, [(0x40, 2)], .core, 0, [⟨8, 8, .ro, .open, 0⟩, ⟨7, 0, .ro, .open, 0⟩]⟩  /- MGMT_UART_RX -/,
  ⟨0xB0300C, [(0x40, 2)], .core, 0, [⟨22, 16, .ro, .open, 0⟩, ⟨14, 8, .ro, .open, 0⟩, ⟨4, 1, .w1c, .open, 0⟩, ⟨0, 0, .ro, .open, 0⟩]⟩  /- MGMT_UART_STAT -/]

/-- The rows of the 64 KiB block slot `slot` (R18); a slot not listed holds no registers. -/
def slotRows (slot : Nat) : List RegRow :=
  if slot == 0 then rowsSys
  else if slot == 1 then rowsPwr
  else if slot == 2 then rowsTime
  else if slot == 3 then rowsTick
  else if slot == 4 then rowsIctl
  else if slot == 5 then rowsKeep
  else if slot == 6 then rowsLog
  else if slot == 7 then rowsTele
  else if slot == 8 then rowsCvu
  else if slot == 9 then rowsMpu
  else if 0x10 ≤ slot && slot ≤ 0x17 then rowsDdr
  else if slot == 0x18 then rowsEcc
  else if slot == 0x19 then rowsChurn
  else if 0x20 ≤ slot && slot ≤ 0x2F then rowsDec
  else if 0x30 ≤ slot && slot ≤ 0x37 then rowsEnc
  else if slot == 0x40 then rowsComp
  else if slot == 0x41 then rowsScl
  else if 0x50 ≤ slot && slot ≤ 0x6F then rowsHead
  else if slot == 0x70 then rowsFg
  else if slot == 0x71 then rowsAge
  else if 0x80 ≤ slot && slot ≤ 0x97 then rowsBl
  else if slot == 0x98 then rowsStep
  else if slot == 0xA0 then rowsTouch
  else if slot == 0xB0 then rowsMgmt
  else []

end Sys2Proof.Machine
end

