-- ==== Sys2Proof/Machine/SclTable.lean ====
section
/-!
DEFINITION. The reset values of the scaler coefficients, worked out from the procedure of R259: for each phase the
eight horizontal and the four vertical taps, in units of 1/256.
-/
namespace Sys2Proof.Machine

/-- Horizontal taps, phases 0 to 15 (R259). -/
def sclH0 : List (List Int) := [
    [0, 0, 0, 256, 0, 0, 0, 0],
    [0, 1, -4, 256, 4, -1, 0, 0],
    [-1, 2, -7, 257, 7, -3, 1, 0],
    [-1, 4, -10, 255, 11, -4, 1, 0],
    [-1, 5, -13, 253, 15, -5, 2, 0],
    [-2, 6, -16, 253, 20, -7, 2, 0],
    [-2, 7, -19, 251, 24, -8, 3, 0],
    [-2, 8, -22, 251, 28, -10, 3, 0],
    [-3, 9, -24, 248, 33, -11, 4, 0],
    [-3, 10, -27, 247, 38, -13, 4, 0],
    [-3, 10, -29, 245, 42, -14, 5, 0],
    [-3, 11, -31, 243, 47, -16, 5, 0],
    [-3, 12, -33, 240, 52, -17, 6, -1],
    [-4, 13, -35, 239, 57, -19, 6, -1],
    [-4, 13, -36, 235, 62, -20, 7, -1],
    [-4, 14, -38, 232, 67, -22, 8, -1]]

/-- Horizontal taps, phases 16 to 31 (R259). -/
def sclH1 : List (List Int) := [
    [-4, 14, -39, 229, 72, -23, 8, -1],
    [-4, 15, -40, 224, 78, -25, 9, -1],
    [-4, 15, -41, 221, 83, -26, 9, -1],
    [-4, 15, -42, 218, 88, -28, 10, -1],
    [-4, 16, -43, 214, 94, -29, 10, -2],
    [-4, 16, -44, 211, 99, -31, 11, -2],
    [-4, 16, -44, 206, 105, -32, 11, -2],
    [-4, 16, -44, 201, 110, -33, 12, -2],
    [-4, 16, -45, 199, 115, -35, 12, -2],
    [-4, 16, -45, 193, 121, -36, 13, -2],
    [-4, 16, -45, 189, 126, -37, 13, -2],
    [-4, 16, -45, 184, 132, -38, 14, -3],
    [-4, 16, -44, 179, 137, -39, 14, -3],
    [-4, 16, -44, 174, 143, -40, 14, -3],
    [-3, 16, -44, 168, 148, -41, 15, -3],
    [-3, 16, -43, 163, 153, -42, 15, -3]]

/-- Horizontal taps, phases 32 to 47 (R259). -/
def sclH2 : List (List Int) := [
    [-3, 15, -42, 158, 158, -42, 15, -3],
    [-3, 15, -42, 153, 163, -43, 16, -3],
    [-3, 15, -41, 148, 168, -44, 16, -3],
    [-3, 14, -40, 143, 174, -44, 16, -4],
    [-3, 14, -39, 137, 179, -44, 16, -4],
    [-3, 14, -38, 132, 184, -45, 16, -4],
    [-2, 13, -37, 126, 189, -45, 16, -4],
    [-2, 13, -36, 121, 193, -45, 16, -4],
    [-2, 12, -35, 115, 199, -45, 16, -4],
    [-2, 12, -33, 110, 201, -44, 16, -4],
    [-2, 11, -32, 105, 206, -44, 16, -4],
    [-2, 11, -31, 99, 211, -44, 16, -4],
    [-2, 10, -29, 94, 214, -43, 16, -4],
    [-1, 10, -28, 88, 218, -42, 15, -4],
    [-1, 9, -26, 83, 221, -41, 15, -4],
    [-1, 9, -25, 78, 224, -40, 15, -4]]

/-- Horizontal taps, phases 48 to 63 (R259). -/
def sclH3 : List (List Int) := [
    [-1, 8, -23, 72, 229, -39, 14, -4],
    [-1, 8, -22, 67, 232, -38, 14, -4],
    [-1, 7, -20, 62, 235, -36, 13, -4],
    [-1, 6, -19, 57, 239, -35, 13, -4],
    [-1, 6, -17, 52, 240, -33, 12, -3],
    [0, 5, -16, 47, 243, -31, 11, -3],
    [0, 5, -14, 42, 245, -29, 10, -3],
    [0, 4, -13, 38, 247, -27, 10, -3],
    [0, 4, -11, 33, 248, -24, 9, -3],
    [0, 3, -10, 28, 251, -22, 8, -2],
    [0, 3, -8, 24, 251, -19, 7, -2],
    [0, 2, -7, 20, 253, -16, 6, -2],
    [0, 2, -5, 15, 253, -13, 5, -1],
    [0, 1, -4, 11, 255, -10, 4, -1],
    [0, 1, -3, 7, 257, -7, 2, -1],
    [0, 0, -1, 4, 256, -4, 1, 0]]

/-- Vertical taps, phases 0 to 15 (R259). -/
def sclV0 : List (List Int) := [
    [0, 256, 0, 0],
    [-2, 255, 3, 0],
    [-5, 256, 5, 0],
    [-7, 255, 8, 0],
    [-9, 254, 11, 0],
    [-11, 252, 15, 0],
    [-12, 251, 18, -1],
    [-14, 249, 22, -1],
    [-15, 247, 25, -1],
    [-17, 245, 29, -1],
    [-18, 243, 33, -2],
    [-19, 240, 37, -2],
    [-19, 236, 42, -3],
    [-20, 233, 46, -3],
    [-21, 230, 50, -3],
    [-21, 226, 55, -4]]

/-- Vertical taps, phases 16 to 31 (R259). -/
def sclV1 : List (List Int) := [
    [-21, 222, 60, -5],
    [-22, 219, 64, -5],
    [-22, 215, 69, -6],
    [-22, 210, 74, -6],
    [-22, 206, 79, -7],
    [-22, 201, 85, -8],
    [-21, 195, 90, -8],
    [-21, 191, 95, -9],
    [-21, 187, 100, -10],
    [-20, 181, 106, -11],
    [-20, 176, 111, -11],
    [-19, 170, 117, -12],
    [-19, 166, 122, -13],
    [-18, 160, 128, -14],
    [-17, 155, 133, -15],
    [-17, 149, 139, -15]]

/-- Vertical taps, phases 32 to 47 (R259). -/
def sclV2 : List (List Int) := [
    [-16, 144, 144, -16],
    [-15, 139, 149, -17],
    [-15, 133, 155, -17],
    [-14, 128, 160, -18],
    [-13, 122, 166, -19],
    [-12, 117, 170, -19],
    [-11, 111, 176, -20],
    [-11, 106, 181, -20],
    [-10, 100, 187, -21],
    [-9, 95, 191, -21],
    [-8, 90, 195, -21],
    [-8, 85, 201, -22],
    [-7, 79, 206, -22],
    [-6, 74, 210, -22],
    [-6, 69, 215, -22],
    [-5, 64, 219, -22]]

/-- Vertical taps, phases 48 to 63 (R259). -/
def sclV3 : List (List Int) := [
    [-5, 60, 222, -21],
    [-4, 55, 226, -21],
    [-3, 50, 230, -21],
    [-3, 46, 233, -20],
    [-3, 42, 236, -19],
    [-2, 37, 240, -19],
    [-2, 33, 243, -18],
    [-1, 29, 245, -17],
    [-1, 25, 247, -15],
    [-1, 22, 249, -14],
    [-1, 18, 251, -12],
    [0, 15, 252, -11],
    [0, 11, 254, -9],
    [0, 8, 255, -7],
    [0, 5, 256, -5],
    [0, 3, 255, -2]]

def sclHTable : List (List Int) := sclH0 ++ sclH1 ++ sclH2 ++ sclH3
def sclVTable : List (List Int) := sclV0 ++ sclV1 ++ sclV2 ++ sclV3

/-- A signed coefficient as its ten bits. -/
def coefBits (v : Int) : Nat := (v % 1024).toNat

def tapPair (row : List Int) (m : Nat) : Nat :=
  coefBits (row.getD (2 * m) 0) + coefBits (row.getD (2 * m + 1) 0) * 2 ^ 16

/-- The reset value of the coefficient register `o` bytes after SCL_HCOEF_0_0_0; both tables reset alike. -/
def sclReset (o : Nat) : Nat :=
  if o < 0x800 then tapPair (sclHTable.getD (o / 16 % 64) []) (o / 4 % 4)
  else if 0x1000 ≤ o && o < 0x1400 then tapPair (sclVTable.getD (o / 8 % 64) []) (o / 4 % 2)
  else 0

end Sys2Proof.Machine
end

