-- ==== Sys2Proof/Machine/State.lean ====
section
/-!
DEFINITION. The machine's state as plain data: the register banks, memory, and everything the blocks hold beyond their
registers. Tables are sparse: an unlisted key reads as its reset value.
Readings and choices beyond the spec's plain words: log entries 2, 6, 8 and 9.
-/
namespace Sys2Proof.Machine

/-- An entry of the timestamp FIFO (R37): event time in 2^-16 ns, and what the message carried. -/
structure TsEntry where
  ev : Nat
  seqId : Nat
  msgType : Nat
  quad : Nat
  orgSec : Nat
  orgNs : Nat
  deriving DecidableEq, Repr

/-- Time and tick (R25 to R42). `now` is the counter in units of 2^-40 ns, `clk` counts its 2 ns clocks in REFCLK time; `claimAt` says since which
clock each line has been claimable, `metAt` since when each chamber's fence (chamber, address, value) has been met (R432). -/
structure TimeSt where
  now : Nat := 0
  clk : Nat := 0
  holdRef : Nat := 0
  armed : Option Int := none
  ppsLevel : Bool := false
  ppsSince : Nat := 0
  ppsLast : Option Nat := none
  tsFifo : List TsEntry := []
  nextN : Option Nat := none
  midDue : Bool := false
  claimAt : List (Nat × Nat) := []
  metAt : List ((Nat × Nat × Nat) × Nat) := []
  deriving DecidableEq, Repr

/-- What a core is doing: held in reset, executing, waiting in WFI, stopped by a double fault or its watchdog, halted for
debug, stalled on a read of the execute-in-place window, or waiting for a device store to complete. -/
inductive RunSt where
  | held | running | wfi | halted | debug | xip | store
  deriving DecidableEq, Repr

/-- A load stalled on the flash (R527), or an access of a T core to DRAM that waits for a frequency change (R355): destination, width in
bytes, sign extension, address, the instruction's own pc, whether its sequencer has been started elsewhere since (R48), and the bytes that a
store has to write. -/
structure XipLoad where
  rd : Nat
  width : Nat
  signed : Bool
  addr : Nat
  pc : DWord
  moved : Bool := false
  data : Option (List Byte) := none
  deriving DecidableEq, Repr

/-- A retired A-core store whose check has not returned (R86). -/
structure PStore where
  addr : Nat
  data : List Byte
  deriving DecidableEq, Repr

/-- One Norser core (R51 to R88): general registers, predicates, pc, CSRs, and what it waits for. `cyc` counts fifths of a
core clock; `wdLoad` is the REFCLK clock of the last watchdog load, `wdRun` that the count runs. -/
structure CoreSt where
  g : Tbl DWord := []
  preds : Byte := 1
  pc : DWord := 0
  status : DWord
  estatus : DWord := 0
  epc : DWord := 0
  ecause : DWord := 0
  eval : DWord := 0
  evec : DWord := 0
  scratch0 : DWord := 0
  scratch1 : DWord := 0
  nepc : DWord := 0
  nstatus : DWord := 0
  cyc : Nat := 0
  instret : Nat := 0
  run : RunSt := .held
  nmi : Bool := false
  notice : Option DWord := none
  more : Bool := false
  stores : List PStore := []
  xip : Option XipLoad := none
  wdLoad : Nat := 0
  wdRun : Bool := false
  deriving DecidableEq, Repr

/-- A dirty line of the A-core caches (R71, R394): base, 64 bytes, poison of each 32-byte sector, the cores that stored. -/
structure Line where
  base : Nat
  data : List Byte
  bad0 : Bool
  bad1 : Bool
  writers : List Nat
  deriving DecidableEq, Repr

/-- An event on its way to the Logbook (R418 to R424): `bad` lists the 64-bit payload words that hold a poisoned byte. -/
structure LogEv where
  typ : Nat
  master : Nat
  payload : List Byte
  time : Nat
  last : Nat
  rep : Nat := 1
  fold : Bool
  bad : List Nat := []
  deriving DecidableEq, Repr

/-- A record in the Stream area: offset, size in bytes, SEQ. -/
structure LogRec where
  off : Nat
  size : Nat
  seq : Nat
  deriving DecidableEq, Repr

/-- The Logbook beyond its registers: the queue, the newest record, the lost events not yet reported, KEEP as armed, the next
free offset of the area in use, the Stream-area records oldest first, and the spill position. -/
structure LogSt where
  queue : List LogEv := []
  newest : Option LogEv := none
  lostN : Nat := 0
  lostTyp : Nat := 0
  lostMaster : Nat := 0
  keep : Nat := 8
  free : Nat := 0
  recs : List LogRec := []
  oldestSeq : Nat := 1
  spillOff : Nat := 0
  spillNext : Nat := 0
  spilled : List LogRec := []
  spillBlk : List (Byte × Bool) := []
  deriving DecidableEq, Repr

/-- The response on the port to the last register access, memory access, debug access or SPI command; `reads` gives the reads a channel
served, in the order served: master, address, the bytes (none after a bus error) and which of them are poisoned. -/
inductive Resp where
  | none | ok | value (w : Nat) | bytes (d : List Byte) | busError | refused | stalled
  | reads (l : List (Nat × Nat × List Byte × List Bool))
  deriving DecidableEq, Repr

/-- What holds a tick sequencer inside an instruction (R48): nothing, WAIT.TICK, an FWAIT on (address, value), or a kick of
context `ctx` of a decode (true) or encode engine with its job record. -/
inductive SqWait where
  | none
  | tick
  | fwait (addr value : Nat)
  | kick (dec : Bool) (ctx : Nat) (job : List Byte)
  deriving DecidableEq, Repr

/-- A chamber member (R109, R110): descriptor copy, pipe, head, slot, detach, and its fence (address, value). -/
structure Member where
  desc : List Byte
  descIx : Nat
  lp : Nat
  head : Nat
  slot : Nat
  detach : Bool
  fence : Option (Nat × Nat)
  deriving DecidableEq, Repr

/-- A chamber (R109 to R112): members, armed with target tick and FLIP order, passed, and tick and member count of the latest
pass. -/
structure Chamber where
  members : List Member := []
  armed : Bool := false
  target : Nat := 0
  order : Nat := 0
  after : Nat := 0
  passed : Bool := false
  last : Option (Nat × Nat) := none
  deriving DecidableEq, Repr
/-- A barge as its sender forms it (R130, R131): TYPE, virtual channel, SPEC, payload; `tag` is the encode context and ring
offset that its leaving releases (R222). -/
structure Barge where
  typ : Nat
  vc : Nat
  spec : Nat
  data : List Byte
  tag : Option (Nat × Nat) := none
  deriving DecidableEq, Repr

/-- A block row on the wire (R127): four blocks of 16 bytes, of data after scrambling or of an ordered set. -/
structure Row where
  isData : Bool
  lanes : List (List Byte)
  deriving DecidableEq, Repr

/-- An encoded unit that a transmit DMA has to send: context, offset in its ring, bytes, IDR, frame counter, presentation time,
bytes already formed, and whether its ES_START was formed. -/
structure EsSend where
  ctx : Nat
  off : Nat
  len : Nat
  idr : Bool
  frame : Nat
  pres : List Byte
  sent : Nat
  started : Bool
  deriving DecidableEq, Repr

/-- An access unit being received on a quad (R150, R187, R189): `num` its arrival number, none while a join decides; `room` false
where its bytes or its entry do not fit (R192), `slot` that its index entry may be written; the bytes so far; what R182 found. -/
structure AuRx where
  ctx : Nat
  num : Option Nat
  len : Nat
  flags : Nat
  capture : List Byte
  off : Nat
  room : Bool
  slot : Bool
  data : List Byte
  put : Nat
  rap : Bool
  recov : Bool
  decided : Bool
  dropped : Bool
  deriving DecidableEq, Repr

/-- A barge sent and not acknowledged: its SEQ and the REFCLK clock of its launch. -/
structure SentBarge where
  seq : Nat
  clk : Nat
  barge : Barge
  deriving DecidableEq, Repr

/-- One quad of Barge Link beyond its registers (R122 to R161, R551). `waiting` holds the formed barges not yet sent, oldest
first; `replay` the sent ones not acknowledged, with SEQ; `resend` the SEQs still to be sent again; `avail`, `buf`, `peerRel`
the credits available, the peer's buffer and its last count for each VC; `rel` the credits the device has released; `feed` the pixel
barges of a slot that have not entered its transmit buffer (R146). -/
structure LinkSt where
  waiting : List Barge := []
  replay : List SentBarge := []
  resend : List Nat := []
  seq : Nat := 0
  acked : Nat := 4095
  replays : Nat := 0
  ackClk : Nat := 0
  alignDue : Bool := false
  rows : Nat := 0
  rowBuf : List Byte := []
  scr : List Nat := []
  dscr : List Nat := []
  wire : List Row := []
  buf : List Nat := [0, 0, 0]
  peerRel : List Nat := [0, 0, 0]
  initSeen : Bool := false
  expect : Nat := 0
  lastAcc : Nat := 4095
  discard : Bool := false
  nakSent : Bool := false
  unacked : Nat := 0
  rel : List Nat := [0, 0, 0]
  relSent : List Nat := [0, 0, 0]
  initSent : Bool := false
  credClk : Nat := 0
  txClk : Nat := 0
  rxClk : Nat := 0
  fresh : Bool := false
  peerFresh : Bool := false
  confSent : Nat := 0
  confGot : Nat := 0
  idleClk : Nat := 0
  slotCut : Nat := 0
  replyOpen : Bool := false
  replyCut : Bool := false
  units : List EsSend := []
  feed : List (Nat × Barge) := []
  cmd : Option (List Byte) := none
  msg : List Barge := []
  aus : List AuRx := []
  inject : List Nat := []
  deriving DecidableEq, Repr

/-- The test hardware of a quad (R171 to R174). In a test mode: the pattern register, the tenths of a bit time not yet complete, the bit times
and the bits sent since the mode started, the sent bit after which the next periodic inversion is counted, the inversions still to be made
as (lane, sent bit), and for each lane the bit time at which its checker began to load. Of an eye scan that runs, the tenths of a bit not
yet complete. -/
structure TestSt where
  gen : Nat := 0
  tenths : Nat := 0
  bits : Nat := 0
  sent : Nat := 0
  perAt : Nat := 0
  inj : List (Nat × Nat) := []
  load : List Nat := []
  eye : Option Nat := none
  deriving DecidableEq, Repr

/-- A decode job (R193): its context, the fields of its record, that the record is well formed (R196), and when it reached the
queue. -/
structure DecJob where
  ctx : Nat
  upto : Nat
  fence : Nat
  tick : Nat
  ok : Bool
  clk : Nat
  deriving DecidableEq, Repr

/-- An access unit whose number the receive DMA holds for retention (R191): extent in the ring, classified under R182, COMPLETE. -/
structure AuRec where
  num : Nat
  size : Nat
  cls : Bool
  complete : Bool
  deriving DecidableEq, Repr

/-- A RAP mark (R463): context's arrival number, capture time, NO_TIME, AU_LEN, and whether the partner was ACTIVE. -/
structure Mark where
  num : Nat
  capture : List Byte
  noTime : Bool
  len : Nat
  fromActive : Bool
  deriving DecidableEq, Repr

/-- A picture of the decoded picture buffer (R198, R201, R205): its buffer, its display entry but for ARRIVAL, REPEAT and DISCONT, its arrival
number, its taint, that the recovery of R205 lets later pictures refer to it without taint, POC and frame_num, whether it is used for
reference and waits for output, and the pictures it has waited for. -/
structure PicInfo where
  buf : Nat
  num : Nat
  entry : List Byte
  tainted : Bool
  excused : Bool
  poc : Int := 0
  frameNum : Nat := 0
  ref : Bool := true
  wait : Bool := true
  late : Nat := 0
  deriving DecidableEq, Repr

/-- A recovery point awaited (R205): the arrival number of the SEI picture, the POC or frame_num of the recovery-point picture, and that no
picture since has been damaged. -/
structure Recovery where
  num : Nat
  target : Int
  clean : Bool
  deriving DecidableEq, Repr

/-- A stream context beyond its registers (R187 to R208, R463, R468, R552): ring write offset, retained access units, highest
COMPLETE number since it was enabled, imposed DISCONT, join still open, pending job of an orphan, next access unit to replay;
the count J and the kept AU_STARTs of join assist; the partner's latest marks; and what decoding leaves: the pictures and the substitutes
of the decoded picture buffer, buffers of the last display entries, the buffer last decoded into, the last output picture's entry, a
DISCONT due, poison taint, whether a random-access point has been met, whether the sequence is unsupported, the recovery
points awaited, the POC of the recovery point reached last, the sequence in force, whether the latest IRAP picture began a sequence (so
that its RASL pictures go), and the access units decoded since the random-access point before the latest. -/
structure DecCtx where
  wr : Nat := 0
  aus : List AuRec := []
  newest : Nat := 0
  discont : Bool := false
  joining : Bool := false
  pend : Option DecJob := none
  replay : Option Nat := none
  joinJ : Nat := 0
  joinKept : List (List Byte × Nat) := []
  marks : List Mark := []
  pics : List PicInfo := []
  subs : List SubPic := []
  shown : List Nat := []
  prev : Option Nat := none
  lastOut : Option (List Byte) := none
  discDue : Bool := false
  poison : Bool := false
  started : Bool := false
  unsup : Bool := false
  seis : List Recovery := []
  recPoc : Option Int := none
  sps : Option DecSps := none
  noRasl : Bool := false
  hist : List AuIn := []
  deriving DecidableEq, Repr

/-- A decode engine beyond its registers (R185, R186): its queue in order, the place of the rotation, the context whose access unit
it has in hand, since when and into which buffer, the context of the previous picture, ns of engine time. -/
structure DecEng where
  queue : List DecJob := []
  turn : Nat := 0
  cur : Option Nat := none
  since : Nat := 0
  buf : Nat := 0
  last : Option Nat := none
  busyNs : Nat := 0
  deriving DecidableEq, Repr

/-- An encode job (R217); `ok` that its record is well formed (R218), `clk` when it reached the queue. -/
structure EncJob where
  ctx : Nat
  frame : Nat
  fence : Nat
  wait : Nat
  waitValue : Nat
  force : Bool
  gx : Int
  gy : Int
  ok : Bool
  clk : Nat
  deriving DecidableEq, Repr

/-- What an encode context knows of one tile as the decoder shows it (R235): AGE, none where unknown; PRES; VEILED; carried; coded in place of
its trial on an IDR, and so still to be coded. -/
structure EncTile where
  age : Option Nat := some 0
  pres : Nat := 0
  veiled : Bool := false
  carried : Bool := false
  redo : Bool := false
  deriving DecidableEq, Repr

/-- The state of an encode context from earlier frames (R218, R227, R230, R235): F_p, fullness after removal in 1/NUM bit, QP, the
bits and count of searched tiles, whether an IDR is due, whether a first frame or new sequence is, coded frames since the last IDR and its
FRAME (R229); the reference picture, the half of the work area that holds it (R239), and the vector of each of its 16×16 blocks, by
column and row, none where it is intra (R224). -/
structure EncCore where
  fp : Option Nat := none
  full : Int := 0
  qp : Nat := 0
  bits : Nat := 0
  damaged : Nat := 0
  idrDue : Bool := false
  newCvs : Bool := true
  sinceIdr : Nat := 0
  tiles : List EncTile := []
  idrFrame : Nat := 0
  ref : List Nat := []
  refC : List Nat := []
  half : Nat := 0
  vecs : List ((Nat × Nat) × Option (Int × Int)) := []
  deriving DecidableEq, Repr

/-- A coded access unit: its bytes, IDR, F, PRES, fence, the state after it, and what the status registers then show. -/
structure EncUnit where
  data : List Byte
  idr : Bool
  frame : Nat
  pres : Nat
  fence : Nat
  core : EncCore
  qpLast : Nat
  spent : Bool
  carried : Nat
  deriving DecidableEq, Repr

/-- An encode context beyond its registers: its state, a unit that waits for room (R223), the pending job of an orphan. -/
structure EncCtx where
  core : EncCore := {}
  held : Option EncUnit := none
  pend : Option EncJob := none
  deriving DecidableEq, Repr

/-- An encode engine beyond its registers (R213, R241). -/
structure EncEng where
  queue : List EncJob := []
  turn : Nat := 0
  cur : Option Nat := none
  since : Nat := 0
  last : Option Nat := none
  busyNs : Nat := 0
  deriving DecidableEq, Repr

/-- A rectangle of pixels: left, top, width, height. -/
structure Rect where
  x : Nat
  y : Nat
  w : Nat
  h : Nat
  deriving DecidableEq, Repr

/-- A resolved picture (R249, R252): stored format, plane bases, row pitch in bytes, the window that SRC_X and SRC_Y count from, and
the source rectangle within the planes. -/
structure Pic where
  fmt : Nat
  planes : List Nat
  pitch : Nat
  window : Rect
  src : Rect
  deriving DecidableEq, Repr

/-- An attached layer (R244 to R260, R308): its descriptor as applied and what the latch lines made of it. Times are in 2^-16 ns.
`spoilt` is the POISON cause of R319, `tiles` the tiles it reached in this frame; `vis` the visible region and `cause` and `age` the
results of the last latch line; `uflow` that an underflow lasts; `rows` the plane rows fetched in this frame. -/
structure Layer where
  lp : Nat
  head : Nat
  slot : Nat
  descIx : Nat
  desc : List Byte
  fresh : Bool := true
  pic : Option Pic := none
  buf : Option (Nat × Nat) := none
  inSlot : Option (Nat × Nat) := none
  held : Bool := false
  taint : Bool := false
  poison : Bool := false
  timed : Bool := false
  arr : Bool := false
  ref : Option Int := none
  frozen : Bool := false
  noisy : Bool := false
  spoilt : Bool := false
  valid : Bool := true
  wait : Bool := false
  waited : Bool := false
  scalers : Bool := false
  cause : Nat := 0
  age : Nat := 0
  vis : List Rect := []
  veiled : Bool := false
  tiles : List Nat := []
  uflow : Bool := false
  rows : List (Nat × Nat) := []
  blocks : Nat := 0
  deriving DecidableEq, Repr

/-- A row being fetched into a head's FIFO (R266, R288): first block address, blocks asked for, bytes arrived, and the
REFCLK clock at which the row was asked for (R349). -/
structure Fetch where
  lp : Nat
  plane : Nat
  row : Nat
  addr : Nat
  blocks : Nat
  got : List Byte := []
  clk : Nat := 0
  deriving DecidableEq, Repr

/-- The veil of one layer in a frame (R329, R331): its rectangle, the tiles it is visible in, whether a fault cause applies, and the
five character codes of its glyph. -/
structure VeilItem where
  rect : Rect
  tiles : List Nat
  fault : Bool
  glyph : Option (List Nat)
  slot : Nat
  deriving DecidableEq, Repr

/-- What a head owes to a chamber that has passed (R111): FLIP order, tick of the pass, the members. -/
structure Owed where
  order : Nat
  tick : Nat
  members : List Member
  deriving DecidableEq, Repr

/-- A head beyond its registers (R274 to R299). The frame in hand belongs to `tick`; `line` is its line, negative in blanking;
`latched` that its latch line has passed, `ended` that its last active line has, `drawing` that an active line is being drawn, with the
ports whose write buffer is full on it; `badTiles` and `prevBad` the tiles of R327 with the line from which they are veiled, in this frame
and the previous one; `portBad` the tiles that the writeback ports are to find so as the line ends; `pals` and `prevPals` the glyph colours of
the lines drawn in this frame and in the previous one; `late` the rows of an earlier frame still to arrive. The first active line lies `skewT` (2^-40 ns) plus
`skewL` lines after its nominal time; `fp` is this frame's front-porch change, `nextFp` the next frame's. -/
structure HeadSt where
  tick : Nat := 0
  second : Bool := false
  line : Int := 0
  latched : Bool := false
  ended : Bool := true
  quietAt : Nat := 0
  skewT : Int := 0
  skewL : Int := 0
  fp : Int := 0
  nextFp : Int := 0
  startNs : Nat := 0
  firstTick : Option Nat := none
  chamber : Bool := false
  commit : Bool := false
  resync : Bool := false
  trunc : Bool := false
  flip : Bool := false
  crc : Nat := 0
  prevCrc : Nat := 0
  prevW : Nat := 0
  prevH : Nat := 0
  prevVeiled : Nat := 0
  uflows : Nat := 0
  prevUflow : Nat := 0
  poison : Bool := false
  prevPoison : Bool := false
  unlocked : Bool := false
  dip : Bool := false
  prevDip : Bool := false
  certDip : Bool := false
  cert : List Byte := []
  certs : List (Nat × List Byte) := []
  veiled : Nat := 0
  maxAge : Nat := 0
  amap : List Nat := []
  badTiles : List (Nat × Nat) := []
  prevBad : List (Nat × Nat) := []
  portBad : List Nat := []
  pals : List (List Nat) := []
  prevPals : List (List Nat) := []
  drawing : Option Nat := none
  hurt : List Nat := []
  prevHurt : List Nat := []
  veil : List VeilItem := []
  prevVeil : List VeilItem := []
  changed : List Rect := []
  fifo : List Fetch := []
  late : List Fetch := []
  owed : List Owed := []
  blocks : Nat := 0
  deriving DecidableEq, Repr

/-- A writeback port beyond its registers (R294 to R299): the frame being written, the last one written with its size, its tile DAMAGE bits' inputs from the previous
frame, sums of the lines of a reduction, the chroma of a luma row that waits for its pair, and finished sidecar entries. -/
structure WbSt where
  frame : Option Nat := none
  last : Option (Nat × Nat × Nat) := none
  sums : List (List Nat) := []
  lines : Nat := 0
  chroma : Option (List (List Nat)) := none
  entries : List Nat := []
  clean : Bool := false
  deriving DecidableEq, Repr

/-- A frame of a baseband input being received (R148, R149, R253 to R255): FRAME_START fields, arrival stamp, whether its pixels are
stored, and the payloads received by line and first pixel. -/
structure InFrame where
  w : Nat
  h : Nat
  fmt : Nat
  stamp : Nat
  store : Bool
  parts : List ((Nat × Nat) × List Byte)
  deriving DecidableEq, Repr

/-- A baseband input beyond its registers: complete frames, the frame being received, and the last 16 complete frames with CRC and
size (R316). -/
structure InSt where
  num : Nat := 0
  cur : Option InFrame := none
  hist : List (Nat × Nat × Nat × Nat) := []
  deriving DecidableEq, Repr

/-- A first-seen record (R306): pairs of value and tick oldest first, the value dropped last, the entry of the previous release. -/
structure SeenRec where
  pairs : List (Nat × Nat) := []
  dropped : Option Nat := none
  last : Nat := 0
  deriving DecidableEq, Repr

/-- A read in a channel's read queue (R343): master, address, bytes, whether it was promoted, and the REFCLK clock at which it came. -/
structure RdReq where
  m : Nat
  a : Nat
  n : Nat
  promoted : Bool
  clk : Nat
  deriving DecidableEq, Repr

/-- A DDR channel beyond its registers: REFCLK ns of the next refresh (R347); the training operation in hand, its row, and whether it
has started (R351, R352); reads that wait; code words asked for in the last 50 µs, by REFCLK clock (R358); the REFCLK clock at which the
last read was served (R344). -/
structure DdrCh where
  next : Nat := 0
  trn : Option (Nat × Nat × Bool) := none
  rq : List RdReq := []
  asked : List (Nat × Nat) := []
  lastRd : Nat := 0
  deriving DecidableEq, Repr

/-- Where a frequency change stands (R355): none, the PLL locks, a window is searched, or the change runs. -/
inductive FcStage where
  | idle | lock | search | change
  deriving DecidableEq, Repr

/-- A permitted write to DRAM that waits for a frequency change to end (R355): master, address, bytes, and whether they are poison. -/
structure FcWrite where
  m : Nat
  a : Nat
  d : List Byte
  bad : Bool
  deriving DecidableEq, Repr

/-- What a master asked of DRAM while a frequency change runs, done when it ends (R355): the effects of a read of code words by master `m`, an
operation of the checker test window, the end of a Churn scan after the rewrite owed, a barge that BL_TXQ_CMD forms, and a snapshot's data. -/
inductive LateOp where
  | read (m : Nat) (us : List Nat)
  | diag (op u : Nat) (d : List Byte) (chk : Nat)
  | abort
  | txq (q typ spec a n : Nat)
  | snap (q t : Nat) (rs : List (Nat × Nat))
  | mark (i : Nat) (k : Mark)
  deriving DecidableEq, Repr

/-- An entry of a check-value unit's queue (R409): the register written, by its offset in the unit; what that register held before; the ns
at which the unit has acted on it; for a compare, whether it finds a mismatch, and its result. -/
structure CvuEntry where
  reg : Nat
  was : Word
  done : Nat
  outcome : Option (Bool × Nat)
  deriving DecidableEq, Repr

/-- A frequency change: its stage, the REFCLK clock at which that stage began, the writes that wait at their ports, and what else waits. -/
structure FcSt where
  stage : FcStage := .idle
  clk : Nat := 0
  writes : List FcWrite := []
  late : List LateOp := []
  deriving DecidableEq, Repr

/-- Churn beyond its registers (R374 to R376): the unit read whose rewrite is still to come, with whether a write reached it since, and
the first REFCLK clock at which the rate limit allows a read. -/
structure ChurnSt where
  unit : Option (Nat × Bool) := none
  clk : Nat := 0
  deriving DecidableEq, Repr

/-- Telemetry dumps (R433): the REFCLK clock at which the last periodic dump fell due, and the tick of the last boundary dump. -/
structure DumpSt where
  clk : Nat := 0
  tick : Option Nat := none
  deriving DecidableEq, Repr
/-- An operator command in the carry buffer (R451): its SEQ, header and padded payload, and the count of releases when accepted. -/
structure Cmd where
  seq : Nat
  data : List Byte
  since : Nat
  deriving DecidableEq, Repr

/-- A snapshot being received (R467): target tick, SNAP_DATA barges and running CRC so far, and whether one was refused. -/
structure SnapRx where
  tick : Nat
  count : Nat
  crc : Nat
  bad : Bool
  deriving DecidableEq, Repr

/-- The pair block beyond its registers (R438 to R473): the carry buffer and highest SEQ used; releases so far; what boundary n sampled
and, where the message fixes it, the own list (count, bytes, CARRIED); partner messages held for this tick and the next, the one that
counts; the miss and the mismatch or ROLE_BAD of this tick, MATCH, and the partner's digest; the chip's digest (tick, CRC, HEADS); a full
compare due, the state CRCs computed last, the CRC to be sent; equal digests in a row up to tick `eqTick`, a full compare equal since
READY; the ready ticks of this chip and of its partner, the tick in which both were last cancelled, and the one reached; kicks of this tick and the last; HB_OUT's last pulse in
µs; pin values taken that do not act yet, newest first, with their times; SWAP_DUE answered; phases of the tick still due; the health word; a
snapshot being received. -/
structure PairSt where
  carry : List Cmd := []
  hiSeq : Option Nat := none
  releases : Nat := 0
  stream : List Nat := []
  input : List Nat := []
  list : Option (Nat × List Byte × Bool) := none
  msgs : List AgreeMsg := []
  cur : Option AgreeMsg := none
  miss : Bool := false
  differ : Bool := false
  alike : Bool := false
  partner : Nat := 0
  dig : Option (Nat × Nat × Nat) := none
  fullDue : Bool := false
  states : List (Nat × Nat) := []
  eqRun : Nat := 0
  eqTick : Nat := 0
  stateOk : Bool := false
  readyAt : Option Nat := none
  partnerAt : Option Nat := none
  spoilt : Option Nat := none
  joinedAt : Option Nat := none
  kicked : Bool := false
  wasKicked : Bool := false
  pulse : Nat := 0
  taken : List (Nat × Nat) := []
  swapped : Bool := false
  deadlineDue : Bool := false
  releaseDue : Bool := false
  health : List Byte := List.replicate 32 0
  snap : Option SnapRx := none
  deriving DecidableEq, Repr

/-- A touch node (R478): consecutive scans at or above TH, below REL_TH and at or below −NEG_TH, the REFCLK clock at which it became
TOUCHED, and whether it was TOUCHED in a scan since the last report in an inbox. -/
structure TouchNode where
  above : Nat := 0
  under : Nat := 0
  neg : Nat := 0
  since : Nat := 0
  ever : Bool := false
  deriving DecidableEq, Repr

/-- The touch front end beyond its registers (R474 to R485): nodes; those whose baseline firmware or barges have set since EN; those
whose STUCK a write is to clear; the next scan is the first; start of the latest scan or test, and that a scan is in progress; the pins
are driven; when a node was last touched, or idle time began; a scan has ended since the last report, NOW of that report, STUCK or FAULT
changed since, a new owner, a report lost; the report queued; scans towards a drift step; when a new owner starts; when TOUCH_BASE was
last sent; when the latest test began. -/
structure TouchSt where
  nodes : Tbl TouchNode := []
  written : List Nat := []
  loaded : List Nat := []
  unstick : List Nat := []
  first : Bool := true
  start : Option Nat := none
  scan : Bool := false
  driving : Bool := false
  idle : Nat := 0
  fresh : Bool := false
  now : List Nat := []
  changed : Bool := false
  newOwner : Bool := false
  gap : Bool := false
  queued : Option (List Byte) := none
  drift : Nat := 0
  ownAt : Option Nat := none
  sent : Nat := 0
  testAt : Nat := 0
  deriving DecidableEq, Repr


/-- Where the device stands in its power sequence: waiting for its rails, held in reset, running, or in RETAIN or DEEP. -/
inductive Phase where
  | rails | reset | run | retain | deep
  deriving DecidableEq, Repr

/-- A flash operation in progress (R527): kind 0 PROGRAM, 1 ERASE_4K, 2 ERASE_64K, offset, the data to program, and the
REFCLK clock at which it began. -/
structure XspiOp where
  kind : Nat
  off : Nat
  data : List Byte
  clk : Nat
  deriving DecidableEq, Repr

/-- Power, reset, boot and pins beyond the registers. `kind` is the reset being taken; `clkPoint` the DVFS point of the
application-core clocks; `kwLoad` the REFCLK clock of the last keeper-watchdog load; `fuses` the version fuses blown; `keyHash` the
fused KEY_HASH, 32 bytes (none fused: DESIGN CHOICE, log entry 2); `warm`
the length, entry and digest kept in retention (R521); `vSlot` the 100 ns in which VDD_CORE was last sampled (R524), `released` the REFCLK clock
at which the latest core reset ended (R530). -/
structure PwrSt where
  phase : Phase := .run
  kind : Nat := 0
  railEn : Bool := true
  vid : Nat := 1
  thermN : Bool := true
  clkPoint : Nat := 1
  dvfsTo : Nat := 1
  woke : Bool := false
  kwLoad : Nat := 0
  fuses : Nat := 0
  keyHash : List Byte := List.replicate 32 0
  warm : Option (Nat × Nat × List Byte) := none
  xop : Option XspiOp := none
  rolePins : Nat := 3
  pairSel : Bool := false
  vSlot : Option Nat := none
  released : Nat := 0
  deriving DecidableEq, Repr

/-- A UART beyond its registers (R546, R548): bytes queued to send, bytes received, oldest first, and the REFCLK clock at which the byte
at the head of the send queue began. -/
structure UartSt where
  tx : List Byte := []
  rx : List Byte := []
  since : Nat := 0
  deriving DecidableEq, Repr

/-- What an I²C controller puts on its bus (R546). -/
inductive BusItem where
  | start
  | addr (a : Nat) (read : Bool)
  | write (b : Byte)
  | read
  | stop
  deriving DecidableEq, Repr
/-- The latest transfer of an I²C controller: what it puts on the bus, in order, and the SCL rate in kHz. -/
structure I2cSt where
  bus : List BusItem := []
  khz : Nat := 100
  deriving DecidableEq, Repr

/-- The test access port and the debug master (R543, R545): instruction, boundary register, bypass register, the access in progress, the outcome of the
latest one. -/
structure TapSt where
  ir : Nat := 2
  bsr : Nat := 0
  bypass : Bool := false
  req : Option Nat := none
  out : Nat := 0
  deriving DecidableEq, Repr

/-- Why a step ends with no next state although the spec describes the command. No command of this model raises one. -/
inductive Fault where
  /-- Raised by no meaning of this model. Safe: it is never an answer. -/
  | unused
  deriving DecidableEq, Repr

/-- Why a step gives no meaning to a command. -/
inductive Refusal where
  /-- Raised by an arm of exec whose command has no meaning yet. Safe: nothing can be proved of such a command. -/
  | notModelled (mnemonic : String)
  deriving DecidableEq, Repr

/-- The whole machine. `regs` holds the registers by offset from 0x50_0000_0000 (the shadow or pending copy of RWS fields),
`live` the live copies of RWS fields; `mem` the bytes of DRAM and of the addressable SRAMs; `chk` the stored check bits of a
code word XOR the correct ones; `flash` the boot flash;
`gpio` the levels that the board drives on the GPIO balls. -/
structure State where
  regs : Tbl Word := []
  live : Tbl Word := []
  mem : Tbl Byte := []
  chk : Tbl Nat := []
  flash : Tbl Byte := []
  latch : Tbl Word := []
  time : TimeSt := {}
  cores : Tbl CoreSt := []
  lines : List Line := []
  serv : List (Nat × Nat) := []
  log : LogSt := {}
  sqWait : Tbl SqWait := []
  sqReached : Tbl Nat := []
  chambers : Tbl Chamber := []
  flips : Nat := 0
  desc : Tbl (List Byte) := []
  inboxCur : Tbl Byte := []
  inboxPrev : Tbl Byte := []
  wq : Tbl (List Nat) := []
  ddr : Tbl DdrCh := []
  fc : FcSt := {}
  churn : ChurnSt := {}
  dump : DumpSt := {}
  links : Tbl LinkSt := []
  tests : Tbl TestSt := []
  dctx : Tbl DecCtx := []
  deng : Tbl DecEng := []
  ectx : Tbl EncCtx := []
  eeng : Tbl EncEng := []
  layers : List Layer := []
  heads : Tbl HeadSt := []
  wbs : Tbl WbSt := []
  ins : Tbl InSt := []
  seen : Tbl SeenRec := []
  pair : PairSt := {}
  touch : TouchSt := {}
  pwr : PwrSt := {}
  applies : List Nat := []
  uarts : Tbl UartSt := []
  cvus : Tbl (List CvuEntry) := []
  i2cs : Tbl I2cSt := []
  gpio : Word := 0
  tap : TapSt := {}
  resp : Resp := .none
  pending : List Instr := []
  deriving DecidableEq, Repr

/-- The newest record after power-on: RESET of kind POR (R416, R422). -/
def resetEvent : LogEv := { typ := 2, master := 0xFF, payload := List.replicate 16 0, time := 0, last := 0, fold := true }

/-- The machine as it leaves a power-on reset in an unpaired place (R416, R438, R507, R516): every register at the reset value of its
table, ALONE on the pins, the Keeper at the first word of the boot ROM, and in the Logbook the ARMED and RESET records that the
hardware writes: two modifications, SEQ 1 and 2 taken, the newest at offset 48, the Keep area used up to offset 96. -/
def State.reset : State :=
  { regs := [
      (0x60020, 4) /- LOG_WCOUNT_LO -/, (0x60028, 3) /- LOG_NEXT_SEQ_LO -/, (0x60030, 0x80000030) /- LOG_TAIL -/,
      (0x60034, 0x60) /- LOG_KEEP_END -/, (0x980004, 0x40070) /- STEP_STATUS -/, (0xA00030, 2) /- TOUCH_STATUS -/]
    mem := [
      (0x4200000000, 1) /- SEQ -/, (0x4200000018, 1) /- ARMED -/, (0x420000001A, 1) /- LEN -/, (0x420000001B, 0xFF), (0x420000001C, 1),
      (0x4200000028, 8) /- KEEP -/,
      (0x4200000030, 2) /- SEQ -/, (0x4200000048, 2) /- RESET -/, (0x420000004A, 1), (0x420000004B, 0xFF), (0x420000004C, 1)]
    log := { newest := some resetEvent, free := 96 }
    touch := { driving := true, newOwner := true } }

end Sys2Proof.Machine
end

