-- ==== Sys2Proof/Machine/Ops.lean ====
section
/-!
DEFINITION. The operations every block shares: the register banks, time, telemetry, the Logbook queue, checked memory
(R362 to R371), and write protection (R384 to R404).
Readings and choices beyond the spec's plain words: log entries 3, 5, 8, 9, 16 and 17.
-/
namespace Sys2Proof.Machine

/-- The three outcomes of a command on this machine. -/
abbrev Out := Host.Outcome State Fault Refusal

/-! ### The register banks -/

/-- The indices of offset `rem` in an array with these (stride, count) pairs, strides falling. -/
def dimIx : List (Nat × Nat) → Nat → Option (List Nat)
  | [], rem => if rem == 0 then some [] else none
  | (st, n) :: ds, rem =>
    if rem / st < n then (dimIx ds (rem % st)).map (rem / st :: ·) else none

def RegRow.ix (r : RegRow) (off : Nat) : Option (List Nat) :=
  if r.base ≤ off then dimIx r.dims (off - r.base) else none

/-- The row of the register at `off`, if the register space holds one there. -/
def rowAt (off : Nat) : Option RegRow := (slotRows (off / 0x10000)).find? (fun r => (r.ix off).isSome)

def RegRow.rstWord (r : RegRow) : Nat := r.fields.foldl (fun v f => v + f.rst * 2 ^ f.lo) 0

/-- What the register at `off` holds after a reset that restores it. -/
def rstOf (off : Nat) : Word :=
  if 0x411000 ≤ off && off < 0x412400 then BitVec.ofNat 32 (sclReset (off - 0x411000))
  else match rowAt off with
    | none => 0
    | some r => BitVec.ofNat 32 (r.rstWord + r.step * (((r.ix off).bind (·.head?)).getD 0))

def State.reg (s : State) (off : Nat) : Word := Tbl.get rstOf s.regs off
def State.setReg (s : State) (off : Nat) (v : Word) : State := { s with regs := Tbl.set rstOf s.regs off v }

/-- The live copy of a shadowed register. -/
def State.lreg (s : State) (off : Nat) : Word := Tbl.get rstOf s.live off
def State.setLreg (s : State) (off : Nat) (v : Word) : State := { s with live := Tbl.set rstOf s.live off v }

def State.fld (s : State) (f : Fld) : Nat := bits (s.reg f.addr).toNat f.hi f.lo
def State.lfld (s : State) (f : Fld) : Nat := bits (s.lreg f.addr).toNat f.hi f.lo
def State.bit (s : State) (f : Fld) : Bool := s.fld f == 1
def State.setFld (s : State) (f : Fld) (v : Nat) : State :=
  s.setReg f.addr (BitVec.ofNat 32 (putBits (s.reg f.addr).toNat f.hi f.lo v))
def State.setLfld (s : State) (f : Fld) (v : Nat) : State :=
  s.setLreg f.addr (BitVec.ofNat 32 (putBits (s.lreg f.addr).toNat f.hi f.lo v))
def State.setBit (s : State) (f : Fld) (b : Bool) : State := s.setFld f b.toNat
/-- Bit `i` of a field, and that bit set. -/
def State.bitAt (s : State) (f : Fld) (i : Nat) : Bool := s.fld f / 2 ^ i % 2 == 1
def State.orFld (s : State) (f : Fld) (v : Nat) : State := s.setFld f (s.fld f ||| v)
def State.putBitAt (s : State) (f : Fld) (i : Nat) (b : Bool) : State :=
  s.setFld f (putBits (s.fld f) i i b.toNat)
/-- A saturating counter register raised by `n`. -/
def State.bump (s : State) (f : Fld) (n : Nat := 1) : State :=
  s.setFld f (satAdd (f.hi + 1 - f.lo) (s.fld f) n)
def State.setFlds (s : State) (l : List (Fld × Nat)) : State := l.foldl (fun s p => s.setFld p.1 p.2) s
/-- A 64-bit value held in a _LO and a _HI register. -/
def State.reg64 (s : State) (lo hi : Nat) : Nat := (s.reg lo).toNat + 2 ^ 32 * (s.reg hi).toNat
def State.setReg64 (s : State) (lo hi v : Nat) : State :=
  (s.setReg lo (BitVec.ofNat 32 v)).setReg hi (BitVec.ofNat 32 (v / 2 ^ 32))
/-- The live copies of the registers at `offs` take the shadow values. -/
def State.goLive (s : State) (offs : List Nat) : State := offs.foldl (fun s o => s.setLreg o (s.reg o)) s
/-- The bank's entries in an offset range: every register there that differs from its reset value. -/
def State.regsIn (s : State) (lo hi : Nat) : List (Nat × Word) := s.regs.filter (fun e => lo ≤ e.1 && e.1 < hi)

/-! ### Cores -/

/-- A core held in reset (R54, R80, R81): cores 0 to 7 of profile A, 8 to 11 T, 12 K. -/
def CoreSt.reset (c : Nat) : CoreSt :=
  { status := if c = 12 then 0x18 else 0x08
    run := if c = 12 then .running else .held
    pc := if c = 12 then 0x5F00000000 else 0 }
def State.core (s : State) (c : Nat) : CoreSt := Tbl.get CoreSt.reset s.cores c
def State.setCore (s : State) (c : Nat) (x : CoreSt) : State := { s with cores := Tbl.set CoreSt.reset s.cores c x }

/-! ### Time (R25 to R28) -/

/-- What one 2 ns clock adds to the counter, in 2^-40 ns (R26). -/
def State.timeInc (s : State) : Nat := (2 * (2 ^ 40 + sext 32 (s.fld F.TIME_RATE_RATE))).toNat
/-- The counter in whole nanoseconds. -/
def State.nowNs (s : State) : Nat := s.time.now / 2 ^ 40
/-- A time in 2^-16 ns as the 96-bit value of R25. -/
def triple (t16 : Nat) : Nat :=
  t16 / (65536 * 1000000000) * 2 ^ 48 + t16 / 65536 % 1000000000 * 65536 + t16 % 65536
/-- The counter in the layout of R25. -/
def State.nowTriple (s : State) : Nat := triple (s.time.now / 2 ^ 24)
/-- Nanoseconds of a 96-bit time value. -/
def tripleNs (v : Nat) : Nat := v / 2 ^ 48 * 1000000000 + v / 65536 % 2 ^ 32
def State.reg96 (s : State) (o : Nat) : Nat :=
  (s.reg o).toNat + 2 ^ 32 * (s.reg (o + 4)).toNat + 2 ^ 64 * (s.reg (o + 8)).toNat
def State.setReg96 (s : State) (o v : Nat) : State :=
  ((s.setReg o (BitVec.ofNat 32 v)).setReg (o + 4) (BitVec.ofNat 32 (v / 2 ^ 32))).setReg (o + 8) (BitVec.ofNat 32 (v / 2 ^ 64))
/-- The current tick number. -/
def State.tickNo (s : State) : Nat := s.reg64 R.TICK_COUNT_LO R.TICK_COUNT_HI

/-! ### Telemetry (R431, R432) -/

def State.teleAdd (s : State) (i n : Nat) : State :=
  let v := s.fld (F.TELE_CNT_LO_VALUE i) + 2 ^ 32 * s.fld (F.TELE_CNT_HI_VALUE i) + n
  let s := (s.setFld (F.TELE_CNT_LO_VALUE i) v).setFld (F.TELE_CNT_HI_VALUE i) (v / 2 ^ 32)
  if v < 2 ^ 48 then s else (s.setBit (F.TELE_CNT_HI_OVF i) true).orFld F.TELE_ERR_ERR 4

/-- Whether QUAL names instance `inst` of event `ev`: the low eight bits for masters, every instance only where R431 says so. -/
def teleQual (ev qual inst : Nat) : Bool :=
  if ev == 0x03 || ev == 0x04 then qual == 0xFFFF || qual % 256 == inst
  else if ev == 0x16 then qual % 256 == inst
  else if ev ≤ 0x02 || ev == 0x05 || ev == 0x06 || (0x13 ≤ ev && ev ≤ 0x15) then true
  else qual == inst

/-- `n` events of kind `ev` at instance `inst` are counted by every counter that selects them. -/
def State.tele (s : State) (ev inst : Nat) (n : Nat := 1) : State :=
  (s.regsIn 0x71000 0x71400).foldl (fun s e =>
    if bits e.2.toNat 23 16 == ev && teleQual ev (bits e.2.toNat 15 0) inst then s.teleAdd ((e.1 - 0x71000) / 4) n else s) s

/-- A sample (in ns, or ticks for source 7) reaches every histogram unit that selects it. -/
def State.sample (s : State) (src inst v : Nat) : State :=
  (s.regsIn 0x73000 0x73040).foldl (fun s e =>
    let q := bits e.2.toNat 15 0
    if bits e.2.toNat 23 16 == src && (q == inst || (src ≤ 2 && q == 0xFFFF)) then
      let k := (e.1 - 0x73000) / 4
      let x := if src == 7 then v else v / 2 ^ bits e.2.toNat 27 24
      let b := min 31 (log2Floor 64 x)
      let s := s.bump (F.TELE_HBIN_COUNT k b)
      s.setFld (F.TELE_HMAX_MAX k) (max (s.fld (F.TELE_HMAX_MAX k)) (min x (2 ^ 32 - 1)))
    else s) s

/-! ### The Logbook queue (R419, R422 to R424) -/

def State.logTime (s : State) : Nat := s.nowNs % 2 ^ 64

/-- R424: whether event `e` folds into record `t`. -/
def LogEv.folds (e t : LogEv) : Bool :=
  e.fold && e.typ == t.typ && e.master == t.master && e.payload.length == t.payload.length &&
    e.payload.take 8 == t.payload.take 8
def LogEv.foldIn (t e : LogEv) : LogEv := { t with rep := satAdd 32 t.rep 1, last := e.time }

/-- LOG_WCOUNT counts a modification twice, once before and once after it (R425). -/
def State.logModified (s : State) : State :=
  s.setReg64 R.LOG_WCOUNT_LO R.LOG_WCOUNT_HI (s.reg64 R.LOG_WCOUNT_LO R.LOG_WCOUNT_HI + 2)

/-- An event that finds the queue full is lost; the first one lost in a row is remembered (R423). -/
def State.logDrop (s : State) (e : LogEv) : State :=
  let l := if s.log.lostN == 0 then { s.log with lostTyp := e.typ, lostMaster := e.master } else s.log
  ((({ s with log := { l with lostN := l.lostN + 1 } }).bump F.LOG_LOST_COUNT).orFld F.LOG_ERR_ERR 1).tele 0x15 0

/-- An event reaches the Logbook: it folds into the newest waiting entry, or into the newest record while none waits and no re-arm runs,
joins the queue, or is lost (R417, R423). One that may `wait` takes its place behind a full queue. -/
def State.logPut (s : State) (e : LogEv) (wait : Bool := false) : State :=
  match s.log.queue.getLast?, s.log.newest with
  | some t, _ =>
    if e.folds t then
      ({ s with log := { s.log with queue := s.log.queue.dropLast ++ [t.foldIn e] } }).tele 0x14 0
    else if s.log.queue.length < 64 || wait then { s with log := { s.log with queue := s.log.queue ++ [e] } }
    else s.logDrop e
  | none, some t =>
    if e.folds t && !s.bit F.LOG_STAT_ARMING then
      let t' := t.foldIn e
      let a := 0x4200000000 + 16 * s.fld F.LOG_TAIL_OFF
      let mem := Tbl.setN (fun _ => 0) (Tbl.setN (fun _ => 0) s.mem (a + 16) (leBytes 8 t'.last)) (a + 28) (leBytes 4 t'.rep)
      (({ s with mem := mem, log := { s.log with newest := some t' } }).logModified).tele 0x14 0
    else { s with log := { s.log with queue := [e] } }
  | none, none => { s with log := { s.log with queue := [e] } }

/-- A record as it is queued now; the payload is padded with zeros to a multiple of 16 bytes. -/
def State.logEvent (s : State) (typ master : Nat) (payload : List Byte) (fold : Bool) : LogEv :=
  { typ := typ, master := master, payload := slice payload 0 (16 * max 1 (ceilDiv payload.length 16)),
    time := s.logTime, last := s.logTime, fold := fold }
/-- The hardware writes a record (R422). -/
def State.logHw (s : State) (typ master : Nat) (payload : List Byte) (fold : Bool) : State := s.logPut (s.logEvent typ master payload fold)

/-- The poison-consumption record of R371: `row` is the consumer's row, `head` and `lp` name a layer fetch. -/
def State.poisonRec (s : State) (m a row : Nat) (head : Nat := 0xFF) (lp : Nat := 0xFFFF) : State :=
  s.logHw 0x50 m (leBytes 6 a ++ leBytes 1 m ++ leBytes 1 0 ++ leBytes 1 head ++ leBytes 2 lp ++ leBytes 1 row) true

/-! ### The address map (R14, R17) -/

inductive Region where
  | dram | gen | island | logb | seq | reg | rom | xspi | none
  deriving DecidableEq, Repr

/-- The usable top of DRAM; 0 while unset. -/
def State.usableTop (s : State) : Nat := s.fld F.DDR_TOP_GIB * 2 ^ 30
/-- Bytes of the execute-in-place window; an unlisted SIZE acts as its reset value (R5, R527). -/
def State.xspiSize (s : State) : Nat :=
  let z := s.fld F.MGMT_XSPI_CFG_SIZE
  2 ^ (20 + if z ≤ 8 then z else 4)

def State.region (s : State) (a : Nat) : Region :=
  if a < 0x1000000000 then (if a < s.usableTop then .dram else .none)
  else if 0x4000000000 ≤ a && a < 0x4000E00000 then .gen
  else if 0x4100000000 ≤ a && a < 0x4100100000 then .island
  else if 0x4200000000 ≤ a && a < 0x4200200000 then .logb
  else if 0x4300000000 ≤ a && a < 0x4300100000 then .seq
  else if 0x5000000000 ≤ a && a < 0x5001000000 then .reg
  else if 0x5F00000000 ≤ a && a < 0x5F00040000 then .rom
  else if 0x6000000000 ≤ a && a < 0x6000000000 + s.xspiSize then .xspi
  else .none

/-- The region that holds all `n` bytes from `a`. -/
def State.regionN (s : State) (a n : Nat) : Region :=
  if s.region a = s.region (a + n - 1) then s.region a else .none

def Region.sram : Region → Bool
  | .gen | .island | .logb | .seq => true
  | _ => false

/-! ### Code words and their outcomes (R362 to R368) -/

inductive Ecc where
  | clean
  | corrected (sym : Nat) (v : Nat)
  | poison
  | bad
  deriving DecidableEq, Repr

/-- Syndrome j of an error `delta` in the check bytes K0 to K3 (R362). -/
def synd (delta j : Nat) : Nat :=
  (gfMul (delta % 256) (gfPow (3 * j))) ^^^ (gfMul (delta / 256 % 256) (gfPow (2 * j))) ^^^
    (gfMul (delta / 65536 % 256) (gfPow j)) ^^^ (delta / 16777216 % 256)

/-- R363: the outcome of a DRAM code word whose stored check bytes differ from the correct ones by `delta`. -/
def dramEcc (delta : Nat) : Ecc :=
  if delta == 0 then .clean
  else if delta == 0xA5A5A5A5 then .poison
  else
    let s0 := synd delta 0
    let hit := (List.range 36).find? (fun e =>
      s0 != 0 && synd delta 1 == gfMul s0 (gfPow e) && synd delta 2 == gfMul (synd delta 1) (gfPow e) &&
        synd delta 3 == gfMul (synd delta 2) (gfPow e))
    match hit with
    | some e => .corrected (35 - e) s0
    | none => .bad

/-- The bytes of odd weight above one: a check bit's column has weight one. -/
def oddBytes : List Nat := (List.range 256).filter (fun v =>
  let w := ((List.range 8).map (fun k => v / 2 ^ k % 2)).foldl (· + ·) 0
  w % 2 == 1 && w != 1)
/-- `n` different members of a list, each picked from those left. -/
def pickCols (pick : Nat → Nat) : Nat → List Nat → List Nat
  | 0, _ => []
  | n + 1, l => let k := pick n % l.length; l.getD k 0 :: pickCols pick n (l.eraseIdx k)
/-- The check-matrix columns of data bits 0 to 63 (R368): different, of odd weight, otherwise free. -/
def hsiaoCols : List Nat := pickCols Config.hsiaoPick 64 oddBytes
def hsiaoCol (b : Nat) : Nat := hsiaoCols.getD b 0

/-- R368: the outcome of an SRAM word whose stored check bits differ from the correct ones by `delta`. -/
def sramEcc (delta : Nat) : Ecc :=
  if delta == 0 then .clean
  else if delta == 0xFF then .poison
  else match (List.range 8).find? (fun k => delta == 2 ^ k) with
    | some k => .corrected (64 + k) 0
    | none => match (List.range 64).find? (fun b => delta == hsiaoCol b) with
      | some b => .corrected b 0
      | none => .bad

def Region.unit : Region → Nat
  | .dram => 32
  | _ => 8
def Region.ecc (r : Region) (delta : Nat) : Ecc := if r = .dram then dramEcc delta else sramEcc delta
/-- The delta of a unit in poison form (R364, R368). -/
def Region.poisonDelta (r : Region) : Nat := if r = .dram then 0xA5A5A5A5 else 0xFF

/-- Unit data with a corrected symbol or bit put right. -/
def eccFix (r : Region) (d : List Byte) : Ecc → List Byte
  | .corrected sym v =>
    if r = .dram then (if sym < 32 then d.set sym (d.getD sym 0 ^^^ BitVec.ofNat 8 v) else d)
    else (if sym < 64 then d.set (sym / 8) (d.getD (sym / 8) 0 ^^^ BitVec.ofNat 8 (2 ^ (sym % 8))) else d)
  | _ => d

def State.delta (s : State) (u : Nat) : Nat := Tbl.get (fun _ => 0) s.chk u
def State.unitEcc (s : State) (r : Region) (u : Nat) : Ecc := r.ecc (s.delta u)
def State.byte (s : State) (a : Nat) : Byte := Tbl.get (fun _ => 0) s.mem a
def State.bytes (s : State) (a n : Nat) : List Byte := Tbl.getN (fun _ => 0) s.mem a n
/-- Bytes stored as given, whatever the check bits. -/
def State.putBytes (s : State) (a : Nat) (d : List Byte) : State := { s with mem := Tbl.setN (fun _ => 0) s.mem a d }
def State.setDelta (s : State) (u v : Nat) : State := { s with chk := Tbl.set (fun _ => 0) s.chk u v }

/-- The channel of a DRAM address (R342). -/
def dramChan (a : Nat) : Nat := (bits a 10 8) ^^^ (bits a 13 11) ^^^ (bits a 16 14)

/-- R382: the first event of its kind is logged. -/
def State.eccLog (s : State) (code m a : Nat) : State :=
  let s := s.orFld F.ECC_ERR_ERR (2 ^ code)
  if s.bit F.ECC_LOG_HI_VALID then s
  else s.setFlds [(F.ECC_LOG_LO_ADDR, a / 8), (F.ECC_LOG_HI_ADDR, a / 2 ^ 32), (F.ECC_LOG_HI_MASTER, m),
    (F.ECC_LOG_HI_CODE, code), (F.ECC_LOG_HI_VALID, 1)]
def State.eccCeLog (s : State) (code m a sym : Nat) : State :=
  let s := (s.orFld F.ECC_ERR_ERR (2 ^ code)).tele 0x05 0
  if s.bit F.ECC_CELOG_HI_VALID then s
  else s.setFlds [(F.ECC_CELOG_LO_ADDR, a / 8), (F.ECC_CELOG_HI_ADDR, a / 2 ^ 32), (F.ECC_CELOG_HI_MASTER, m),
    (F.ECC_CELOG_HI_SYM, sym), (F.ECC_CELOG_HI_VALID, 1)]

/-- R369: an uncorrectable word, or `n` corrected ones, of an SRAM without addresses. -/
def State.storeUe (s : State) : State := (s.bump F.ECC_CNT_UE_SRAM_COUNT).orFld F.ECC_ERR_ERR (2 ^ 3)
def State.storeCe (s : State) (n : Nat) : State := s.bump F.ECC_CNT_CE_SRAM_COUNT n

/-- A write reaches unit `u`: a rewrite that Churn still has to make there will be dropped (R375). -/
def State.churnHit (s : State) (u : Nat) : State :=
  match s.churn.unit with
  | some (v, _) => if v = u then { s with churn := { s.churn with unit := some (v, true) } } else s
  | none => s

/-- R370: a transfer of master `m` at `a` of which parity found `e`: each word that failed took two replays. -/
def State.parity (s : State) (m a : Nat) (e : RowErrs) : State :=
  let n := e.mended + 2 * e.lasting.length
  let s := if n = 0 then s else (s.bump F.ECC_CNT_REPLAY_COUNT n).tele 0x06 0 n
  e.lasting.foldl (fun s i => (s.bump F.ECC_CNT_PARFAIL_COUNT).eccLog 4 m (a + 4 * i)) s

/-- What an engine met while it worked (R369, R370). -/
def State.engineErrs (s : State) (e : EngRun) : State := (s.storeCe e.mended).parity 0 0 ⟨[], e.replays⟩

/-- A unit read by master `m` reports its outcome (R365, R368, R382); an SRAM word is also written back (R368), a write for Churn (R375). -/
def State.noteUnit (s : State) (m : Nat) (r : Region) (u : Nat) : State :=
  let e := s.unitEcc r u
  match e with
  | .clean => s
  | .corrected sym _ =>
    if r = .dram then (s.bump F.ECC_CNT_CE_DRAM_COUNT).eccCeLog 0 m u sym
    else ((((s.churnHit u).putBytes u (eccFix r (s.bytes u 8) e)).setDelta u 0).bump F.ECC_CNT_CE_SRAM_COUNT).eccCeLog 2 m u sym
  | _ =>
    if r = .dram then (s.bump F.ECC_CNT_UE_DRAM_COUNT).eccLog 1 m u
    else (((if e = .bad then s.churnHit u else s).setDelta u 0xFF).bump F.ECC_CNT_UE_SRAM_COUNT).eccLog 3 m u

/-! ### Retired pages and the DRAM write queue (R344 to R346, R379) -/

def State.retired (s : State) (a : Nat) : Bool :=
  (s.regsIn 0x180100 0x180300).any (fun e => bits e.2.toNat 31 31 == 1 && bits e.2.toNat 23 0 == a / 4096 % 2 ^ 24)
def State.noteRetired (s : State) (m a : Nat) : State := (s.bump F.ECC_CNT_RET_COUNT).eccLog 6 m a

def State.queue (s : State) (c : Nat) : List Nat := Tbl.get (fun _ => []) s.wq c
def State.setQueue (s : State) (c : Nat) (q : List Nat) : State := { s with wq := Tbl.set (fun _ => []) s.wq c q }
def State.ddrCh (s : State) (c : Nat) : DdrCh := Tbl.get (fun _ => {}) s.ddr c
def State.setDdrCh (s : State) (c : Nat) (x : DdrCh) : State := { s with ddr := Tbl.set (fun _ => {}) s.ddr c x }
/-- A code word is asked for on channel `c`: DDR_PEAK50 keeps the most asked for in any 50 µs (R358). -/
def State.ddrAsk (s : State) (c : Nat) : State :=
  let l := (s.ddrCh c).asked.filter (fun e => decide (s.time.clk < e.1 + 25000))
  let l := match l.getLast? with
    | some e => if e.1 = s.time.clk then l.dropLast ++ [(e.1, e.2 + 1)] else l ++ [(s.time.clk, 1)]
    | none => [(s.time.clk, 1)]
  (s.setDdrCh c { s.ddrCh c with asked := l }).setFld (F.DDR_PEAK50_COUNT c)
    (max (s.fld (F.DDR_PEAK50_COUNT c)) (min (2 ^ 32 - 1) (l.foldl (fun n e => n + e.2) 0)))

/-- The oldest `n` pending writes of channel `c` reach memory. -/
def State.drain (s : State) (c n : Nat) : State :=
  (s.setQueue c ((s.queue c).drop n)).bump (F.DDR_CNT_WR_COUNT c) (min n (s.queue c).length)
/-- R346: a read of the code words `us` of channel `c` first drains every pending write up to the youngest to any of them; such a read
counts once. -/
def State.drainChan (s : State) (us : List Nat) (c : Nat) : State :=
  match (us.filterMap (fun u => if dramChan u = c then (s.queue c).idxOf? u else none)).max? with
  | none => s
  | some i => (s.drain c (i + 1)).bump (F.DDR_CNT_HAZ_COUNT c)
/-- A read of the code words `us` on the channels they lie in; each channel notes when it last served a read (R344). -/
def State.drainFor (s : State) (us : List Nat) : State :=
  ((us.map dramChan).eraseDups).foldl (fun s c =>
    let s := s.drainChan us c
    s.setDdrCh c { s.ddrCh c with lastRd := s.time.clk }) s

/-- R355, R527: an access to a region waits for the boot flash while it works, and for DRAM while a frequency change runs. -/
def State.waits (s : State) (r : Region) : Bool :=
  (decide (r = .xspi) && s.pwr.xop.isSome) || (decide (r = .dram) && decide (s.fc.stage = .change))
/-- What a master asked of DRAM meanwhile is done when the change ends. -/
def State.defer (s : State) (o : LateOp) : State := { s with fc := { s.fc with late := s.fc.late ++ [o] } }
/-- R344, R345: a write enters the queue of its channel, replacing one pending to the same code word; at HIGH a batch
drains to LOW. -/
def State.enqueue (s : State) (m u : Nat) : State :=
  let c := dramChan u
  let q := s.queue c
  let s := ((s.setQueue c ((q.filter (· != u)) ++ [u])).ddrAsk c).tele 0x04 m
  let n := (s.queue c).length
  if s.fld (F.DDR_WQ_HIGH c) ≤ n then s.drain c (n - s.fld (F.DDR_WQ_LOW c)) else s

/-! ### Checked reads -/

/-- What a read gives: the state after it, the bytes, which of them are poisoned, and whether it ended in a bus error. -/
structure RdRes where
  st : State
  data : List Byte
  bad : List Bool
  bus : Bool

def unitsOf (r : Region) (a n : Nat) : List Nat :=
  (List.range ((a + n - 1) / r.unit + 1 - a / r.unit)).map (fun i => (a / r.unit + i) * r.unit)

def isCore (m : Nat) : Bool := m ≤ 12

/-- Byte `a` as a reader sees it: corrected where the code corrects it; poisoned where it does not. -/
def State.seenByte (s : State) (r : Region) (a : Nat) : Byte × Bool :=
  let u := a / r.unit * r.unit
  match s.unitEcc r u with
  | .clean => (s.byte a, false)
  | .corrected sym v => ((eccFix r (s.bytes u r.unit) (.corrected sym v)).getD (a - u) 0, false)
  | _ => (s.byte a, true)

/-- The effects of reading the units `us`: drains of pending writes, counts and logs. -/
def State.readUnits (s : State) (m : Nat) (r : Region) (us : List Nat) : State :=
  us.foldl (fun s u =>
    let s := s.noteUnit m r u
    if r = .dram then (s.bump (F.DDR_CNT_RD_COUNT (dramChan u))).tele 0x03 m else s) (if r = .dram then s.drainFor us else s)
/-- A read of DRAM that a master starts while a frequency change runs is served when that ends (R355). No write gets in before it, so the data
is the same. -/
def State.readNow (s : State) (m : Nat) (r : Region) (us : List Nat) : State :=
  if r = .dram ∧ s.fc.stage = .change then s.defer (.read m us) else s.readUnits m r us
/-- The retired pages (R379) that `n` bytes from `a` touch. -/
def State.gonePages (s : State) (r : Region) (a n : Nat) : List Nat :=
  if r = .dram then ((List.range ((a + n - 1) / 4096 + 1 - a / 4096)).map (fun i => (a / 4096 + i) * 4096)).filter s.retired else []
/-- A read asks for the code words of `n` bytes from `a`, where they are in DRAM (R358). -/
def State.askUnits (s : State) (a n : Nat) : State :=
  if s.regionN a n = .dram then (unitsOf .dram a n).foldl (fun s u => s.ddrAsk (dramChan u)) s else s

/-- A read of `n` bytes at `a` by master `m` is served from memory (not register space). -/
def State.serve (s : State) (m a n : Nat) : RdRes :=
  let r := s.regionN a n
  match r with
  | .none | .reg => ⟨s, [], [], true⟩
  | .rom => ⟨s, (span (a - 0x5F00000000) n).map Config.bootRom, List.replicate n false, false⟩
  | .xspi => ⟨s, Tbl.getN (fun _ => 0xFF) s.flash (a - 0x6000000000) n, List.replicate n false, false⟩
  | _ =>
    match s.gonePages r a n with
    | [] =>
      let d := (span a n).map (s.seenByte r)
      ⟨s.readNow m r (unitsOf r a n), d.map (·.1), d.map (·.2), false⟩
    | gone =>
      let t := gone.foldl (fun s p => s.noteRetired m (max a p)) s
      let lost (b : Nat) : Bool := gone.contains (b / 4096 * 4096)
      if isCore m then ⟨t, [], [], true⟩
      else
        let d := (span a n).map (fun b => if lost b then (s.byte b, true) else s.seenByte r b)
        ⟨t.readNow m r ((unitsOf r a n).filter (fun u => !lost u)), d.map (·.1), d.map (·.2), false⟩
/-- A read of the general class is sampled on every channel that holds some of it (R432). The time it took is a free value (log entry 60). -/
def State.readLat (s : State) (a n : Nat) : State :=
  if (s.regsIn 0x73000 0x73040).isEmpty || s.region a ≠ .dram then s
  else (((unitsOf .dram a n).map dramChan).eraseDups).foldl (fun s c => s.sample 2 c (Config.readNs c a s.time.clk)) s
/-- An ordinary read: asked for and served at once. -/
def State.read (s : State) (m a n : Nat) : RdRes := ((s.askUnits a n).readLat a n).serve m a n

def RdRes.poisoned (r : RdRes) : Bool := r.bad.any id
/-- The bytes with poisoned ones replaced by zero. -/
def RdRes.zeroed (r : RdRes) : List Byte := (r.data.zip r.bad).map (fun p => if p.2 then 0 else p.1)

/-- Each code word or SRAM word in which a read at `a` by master `m` met poison gets its record (R371). -/
def RdRes.noted (r : RdRes) (m a row : Nat) : State :=
  let k := r.st.region a
  (unitsOf k a r.bad.length).foldl (fun s w =>
    if ((r.bad.drop (w - a)).take (w + k.unit - max a w)).any id then s.poisonRec m w row else s) r.st

/-- The bytes a DMA takes from a read at `a`: poisoned ones as zero; of a read that returned no data, what the device leaves. -/
def RdRes.dmaBytes (r : RdRes) (a n : Nat) : List Byte := if r.bus then (span a n).map Config.noData else r.zeroed

/-! ### Write protection (R385 to R397, R401, R402) -/

/-- R385: the unit of a master, none where it has no unit. -/
def unitOf (m : Nat) : Option Nat :=
  if m ≤ 12 then some m
  else if 0x10 ≤ m && m ≤ 0x1F then some (m - 0x10 + 13)
  else if 0x20 ≤ m && m ≤ 0x27 then some (m - 0x20 + 29)
  else if 0x28 ≤ m && m ≤ 0x2F then some (m - 0x28 + 37)
  else if 0x30 ≤ m && m ≤ 0x47 then some (m - 0x30 + 45)
  else if m == 0x60 then some 69 else if m == 0x61 then some 70 else if m == 0x62 then some 71
  else if 0x64 ≤ m && m ≤ 0x67 then some (m - 0x64 + 72)
  else if m == 0x7F then some 76 else none

/-- R388: whether live region `r` of unit `u` covers the 64-byte block of `a`. -/
def State.covers (s : State) (u r a : Nat) : Bool :=
  let st := s.lfld (F.MPU_RGN_START_LO_ADDR u r) * 64 + s.lfld (F.MPU_RGN_START_HI_ADDR u r) * 2 ^ 32
  let en := s.lfld (F.MPU_RGN_END_LO_ADDR u r) * 64 + s.lfld (F.MPU_RGN_END_HI_ADDR u r) * 2 ^ 32
  let b := a / 64 * 64
  s.lfld (F.MPU_RGN_START_HI_EN u r) == 1 && st ≤ b && b ≤ en

def State.permits (s : State) (m a : Nat) : Bool :=
  match unitOf m with
  | none => false
  | some u => (List.range 32).any (fun r => s.covers u r a)

def State.epochOf (s : State) (m : Nat) : Nat :=
  match unitOf m with
  | none => 0
  | some u => s.fld (F.MPU_EPOCH_EPOCH u)

/-- The device's record of a refused (or, with bit 7, maintenance-permitted) write. -/
def State.noticeRec (s : State) (m a kind : Nat) (precise : Bool) : State :=
  s.logHw 0x60 m (leBytes 6 a ++ leBytes 1 m ++ leBytes 1 kind ++ leBytes 2 (s.epochOf m) ++ leBytes 1 precise.toNat) true

/-- R396: one notice. -/
def State.notice (s : State) (m a kind : Nat) (precise : Bool) : State :=
  let s := (((s.noticeRec m a kind precise).bump F.MPU_NOTICE_CNT_COUNT).orFld F.MPU_ERR_KIND (2 ^ kind)).tele 0x16 m
  if s.bit F.MPU_NOTICE_HI_VALID then s
  else s.setFlds [(F.MPU_NOTICE_LO_ADDR, a), (F.MPU_NOTICE_HI_ADDR, a / 2 ^ 32), (F.MPU_NOTICE_HI_MASTER, m),
    (F.MPU_NOTICE_HI_KIND, kind), (F.MPU_NOTICE_HI_PRECISE, precise.toNat), (F.MPU_NOTICE_HI_VALID, 1),
    (F.MPU_NOTICE_EPOCH_EPOCH, s.epochOf m)]

/-- R386 on a memory write: permitted, permitted by maintenance alone, a bus error, or refused with a kind. -/
inductive Verdict where
  | permit | maint (kind : Nat) | bus | refuse (kind : Nat)
  deriving DecidableEq, Repr

def State.maintActive (s : State) : Bool := s.bit F.MPU_MAINT_ACTIVE

def State.judge (s : State) (m a : Nat) : Verdict :=
  match s.region a with
  | .none | .rom | .xspi | .reg => .bus
  | .logb => .refuse 1
  | .island =>
    if m == 12 then .permit else if m == 0x7F && s.maintActive then .maint 2 else .refuse 2
  | _ =>
    if s.permits m a then .permit else if m == 0x7F && s.maintActive then .maint 0 else .refuse 0

/-! ### Checked writes -/

/-- A code word of DRAM is written whole: good data, or data in poison form (R364, R367). -/
def State.storeWord (s : State) (m u : Nat) (d : List Byte) (bad : Bool) : State :=
  (((s.churnHit u).putBytes u d).setDelta u (if bad then 0xA5A5A5A5 else 0)).enqueue m u

/-- Bytes of one 64-bit SRAM word are written: a whole word replaces poison, a narrower store keeps it (R68, R368). -/
def State.storeSram (s : State) (r : Region) (u o : Nat) (d : List Byte) (bad : Bool) : State :=
  let s := s.churnHit u
  if d.length = 8 then (s.putBytes u d).setDelta u (if bad then 0xFF else 0)
  else match s.unitEcc r u with
    | .clean => (s.putBytes (u + o) d).setDelta u (if bad then 0xFF else 0)
    | .corrected sym v =>
      (s.putBytes u (overlay (eccFix r (s.bytes u 8) (.corrected sym v)) o d)).setDelta u (if bad then 0xFF else 0)
    | _ => (s.putBytes (u + o) d).setDelta u 0xFF

/-- Bytes [lo, hi) of `d`, which starts at address `a`, that fall into the unit at `u`. -/
def cut (a : Nat) (d : List Byte) (u sz : Nat) : Nat × List Byte :=
  let lo := max a u
  let hi := min (a + d.length) (u + sz)
  (lo - u, (d.drop (lo - a)).take (hi - lo))

/-- SRAM bytes are written word by word; `bad` marks the data as poison. -/
def State.storeSramBytes (s : State) (r : Region) (a : Nat) (d : List Byte) (bad : Bool) : State :=
  (unitsOf r a d.length).foldl (fun s u => let c := cut a d u 8; s.storeSram r u c.1 c.2 bad) s

/-- Whole DRAM code words are written; `bad` gives the poison of each. -/
def State.storeDramWords (s : State) (m a : Nat) : List (List Byte × Bool) → State
  | [] => s
  | (d, b) :: ws => (s.storeWord m a d b).storeDramWords m (a + 32) ws

/-- A core takes note of a refused store (R86): the first address is kept, further ones set MORE. -/
def State.coreNotice (s : State) (c : Nat) (a : DWord) : State :=
  let x := s.core c
  match x.notice with
  | none => s.setCore c { x with notice := some a }
  | some _ => s.setCore c { x with more := true }

/-- R394: a dirty line leaves the cache, checked against the rules of every core that stored into it; the last of them is its master. -/
def State.writeBack (s : State) (l : Line) : State :=
  let s := { s with lines := s.lines.filter (fun x => x.base != l.base) }
  let no := l.writers.filter (fun c => !s.permits c l.base)
  if no.isEmpty then
    let m := l.writers.getLastD 0
    if s.retired l.base then s.noteRetired m l.base
    else s.storeDramWords m l.base [(l.data.take 32, l.bad0), (l.data.drop 32, l.bad1)]
  else l.writers.foldl (fun s c => ((s.coreNotice c (BitVec.ofNat 64 l.base)).notice c l.base 5 false)) s

def State.lineAt (s : State) (a : Nat) : Option Line := s.lines.find? (fun l => l.base == a / 64 * 64)

/-- R75: a write by another master to a line held dirty first writes the line back. -/
def State.spillLine (s : State) (a : Nat) : State :=
  match s.lineAt a with
  | some l => s.writeBack l
  | none => s

/-- How a write ended. -/
inductive WrEnd where
  | done | bus | refused
  deriving DecidableEq, Repr

/-- The permitted write of `d` at `a` by master `m` meets the memory (R67, R367, R379): whole code words in DRAM, where it waits while a
frequency change runs (R355). -/
def State.land (s : State) (m a : Nat) (d : List Byte) (bad : Bool) : State × WrEnd :=
  let r := s.regionN a d.length
  if r = .dram then
    if a % 32 ≠ 0 || d.length % 32 ≠ 0 then (if isCore m || m == 0x7F then s else s.eccLog 5 m a, .bus)
    else if s.retired a then (s.noteRetired m a, if isCore m then .bus else .done)
    else if s.fc.stage = .change then ({ s with fc := { s.fc with writes := s.fc.writes ++ [⟨m, a, d, bad⟩] } }, .done)
    else
      let s := s.spillLine a
      ((span 0 (d.length / 32)).foldl (fun s i => s.storeWord m (a + 32 * i) ((d.drop (32 * i)).take 32) bad) s, .done)
  else if r.sram then (s.storeSramBytes r a d bad, .done)
  else (s, .bus)

/-- R508: writes that a reset master has not got into the memory system yet are discarded. -/
def State.dropWrites (s : State) (reset : Nat → Bool) : State :=
  if s.fc.writes.isEmpty then s else { s with fc := { s.fc with writes := s.fc.writes.filter (fun w => !reset w.m) } }

/-- A write within one 64-byte block by master `m`, judged and then performed (R386, R387, R396). -/
def State.write (s : State) (m a : Nat) (d : List Byte) (bad precise : Bool) : State × WrEnd :=
  match s.judge m a with
  | .bus => (s, .bus)
  | .refuse k => (s.notice m a k precise, .refused)
  | .permit => s.land m a d bad
  | .maint k => ((s.noticeRec m a (k + 128) precise)).land m a d bad

/-- A longer transfer of a master that is not a core: one write per 64-byte block, each judged on its own (R384, R395).
The result tells whether every block was written. -/
def State.writeBlocks (s : State) (m : Nat) : Nat → Nat → List Byte → State × Bool
  | 0, _, _ => (s, true)
  | f + 1, a, d =>
    if d.isEmpty then (s, true)
    else
      let n := min d.length (64 - a % 64)
      let w := s.write m a (d.take n) false false
      let rest := w.1.writeBlocks m f (a + n) (d.drop n)
      (rest.1, decide (w.2 = .done) && rest.2)

def State.writeAll (s : State) (m a : Nat) (d : List Byte) : State × Bool := s.writeBlocks m (d.length + 1) a d

/-- A transfer of an engine or port that ends at the first refused block; the result tells whether none was refused. -/
def State.writeTil (s : State) (m : Nat) : Nat → Nat → List Byte → State × Bool
  | 0, _, _ => (s, true)
  | f + 1, a, d =>
    if d.isEmpty then (s, true)
    else
      let n := min d.length (64 - a % 64)
      let w := s.write m a (d.take n) false false
      if w.2 = .refused then (w.1, false) else w.1.writeTil m f (a + n) (d.drop n)

/-- Whole 32-byte code words from `a`, the last filled up as the device leaves it. -/
def padWords (a : Nat) (d : List Byte) : List Byte :=
  d ++ (span (a + d.length) (ceilDiv d.length 32 * 32 - d.length)).map Config.pad
def State.writeRow (s : State) (m a : Nat) (d : List Byte) : State × Bool := s.writeTil m (d.length + 33) a (padWords a d)

/-- A write in 64-byte blocks, each judged on its own, that goes on after a refusal; the result tells whether none was refused. -/
def State.writeEach (s : State) (m : Nat) : Nat → Nat → List Byte → State × Bool
  | 0, _, _ => (s, true)
  | f + 1, a, d =>
    if d.isEmpty then (s, true)
    else
      let n := min d.length (64 - a % 64)
      let w := s.write m a (d.take n) false false
      let rest := w.1.writeEach m f (a + n) (d.drop n)
      (rest.1, decide (w.2 ≠ .refused) && rest.2)

/-- A fence word (R195): 8 bytes in SRAM, one code word in DRAM; address 0 means none. The result tells whether it was not refused. -/
def State.writeFence (s : State) (m a v : Nat) : State × Bool :=
  if a = 0 then (s, true)
  else
    let w := s.write m a (if s.region a = .dram then leBytes 32 v else leBytes 8 v) false false
    (w.1, decide (w.2 ≠ .refused))
/-- R195: the alignment of a fence address. -/
def State.fenceOk (s : State) (a : Nat) : Bool := if s.region a = .dram then a % 32 == 0 else a % 8 == 0

end Sys2Proof.Machine
end

