-- ==== Sys2Proof/Machine/Lines.lean ====
section
/-!
DEFINITION. The interrupt controller's view of the device (R89 to R94): the level of each line, which lines a target may
claim, and the application-core watchdog counts (R95, R96).
Readings and choices beyond the spec's plain words: log entry 42.
-/
namespace Sys2Proof.Machine

/-- Whether any bit of `mask` is set in both registers. -/
def State.both (s : State) (err en mask : Nat) : Bool := ((s.reg err).toNat &&& (s.reg en).toNat &&& mask) != 0
def State.anyOf (s : State) (off mask : Nat) : Bool := ((s.reg off).toNat &&& mask) != 0

/-- The queue of check-value unit `n`: what it has not acted on yet, and the compares it has acted on since the registers were last brought up
to date (R409, R411). -/
def State.cvuQueue (s : State) (n : Nat) : List CvuEntry := Tbl.get (fun _ => []) s.cvus n
def State.cvuLeft (s : State) (n : Nat) : List CvuEntry := (s.cvuQueue n).filter (fun e => decide (2 * s.time.clk < e.done))
def State.cvuActed (s : State) (n : Nat) : List (Bool × Nat) :=
  ((s.cvuQueue n).filter (fun e => decide (e.done ≤ 2 * s.time.clk))).filterMap (·.outcome)
/-- CVU_STAT and CVU_LAST brought up to date. -/
def State.cvuSettle (s : State) (n : Nat) : State :=
  if (s.cvuQueue n).isEmpty then s
  else
    let acted := s.cvuActed n
    let s := { s with cvus := Tbl.set (fun _ => []) s.cvus n (s.cvuLeft n) }
    acted.foldl (fun s o =>
      if o.1 then (s.setBit (F.CVU_STAT_MISMATCH n) true).setFld (F.CVU_LAST_RESULT n) o.2 else s.setBit (F.CVU_STAT_MATCH n) true) s

/-- The level of hardware line `n`, by the condition its block's chapter names (R89). DESIGN CHOICE: a line for which no chapter names one,
181 to 184 of the general DMA among them, is never asserted (log entry 42). -/
def State.hwLine (s : State) (n : Nat) : Bool :=
  if n == 0 then s.anyOf R.TIME_STATUS 0xF0
  else if n == 1 then s.anyOf R.TICK_STATUS 0xFF0000
  else if n == 2 then s.both R.PWR_ERR R.PWR_IRQ_EN 0x7F
  else if n == 3 then s.anyOf R.KEEP_ERR 3
  else if n == 4 then s.both R.MPU_ERR R.MPU_IRQ_EN 0x7F
  else if n == 5 then s.both R.ECC_ERR R.ECC_IRQ_EN 0xFF
  else if n == 6 then s.both R.CHURN_STAT R.CHURN_IRQ_EN 0xF
  else if n == 7 then s.both R.LOG_ERR R.LOG_IRQ_EN 0xF
  else if n == 8 then s.both R.STEP_ERR R.STEP_IRQ_EN 0x7FF
  else if n == 9 then (List.range 8).any (fun c => s.bit (F.ICTL_WDOG_STAT_EXPIRED c))
  else if n == 10 then s.anyOf R.ICTL_HALT 0xFFFF
  else if n == 11 then (List.range 4).any (fun k => s.bit (F.TICK_SQ_FAULT_VALID k))
  else if n < 64 then false
  else if n < 96 then s.both (R.HEAD_ERR (n - 64)) (R.HEAD_IRQ_EN (n - 64)) 7
  else if n < 112 then s.both (R.DEC_ENG_ERR (n - 96)) (R.DEC_ENG_IRQ_EN (n - 96)) 0x1F
  else if n < 120 then s.both (R.ENC_ENG_ERR (n - 112)) (R.ENC_ENG_IRQ_EN (n - 112)) 0x1F
  else if n < 128 then s.both (R.COMP_WB_ERR (n - 120)) (R.COMP_WB_IRQ_EN (n - 120)) 7
  else if n < 152 then s.both (R.BL_ERR (n - 128)) (R.BL_IRQ_EN (n - 128)) 0x1FFF
  else if n < 168 then (s.cvuSettle (n - 152)).bit (F.CVU_STAT_MISMATCH (n - 152)) && s.bit (F.CVU_IRQ_EN_EN (n - 152))
  else if n == 168 then s.both R.FG_ERR R.FG_IRQ_EN 0x1F
  else if n == 170 then s.both R.COMP_ERR R.COMP_IRQ_EN 0xFF
  else if n == 171 then s.both R.SCL_ERR R.SCL_IRQ_EN 1
  else if n == 172 then s.both R.TOUCH_ERR R.TOUCH_IRQ_EN 0xFF
  else if n == 173 then s.anyOf R.MGMT_XSPI_STAT 7
  else if 174 ≤ n && n < 178 then s.anyOf (R.MGMT_I2C_STAT (n - 174)) 0xF
  else if n == 178 || n == 179 then s.anyOf (R.MGMT_UART_STAT (n - 178)) 0x1F
  else if n == 180 then s.both R.TELE_ERR R.TELE_IRQ_EN 7
  else if 192 ≤ n && n < 224 then s.bitAt F.MGMT_GPIO_IRQ_STAT_EDGE (n - 192)
  else false

/-- The level of line `n`; a software line's level is its bit of ICTL_PEND (R91). -/
def State.line (s : State) (n : Nat) : Bool :=
  if n < 256 then s.hwLine n else s.bitAt (F.ICTL_PEND_PEND (n / 32)) (n % 32)

/-- The target of line `n` (R90); a value that is not listed acts as the reset value 0 (R5). -/
def State.lineTarget (s : State) (n : Nat) : Nat := let t := s.fld (F.ICTL_CFG_TARGET n); if 8 < t then 0 else t
/-- R93: line `n` is claimable for target `t`. -/
def State.claimable (s : State) (t n : Nat) : Bool :=
  s.bit (F.ICTL_CFG_EN n) && s.lineTarget n == t &&
    decide (s.fld (F.ICTL_THRESH_THRESH t) < s.fld (F.ICTL_CFG_PRIO n)) &&
    !(s.serv.any (fun p => p.1 == n)) && s.line n

/-- The lines enabled at all: every ICTL_CFG resets with EN at 0, so the bank lists them. -/
def State.enabledLines (s : State) : List Nat :=
  ((s.regsIn 0x41000 0x42000).filter (fun e => bits e.2.toNat 31 31 == 1)).map (fun e => (e.1 - 0x41000) / 4)

/-- The line a claim by target `t` returns: highest PRIO, then lowest number. -/
def State.bestLine (s : State) (t : Nat) : Option Nat :=
  (s.enabledLines.filter (s.claimable t)).foldl (fun b n =>
    match b with
    | none => some n
    | some m => if s.fld (F.ICTL_CFG_PRIO m) < s.fld (F.ICTL_CFG_PRIO n) then some n else some m) none

/-- R94. -/
def State.external (s : State) (t : Nat) : Bool := (s.bestLine t).isSome

/-! ### Application-core watchdogs -/

def State.wdTimeout (s : State) (c : Nat) : Nat := max 2 (s.fld (F.ICTL_WDOG_CTL_TIMEOUT c))
/-- REMAIN of core `c` (R96): it stays at TIMEOUT while the core is held in reset. DESIGN CHOICE: with EN 0 nothing has loaded it, and it keeps
what it holds, 0 after a POR (log entry 42). -/
def State.wdRemain (s : State) (c : Nat) : Nat :=
  let x := s.core c
  if !x.wdRun then s.fld (F.ICTL_WDOG_STAT_REMAIN c)
  else if x.run = .held then s.wdTimeout c
  else s.wdTimeout c - (s.time.clk - x.wdLoad) / 500
/-- A reload by the core itself (R96), of a count that runs or stands. -/
def State.wdKick (s : State) (c : Nat) : State :=
  let x := s.core c
  let s := if x.wdRun then s else s.setFld (F.ICTL_WDOG_STAT_REMAIN c) (s.wdTimeout c)
  (s.setCore c { x with wdLoad := s.time.clk }).setBit (F.ICTL_WDOG_STAT_WARNED c) false

end Sys2Proof.Machine
end

