-- ==== Sys2Proof/Machine/Advance.lean ====
section
/-!
DEFINITION. Time passes: the counters, the link's test hardware, and the instants from which the telemetry's histograms measure.
Readings and choices beyond the spec's plain words: log entries 3, 18, 46 and 60.
-/
namespace Sys2Proof.Machine

/-! ### Time passes -/

/-- Fifths of a core clock in 2 ns: the A cores by the operating point (R500), T 1.0 GHz, K 800 MHz (R51). -/
def State.coreFifths (s : State) (c : Nat) : Nat :=
  if c < 8 then
    if s.pwr.clkPoint ≤ 1 then 20 else if s.pwr.clkPoint == 2 then 12 else 8
  else if c < 12 then 10 else 8

/-- Degree and tap of a test pattern (R171). -/
def prbsTaps (pat : Nat) : Nat × Nat :=
  if pat = 0 then (7, 6) else if pat = 1 then (15, 14) else if pat = 2 then (23, 18) else (31, 28)
/-- `n` bits of the generator: a Fibonacci register whose newest bit is lowest. -/
def prbsRun (pat : Nat) : Nat → Nat → Nat
  | 0, g => g
  | n + 1, g =>
    let t := prbsTaps pat
    prbsRun pat n ((2 * g + (g / 2 ^ (t.1 - 1) + g / 2 ^ (t.2 - 1)) % 2) % 2 ^ t.1)

/-- The first `n` bits that a generator puts out: the oldest stage of its register leaves first. -/
def prbsBits (pat : Nat) : Nat → Nat → List Nat
  | 0, _ => []
  | n + 1, g => g / 2 ^ ((prbsTaps pat).1 - 1) % 2 :: prbsBits pat n (prbsRun pat 1 g)

/-- The lane rate setting; a value not used acts as the reset value (R5, R123). -/
def State.blRate (s : State) (q : Nat) : Nat := let k := s.fld (F.BL_CTRL_RATE q); if k ≤ 12 then k else 0
/-- Tenths of a bit that a lane carries in a clock of the time counter: 6.4 + 1.6 k bits. -/
def State.laneTenths (s : State) (q : Nat) : Nat := 64 + 16 * s.blRate q
/-- MODE; the values not used act as OFF (R5, R167). -/
def modeOf (v : Nat) : Nat := if v ≤ 4 then v else 0
def State.testMode (s : State) (q : Nat) : Nat := modeOf (s.fld (F.BL_TEST_CTL_MODE q))
def State.inTest (s : State) (q : Nat) : Bool := s.bit (F.BL_TEST_STAT_IN_TEST q)
def State.test (s : State) (q : Nat) : TestSt := Tbl.get (fun _ => {}) s.tests q
def State.setTest (s : State) (q : Nat) (t : TestSt) : State := { s with tests := Tbl.set (fun _ => {}) s.tests q t }

/-- Whether the generator of a quad sends: in every mode but LB_FAR, while the transmit direction is enabled (R167). -/
def State.generates (s : State) (q : Nat) : Bool :=
  s.inTest q && decide (1 ≤ s.testMode q ∧ s.testMode q ≤ 3) && s.bit (F.BL_CTRL_TX_EN q)
/-- A lane whose checker runs (R167, R171). -/
def State.checks (s : State) (q lane : Nat) : Bool :=
  s.inTest q && s.bit (F.BL_CTRL_RX_EN q) && s.bitAt (F.BL_TEST_CTL_LANE_EN q) lane
/-- Whether what the checkers receive is the device's own pattern, looped back within the device (R167). -/
def State.nearLoop (s : State) (q : Nat) : Bool := s.generates q && (s.testMode q = 2 || s.testMode q = 3)
/-- Whether a scan on the quad counts (R175). -/
def State.eyeCounts (s : State) (q : Nat) : Bool :=
  if s.inTest q then s.testMode q ≠ 2 && s.bit (F.BL_CTRL_RX_EN q) else s.fld (F.BL_STATUS_RX_STATE q) = 4

/-- The bits that lane `lane` puts on its pads over the next `n` bit times of a test mode (R167, R168, R171, R173): the pattern, inverted on
lanes 1 and 3 with INV_ODD and where an error is injected; the received bits in LB_FAR; nothing on a lane that is electrically idle. -/
def State.laneSends (s : State) (q lane n : Nat) : List Nat :=
  let t := s.test q
  if !s.inTest q || !s.bit (F.BL_CTRL_TX_EN q) || s.testMode q = 2 || !s.bitAt (F.BL_TEST_CTL_LANE_EN q) lane then []
  else if s.testMode q = 4 then
    if s.bit (F.BL_CTRL_RX_EN q) then (List.range n).map (fun k => Config.rxBit q lane (t.bits + k) % 2) else []
  else
    let inv := (s.bit (F.BL_TEST_CTL_INV_ODD q) && lane % 2 == 1).toNat
    ((prbsBits (s.fld (F.BL_TEST_CTL_PAT q)) n t.gen).zip (List.range n)).map (fun p =>
      (p.1 + inv + (t.inj.contains (lane, t.sent + p.2)).toNat) % 2)

/-- A checker that does not run has no lock; it loads afresh when it runs again (R172). -/
def State.testSync (s : State) (q : Nat) : State :=
  if !s.inTest q then s
  else
    let t := s.test q
    let s := (List.range 4).foldl (fun s i => if s.checks q i then s else s.putBitAt (F.BL_TEST_STAT_LOCK q) i false) s
    s.setTest q { t with load := (List.range 4).map (fun i => if s.checks q i then t.load.getD i 0 else t.bits) }

/-- The most mismatches among `k` bits no 1,024 of which in a row hold 256 (R172): a checker with more loses its lock. -/
def lockedErrs (k : Nat) : Nat := 255 * (k / 1024) + min 255 (k % 1024)

/-- A quad in a test mode sends and checks its pattern for `n` clocks (R168, R171 to R173). A checker without lock whose pattern is looped
back within the device loads afresh after an inversion, which it mispredicts (DESIGN CHOICE, log entry 46). -/
def State.patternPass (s : State) (q n : Nat) : State :=
  if !s.inTest q then s
  else
    let t := s.test q
    let x := t.tenths + n * s.laneTenths q
    let k := x / 10
    let sends := s.generates q
    let u : TestSt := { t with
      gen := if sends then prbsRun (s.fld (F.BL_TEST_CTL_PAT q)) k t.gen else t.gen, tenths := x % 10, bits := t.bits + k,
      sent := if sends then t.sent + k else t.sent,
      inj := if sends then t.inj.filter (fun e => decide (t.sent + k ≤ e.2)) else t.inj,
      load := if s.nearLoop q then (List.range 4).map (fun i => if s.bitAt (F.BL_TEST_STAT_LOCK q) i then t.load.getD i 0
        else (t.inj.filter (fun e => e.1 == i && decide (e.2 < t.sent + k))).foldl (fun b e => max b (t.bits + (e.2 - t.sent) + 1))
          (t.load.getD i 0)) else t.load }
    let made (i : Nat) : Nat := (t.inj.filter (fun e => e.1 == i && decide (e.2 < t.sent + k))).length
    let s' := (List.range 4).foldl (fun s i =>
      if s.checks q i && s.bitAt (F.BL_TEST_STAT_LOCK q) i then
        s.bump (F.BL_TEST_ERR_COUNT q i) (if s.nearLoop q then made i else min (lockedErrs k) (Config.lineErrs q i s.time.clk k))
      else s) s
    let s' := if s.fld (F.BL_TEST_STAT_LOCK q) = 0 then s'
      else s'.setReg64 (R.BL_TEST_BITS_LO q) (R.BL_TEST_BITS_HI q) (satAdd 64 (s'.reg64 (R.BL_TEST_BITS_LO q) (R.BL_TEST_BITS_HI q)) k)
    (s'.setTest q u).testSync q

/-- The compared bits a scan ends after (R174). -/
def State.eyeLength (s : State) (q : Nat) : Nat := 2 ^ (16 + s.fld (F.BL_EYE_CTL_DWELL q))
/-- An eye scan compares bits for `n` clocks, up to its length (R174, R175). -/
def State.eyePass (s : State) (q n : Nat) : State :=
  match (s.test q).eye with
  | none => s
  | some x0 =>
    if !s.eyeCounts q then s
    else
      let x := x0 + n * s.laneTenths q
      let k := min (x / 10) (s.eyeLength q - s.fld (F.BL_EYE_BITS_COUNT q))
      ((s.bump (F.BL_EYE_BITS_COUNT q) k).bump (F.BL_EYE_ERR_COUNT q) (min k (Config.eyeErrs q s.time.clk k))).setTest q
        { s.test q with eye := some (x % 10) }

/-- The test hardware of every quad works for `n` clocks. -/
def State.testPass (s : State) (n : Nat) : State :=
  s.tests.foldl (fun s e => if e.1 < 24 then (s.patternPass e.1 n).eyePass e.1 n else s) s

/-! ### What the histograms measure from (R432) -/

/-- The instants `old` brought up to the present: what is in `now` keeps its instant or has the present one, and nothing else is listed. -/
def sinceWhen {α : Type} [DecidableEq α] (now : List α) (old : List (α × Nat)) (clk : Nat) : List (α × Nat) :=
  now.eraseDups.map (fun x => ((old.find? (fun e => decide (e.1 = x))).getD (x, clk)))
/-- The lines that their target may claim. -/
def State.claimables (s : State) : List Nat := s.enabledLines.filter (fun n => s.claimable (s.lineTarget n) n)
/-- Whether a read of the fence word at `a` for sequencer `k` would now find it met. -/
def State.fenceMet (s : State) (k a v : Nat) : Bool :=
  let r := s.read (8 + k) a 8
  !r.bus && !r.poisoned && decide (v ≤ leNat r.data)
/-- The met fences of the armed chambers: sequencer, address and value. -/
def State.fencesMet (s : State) : List (Nat × Nat × Nat) :=
  (s.chambers.filter (·.2.armed)).flatMap (fun e => (e.2.members.filterMap (fun m =>
    m.fence.map (fun f => (e.1 / 64, f.1, f.2)))).filter (fun f => s.fenceMet f.1 f.2.1 f.2.2))
/-- Before time passes, what has just become claimable and which fences have just been met is noted. -/
def State.watch (s : State) : State :=
  { s with time := { s.time with
      claimAt := sinceWhen s.claimables s.time.claimAt s.time.clk, metAt := sinceWhen s.fencesMet s.time.metAt s.time.clk } }

/-- `n` clocks of the time counter pass; while the core domain does not run, only REFCLK time does. -/
def State.advance (s : State) (n : Nat) : State :=
  if s.pwr.phase ≠ .run then { s with time := { s.time with clk := s.time.clk + n } }
  else
  let us := (s.time.clk + n) / 500 - s.time.clk / 500
  let s := s.watch
  let s := { s with time := { s.time with now := s.time.now + n * s.timeInc, clk := s.time.clk + n } }
  let s := if us = 0 then s else s.tele 0x01 0 us
  let s := if s.tests.isEmpty then s else s.testPass n
  (List.range 13).foldl (fun s c =>
    let x := s.core c
    if x.run = .held && c < 8 then s else s.setCore c { x with cyc := x.cyc + n * s.coreFifths c }) s

/-- The clocks until the counter first equals or exceeds `t` ns. -/
def State.clocksTo (s : State) (t : Nat) : Nat :=
  if t * 2 ^ 40 ≤ s.time.now then 0 else ceilDiv (t * 2 ^ 40 - s.time.now) s.timeInc

/-- Time runs until the counter reaches `t` ns. -/
def State.advanceTo (s : State) (t : Nat) : State := s.advance (s.clocksTo t)

/-- What a step does with no command waiting: one clock passes. -/
def State.idle (s : State) : State := s.advance 1

end Sys2Proof.Machine
end

