-- ==== Sys2Proof/Machine/Operands.lean ====
section
/-!
DEFINITION. The operand forms of Norser: the instruction words of R58's formats, which EVAL holds after an ILLEGAL or PRIV
exception, and the immediates.
-/
namespace Sys2Proof.Machine

/-- Predicate field and major opcode (R56, R58). -/
def wordHead (pf : BitVec 4) (op : Nat) : Nat := pf.toNat * 2 ^ 28 + op * 2 ^ 22
def wordR (pf : BitVec 4) (op rd ra rb fn : Nat) : Nat := wordHead pf op + rd * 2 ^ 17 + ra * 2 ^ 12 + rb * 2 ^ 7 + fn
def wordI (pf : BitVec 4) (op rd ra : Nat) (imm : BitVec 12) : Nat := wordHead pf op + rd * 2 ^ 17 + ra * 2 ^ 12 + imm.toNat
def wordU (pf : BitVec 4) (op rd : Nat) (imm : BitVec 17) : Nat := wordHead pf op + rd * 2 ^ 17 + imm.toNat
def wordB (pf : BitVec 4) (op : Nat) (off : BitVec 22) : Nat := wordHead pf op + off.toNat
/-- Format C with a register second operand; bits [5:0] zero. -/
def wordC (pf : BitVec 4) (op pd cond ra rb : Nat) : Nat :=
  wordHead pf op + pd * 2 ^ 19 + cond * 2 ^ 16 + ra * 2 ^ 11 + rb * 2 ^ 6
def wordCi (pf : BitVec 4) (op pd cond ra : Nat) (imm : BitVec 11) : Nat :=
  wordHead pf op + pd * 2 ^ 19 + cond * 2 ^ 16 + ra * 2 ^ 11 + imm.toNat
def wordP (pf : BitVec 4) (op pd pa pb fn : Nat) : Nat :=
  wordHead pf op + pd * 2 ^ 19 + pa * 2 ^ 16 + pb * 2 ^ 13 + fn * 2 ^ 10
/-- SYS: the 10-bit code in [16:7], rd zero (R63). -/
def wordSys (pf : BitVec 4) (code : BitVec 10) (fn : Nat) : Nat := wordHead pf 0x24 + code.toNat * 2 ^ 7 + fn

/-- A sign-extended 12-bit immediate. -/
def imm64 (imm : BitVec 12) : DWord := imm.signExtend 64

/-- The address `ra + sext(imm12)` of a load, store or cache operation. -/
def effAddr (base : DWord) (imm : BitVec 12) : DWord := base + imm64 imm

end Sys2Proof.Machine
end

