-- ==== Sys2Proof/Machine/Crypto.lean ====
section
/-!
DEFINITION. The two standards the boot takes by reference (R1, R517, R519, R521): SHA-256 as FIPS 180-4 defines it, and the
verification of an ECDSA P-256 signature as FIPS 186-5 defines it. Their constants are the standards' (PRESUMED, log entry 12).
Readings and choices beyond the spec's plain words: log entry 12.
-/
namespace Sys2Proof.Machine

/-! ### SHA-256 -/

/-- The round constants: the first 32 bits of the fractional parts of the cube roots of the first 64 primes. -/
def shaK0 : List Word := [
  0x428A2F98, 0x71374491, 0xB5C0FBCF, 0xE9B5DBA5, 0x3956C25B, 0x59F111F1, 0x923F82A4, 0xAB1C5ED5,
  0xD807AA98, 0x12835B01, 0x243185BE, 0x550C7DC3, 0x72BE5D74, 0x80DEB1FE, 0x9BDC06A7, 0xC19BF174]
def shaK1 : List Word := [
  0xE49B69C1, 0xEFBE4786, 0x0FC19DC6, 0x240CA1CC, 0x2DE92C6F, 0x4A7484AA, 0x5CB0A9DC, 0x76F988DA,
  0x983E5152, 0xA831C66D, 0xB00327C8, 0xBF597FC7, 0xC6E00BF3, 0xD5A79147, 0x06CA6351, 0x14292967]
def shaK2 : List Word := [
  0x27B70A85, 0x2E1B2138, 0x4D2C6DFC, 0x53380D13, 0x650A7354, 0x766A0ABB, 0x81C2C92E, 0x92722C85,
  0xA2BFE8A1, 0xA81A664B, 0xC24B8B70, 0xC76C51A3, 0xD192E819, 0xD6990624, 0xF40E3585, 0x106AA070]
def shaK3 : List Word := [
  0x19A4C116, 0x1E376C08, 0x2748774C, 0x34B0BCB5, 0x391C0CB3, 0x4ED8AA4A, 0x5B9CCA4F, 0x682E6FF3,
  0x748F82EE, 0x78A5636F, 0x84C87814, 0x8CC70208, 0x90BEFFFA, 0xA4506CEB, 0xBEF9A3F7, 0xC67178F2]
def shaK : List Word := shaK0 ++ shaK1 ++ shaK2 ++ shaK3

/-- The initial hash value. -/
def shaInit : List Word := [
  0x6A09E667, 0xBB67AE85, 0x3C6EF372, 0xA54FF53A, 0x510E527F, 0x9B05688C, 0x1F83D9AB, 0x5BE0CD19]

def beWords : List Byte → List Word
  | a :: b :: c :: d :: l => BitVec.ofNat 32 (beNat [a, b, c, d]) :: beWords l
  | _ => []

/-- The message schedule, newest word first. -/
def shaSchedule : Nat → List Word → List Word
  | 0, w => w
  | k + 1, w =>
    let at' (i : Nat) : Word := w.getD (i - 1) 0
    let x := at' 15
    let y := at' 2
    let s0 := x.rotateRight 7 ^^^ x.rotateRight 18 ^^^ x >>> 3
    let s1 := y.rotateRight 17 ^^^ y.rotateRight 19 ^^^ y >>> 10
    shaSchedule k ((s1 + at' 7 + s0 + at' 16) :: w)

/-- One round on the eight working variables. -/
def shaRound (v : List Word) (kw : Word × Word) : List Word :=
  match v with
  | [a, b, c, d, e, f, g, h] =>
    let t1 := h + (e.rotateRight 6 ^^^ e.rotateRight 11 ^^^ e.rotateRight 25) + ((e &&& f) ^^^ (~~~e &&& g)) + kw.1 + kw.2
    let t2 := (a.rotateRight 2 ^^^ a.rotateRight 13 ^^^ a.rotateRight 22) + ((a &&& b) ^^^ (a &&& c) ^^^ (b &&& c))
    [t1 + t2, a, b, c, d + t1, e, f, g]
  | _ => v

/-- One 64-byte block taken into the hash value. -/
def shaBlock (h : List Word) (block : List Byte) : List Word :=
  let w := (shaSchedule 48 (beWords block).reverse).reverse
  List.zipWith (· + ·) h ((shaK.zip w).foldl shaRound h)

def shaBlocks : Nat → List Word → List Byte → List Word
  | 0, h, _ => h
  | k + 1, h, m => shaBlocks k (shaBlock h (m.take 64)) (m.drop 64)

/-- SHA-256 of a byte string, as 32 bytes. -/
def sha256 (m : List Byte) : List Byte :=
  let fill := (119 - m.length % 64) % 64
  let padded := m ++ 0x80 :: List.replicate fill 0 ++ (leBytes 8 (8 * m.length)).reverse
  ((shaBlocks (padded.length / 64) shaInit padded).map (fun w => (leBytes 4 w.toNat).reverse)).flatten

/-! ### ECDSA on P-256 -/

/-- The curve y² = x³ − 3x + b over the field of `ecP` elements, its base point and the order of that point. -/
def ecP : Nat := 0xFFFFFFFF00000001000000000000000000000000FFFFFFFFFFFFFFFFFFFFFFFF
def ecN : Nat := 0xFFFFFFFF00000000FFFFFFFFFFFFFFFFBCE6FAADA7179E84F3B9CAC2FC632551
def ecB : Nat := 0x5AC635D8AA3A93E7B3EBBD55769886BC651D06B0CC53B0F63BCE3C3E27D2604B
def ecG : Nat × Nat :=
  (0x6B17D1F2E12C4247F8BCE6E563A440F277037D812DEB33A0F4A13945D898C296,
   0x4FE342E2FE1A7F9B8EE7EB4A7C0F9E162BCE33576B315ECECBB6406837BF51F5)

/-- a^e modulo m, e below 2^k. -/
def powMod (m a : Nat) : Nat → Nat → Nat
  | 0, _ => 1 % m
  | k + 1, e =>
    let r := powMod m a k (e / 2)
    if e % 2 = 1 then r * r % m * a % m else r * r % m

/-- The inverse modulo a prime, by Fermat's theorem. -/
def invMod (m a : Nat) : Nat := powMod m (a % m) 256 (m - 2)

/-- A point (X : Y : Z) stands for x = X / Z and y = Y / Z; (0 : 1 : 0) is the point at infinity. -/
structure EcPt where
  x : Nat
  y : Nat
  z : Nat
  deriving DecidableEq, Repr

/-- The group law, by the formula that holds for every pair of points of a curve of odd order. -/
def ecAdd (p q : EcPt) : EcPt :=
  let red (i : Int) : Nat := (i % (ecP : Int)).toNat
  let a := red (p.x * q.z + q.x * p.z)
  let b := red (p.x * q.y + q.x * p.y)
  let c := red (p.y * q.z + q.y * p.z)
  let xx := red (p.x * q.x)
  let zz := red (p.z * q.z)
  let yy := red (p.y * q.y)
  let m := red (-3 * a + 3 * ecB * zz)
  let n := red (-3 * xx + 3 * ecB * a - 9 * zz)
  let k := red (3 * xx - 3 * zz)
  let lo := red (yy - m)
  let hi := red (yy + m)
  ⟨red (b * lo - c * n), red (k * n + hi * lo), red (c * hi + b * k)⟩

/-- e · p, e below 2^k. -/
def ecMul (p : EcPt) : Nat → Nat → EcPt
  | 0, _ => ⟨0, 1, 0⟩
  | k + 1, e =>
    let h := ecMul p k (e / 2)
    let d := ecAdd h h
    if e % 2 = 1 then ecAdd d p else d

/-- Whether `sig`, r then s, is a signature of `hash` under the public key `key`, X then Y; a key that is no point of the curve
verifies nothing. -/
def ecdsaOk (key sig hash : List Byte) : Bool :=
  let x := beNat (key.take 32)
  let y := beNat (key.drop 32)
  let r := beNat (sig.take 32)
  let s := beNat (sig.drop 32)
  let onCurve : Bool := x < ecP && y < ecP && y * y % ecP == (x * x * x + (ecP - 3) * x + ecB) % ecP
  let inRange : Bool := 0 < r && r < ecN && 0 < s && s < ecN
  let w := invMod ecN s
  let t := ecAdd (ecMul ⟨ecG.1, ecG.2, 1⟩ 256 (beNat hash * w % ecN)) (ecMul ⟨x, y, 1⟩ 256 (r * w % ecN))
  onCurve && inRange && t.z != 0 && t.x * invMod ecP t.z % ecP % ecN == r

end Sys2Proof.Machine
end

