-- ==== Sys2Proof/Machine/RegFront.lean ====
section
/-!
DEFINITION. The front of every register write (R2 to R5, R399, R401, R549): which fields the master may write, the value
each then takes, and the one notice a write with refused fields raises.
Readings and choices beyond the spec's plain words: log entries 1 and 35.
-/
namespace Sys2Proof.Machine

/-- What the front of a register write decides: the old value, the value written with every discarded field replaced by its
old value, the bits accepted, and whether the write counts as refused. -/
structure Admit where
  st : State
  old : Nat
  w : Nat
  mask : Nat
  refused : Bool

def RegField.maskOf (f : RegField) : Nat := (2 ^ (f.hi + 1 - f.lo) - 1) * 2 ^ f.lo

/-- Whether the lock that governs the RWL fields of the register at `off` is set (R337, R524, R526, R527). -/
def State.lockedAt (s : State) (off : Nat) : Bool :=
  if off / 0x10000 == 0x70 then s.bit F.FG_LOCK_LOCK
  else if off / 0x10000 == 0x01 then s.bit F.PWR_LOCK_LOCK
  else if off / 0x10000 == 0x05 then s.bit F.KEEP_WDOG_CTL_LOCK
  else if off / 0x10000 == 0xB0 then s.bit F.MGMT_XSPI_PROT_LOCK
  else false

/-- R399: `off` is a register of a region whose live LOCK is set. -/
def State.regionLocked (s : State) (off : Nat) : Bool :=
  0x91000 ≤ off && off < 0x9AA00 &&
    s.lfld (F.MPU_RGN_END_HI_LOCK ((off - 0x91000) / 0x200) ((off - 0x91000) % 0x200 / 0x10)) == 1

/-- R35: a step of `d` / 65,536 ns is refused outside ACQUIRE when it is larger than 10,000 ns. -/
def State.stepTooLarge (s : State) (d : Int) : Bool := s.fld F.TIME_STATUS_STATE != 0 && decide (10000 * 65536 < d.natAbs)
/-- The step that a write of `w` to TIME_STEP_CTL arms, in 2^-16 ns (R35). -/
def State.stepOf (s : State) (w : Nat) : Int :=
  sext 32 (s.fld F.TIME_STEP_NS_STEP) * 65536 + (bits w F.TIME_STEP_CTL_FRAC.hi F.TIME_STEP_CTL_FRAC.lo : Int)
/-- A written 1 that starts its function, or clears the field, whatever the field holds: GO of TIME_STEP_CTL, unless the step is refused and
GO stays 0 (R35). -/
def startsAlways (s : State) (off : Nat) (f : RegField) (w : Nat) : Bool :=
  off == R.TIME_STEP_CTL && f.hi == 31 && bits w f.hi f.lo == 1 && (s.bit F.TIME_STEP_CTL_GO || !s.stepTooLarge (s.stepOf w))

/-- The registers in which a block records that it turned a written value away. -/
def isErrReg (off : Nat) : Bool :=
  let b := off / 0x10000
  let p := off % 0x10000
  [R.PWR_ERR, R.KEEP_ERR, R.LOG_ERR, R.TELE_ERR, R.MPU_ERR, R.ECC_ERR, R.STEP_ERR].contains off ||
    (decide (0x10 ≤ b) && decide (b < 0x18) && p == 0x14) || (decide (0x20 ≤ b) && decide (b < 0x38) && p % 0x100 == 8) ||
    (decide (0x80 ≤ b) && decide (b < 0x98) && p == 8)
/-- The flags of other registers that record the same. -/
def refusalFlags : List Fld :=
  [F.TIME_STATUS_STEP_REFUSED, F.TICK_STATUS_CFG_REFUSED, F.ECC_DIAG_STAT_REFUSED, F.CHURN_STAT_REFUSED, F.STEP_SNAP_STAT_REFUSED,
    F.MGMT_XSPI_STAT_REFUSED] ++ (List.range 8).map F.DDR_TRN_STAT_REFUSED
/-- The machine but for those registers and flags. -/
def State.sansErr (s : State) : State :=
  ({ s with regs := s.regs.filter (fun e => !isErrReg e.1) }).setFlds (refusalFlags.map (·, 0))

/-- R549: the same write of `w`, made by the Keeper with no lock set, would have changed the field or started its function: what the
register's function `fn` makes of the write is not what it makes of one that gives the field its old value, or no 1. -/
def wouldAct (fn : Admit → State) (s : State) (off : Nat) (f : RegField) (w : Nat) : Bool :=
  let old := (s.reg off).toNat
  let w := w % 2 ^ 32
  let idle := if f.acc == .rw || f.acc == .rws then bits old f.hi f.lo else 0
  let given := bits w f.hi f.lo
  let run (v : Nat) : State := (fn ⟨s, old, v, 2 ^ 32 - 1, false⟩).sansErr
  f.acc != .ro && (startsAlways s off f w ||
    (given != idle && decide (run w ≠ run (putBits w f.hi f.lo idle))))

/-- Whether a guard turns master `m` away from a field of the register at `off`. -/
def State.turnsAway (s : State) (m off : Nat) (f : RegField) : Bool :=
  f.acc != .ro && (s.regionLocked off ||
    match f.guard with
    | .open => false
    | .keeper => m != 12
    | .lock => s.lockedAt off)

/-- The decision on a write of `w` by master `m` to the register at `off` that `row` describes and whose function is `fn`. -/
def State.accept (s : State) (m off w : Nat) (fn : Admit → State) : Admit :=
  let fs := ((rowAt off).map (·.fields)).getD []
  let old := (s.reg off).toNat
  let away := fs.filter (s.turnsAway m off)
  let hit := away.filter (fun f => wouldAct fn s off f w)
  let kind := if s.regionLocked off || hit.any (fun f => f.guard == .lock) then 4 else 3
  let a := 0x5000000000 + off
  if m == 0x7F && s.maintActive then
    let s := if hit.isEmpty then s else s.noticeRec m a (kind + 128) false
    ⟨s, old, w % 2 ^ 32, 2 ^ 32 - 1, false⟩
  else
    let keep := away.foldl (fun k f => k ||| f.maskOf) 0
    let w' := ((w % 2 ^ 32) &&& (2 ^ 32 - 1 - keep)) ||| (old &&& keep)
    let s := if hit.isEmpty then s else s.notice m a kind (isCore m)
    let s := if s.regionLocked off && !hit.isEmpty then s.setBit F.MPU_ERR_LOCKED true else s
    ⟨s, old, w', 2 ^ 32 - 1 - keep, !hit.isEmpty⟩

/-- A field of the value admitted, and whether a 1 was written to an accepted field. -/
def Admit.get (a : Admit) (f : Fld) : Nat := bits a.w f.hi f.lo
def Admit.one (a : Admit) (f : Fld) : Bool := (bits (a.w &&& a.mask) f.hi f.lo) == 1
/-- Whether the master was allowed to write the field at all. -/
def Admit.took (a : Admit) (f : Fld) : Bool := bits a.mask f.hi f.lo != 0

/-- Whether the master was allowed to write any field of the register at `off`. -/
def Admit.wrote (a : Admit) (off : Nat) : Bool :=
  (((rowAt off).map (·.fields)).getD []).any (fun f => f.acc != .ro && bits a.mask f.hi f.lo != 0)

/-- What a field holds after an accepted write, by its access type (R3). -/
def fieldAfter (f : RegField) (old w mask : Nat) : Nat :=
  let o := bits old f.hi f.lo
  let n := bits w f.hi f.lo
  if bits mask f.hi f.lo == 0 then o
  else match f.acc with
    | .ro => o
    | .rw | .rws => n
    | .wo => 0
    | .w1c => o - (o &&& n)
    | .w1s => o ||| n

/-- The register's value after the write, field by field. -/
def regAfter (off : Nat) (a : Admit) : Nat :=
  (((rowAt off).map (·.fields)).getD []).foldl (fun v f => putBits v f.hi f.lo (fieldAfter f a.old a.w a.mask)) a.old

/-- R3: the write takes effect by the access types alone. -/
def Admit.plain (a : Admit) (off : Nat) : State := a.st.setReg off (BitVec.ofNat 32 (regAfter off a))

/-- The response of an access that wrote: refused writes tell the master so. -/
def Admit.resp (a : Admit) : Resp := if a.refused then .refused else .ok

/-- A command that only a running core domain can take; in any other phase it has no effect. -/
def State.ifRun (s : State) (f : State → State) : State := if s.pwr.phase = .run then f s else s

/-- A register write by a command: admitted, performed by `f`, answered on the port. -/
def State.regCmd (s : State) (m off w : Nat) (f : Admit → State) : State :=
  let a := s.accept m off w f
  { f a with resp := a.resp }

def State.runReg (s : State) (m off w : Nat) (f : Admit → State) : State := s.ifRun (fun s => s.regCmd m off w f)

end Sys2Proof.Machine
end

