-- ==== Sys2Proof/Machine/Logbook.lean ====
section
/-!
DEFINITION. The Logbook (R414 to R430): appending, re-arming, submission, and the spill to DRAM.
Readings and choices beyond the spec's plain words: log entry 60.
-/
namespace Sys2Proof.Machine

def logBase : Nat := 0x4200000000
def LogEv.size (e : LogEv) : Nat := 32 + e.payload.length

/-- The bytes of a record (R418). -/
def LogEv.record (e : LogEv) (seq : Nat) : List Byte :=
  leBytes 8 seq ++ leBytes 8 e.time ++ leBytes 8 e.last ++ leBytes 2 e.typ ++ leBytes 1 (e.payload.length / 16) ++
    leBytes 1 e.master ++ leBytes 4 e.rep ++ e.payload

def State.logSeq (s : State) : Nat := s.reg64 R.LOG_NEXT_SEQ_LO R.LOG_NEXT_SEQ_HI

/-- Stream-area records that leave the log; those the spill has not copied count as missed (R428). -/
def State.logLeave (s : State) (p : LogRec → Bool) : State :=
  let gone := s.log.recs.filter p
  let missed := (gone.filter (fun r => s.log.spillNext ≤ r.seq)).length
  let s := { s with log := { s.log with recs := s.log.recs.filter (fun r => !p r) } }
  if s.bit F.LOG_SPILL_CTL_EN && missed ≠ 0 then (s.bump F.LOG_SPILL_MISS_COUNT missed).orFld F.LOG_ERR_ERR 2 else s

/-- LOG_OLD and LOG_OLD_SEQ name the oldest Stream-area record. -/
def State.logOld (s : State) : State :=
  match s.log.recs with
  | [] => s.setFlds [(F.LOG_OLD_VALID, 0)]
  | r :: _ => (s.setFlds [(F.LOG_OLD_OFF, r.off / 16), (F.LOG_OLD_VALID, 1)]).setReg64 R.LOG_OLD_SEQ_LO R.LOG_OLD_SEQ_HI r.seq

/-- R415: the end marker at the first free offset, and the records from there to the end of the area leave. -/
def State.logMarker (s : State) (limit : Nat) : State :=
  let f := s.log.free
  if f < limit then
    (((s.putBytes (logBase + f) (List.replicate 8 0xFF)).setDelta (logBase + f) 0).logLeave (fun r => decide (f ≤ r.off))).logModified
  else s

/-- The area and offset for a record of `n` bytes: the Keep area closes when it does not fit (R414), the Stream area wraps. -/
def State.logPlace (s : State) (n : Nat) : State :=
  let k := s.log.keep * 0x10000
  let s :=
    if s.bit F.LOG_STAT_KEEP_FULL || s.log.free + n ≤ k then s
    else
      let s := s.logMarker k
      ({ s with log := { s.log with free := k } }).setBit F.LOG_STAT_KEEP_FULL true
  if s.bit F.LOG_STAT_KEEP_FULL && decide (0x200000 < s.log.free + n) then
    let s := s.logMarker 0x200000
    { s with log := { s.log with free := k } }
  else s

/-- R414, R415, R418: an event becomes the newest record. -/
def State.logAppendEv (s : State) (e : LogEv) : State :=
  let n := e.size
  let s := s.logPlace n
  let off := s.log.free
  let seq := s.logSeq
  let s := s.logLeave (fun r => decide (r.off < off + n) && decide (off < r.off + r.size))
  let s := s.putBytes (logBase + off) (e.record seq)
  let s := (List.range (n / 8)).foldl (fun s i =>
    s.setDelta (logBase + off + 8 * i) (if 4 ≤ i && e.bad.contains (i - 4) then 0xFF else 0)) s
  let inStream := s.bit F.LOG_STAT_KEEP_FULL
  let recs := if inStream then s.log.recs ++ [⟨off, n, seq⟩] else s.log.recs
  let s := { s with log := { s.log with free := off + n, newest := some e, recs := recs } }
  let s := (s.setFlds [(F.LOG_TAIL_OFF, off / 16), (F.LOG_TAIL_VALID, 1)]).setReg64 R.LOG_NEXT_SEQ_LO R.LOG_NEXT_SEQ_HI (seq + 1)
  let s := if inStream then s else s.setFld F.LOG_KEEP_END_OFF ((off + n) / 16)
  (s.logOld.logModified).tele 0x13 0

/-- A LOST record covers the events lost since the previous one (R423). -/
def State.logLost (s : State) : State :=
  if s.log.lostN == 0 || 64 ≤ s.log.queue.length then s
  else
    let e : LogEv := { typ := 3, master := 0xFF, payload := leBytes 8 s.log.lostN ++ leBytes 2 s.log.lostTyp ++
                         leBytes 1 s.log.lostMaster ++ leBytes 5 0, time := s.logTime, last := s.logTime, fold := false }
    { s with log := { s.log with queue := s.log.queue ++ [e], lostN := 0 } }

/-- The oldest waiting entry becomes a record, unless a re-arm is in progress (R417, R423). -/
def State.logNext (s : State) : State :=
  match s.log.queue with
  | [] => s.logLost
  | e :: q =>
    if s.bit F.LOG_STAT_ARMING then s
    else (({ s with log := { s.log with queue := q } }).logAppendEv e).logLost
/-- LOG_APPEND (R423). -/
def execLogAppend (s : State) : Out := .next s.logNext

/-- LOG.EV that finds the queue full waits up to 64 cycles, in which up to three records of 20 ns each are appended (R423). -/
def State.logRoom : Nat → State → State
  | 0, s => s
  | n + 1, s => if 64 ≤ s.log.queue.length && decide ((s.log.queue.head?.map LogEv.size).getD 0 ≤ 64) then (s.logNext).logRoom n else s
def State.logWait (s : State) (e : LogEv) : State :=
  if (s.log.queue.getLast?.map e.folds).getD false then s.logPut e else (s.logRoom 3).logPut e

/-- R417 (and R416 for `rearm` false): both areas are discarded, KEEP is taken, and an ARMED record opens the Keep area. -/
def State.logArm (s : State) (rearm : Bool) : State :=
  let oldest :=
    if !rearm then 0
    else s.log.oldestSeq
  let k := max 1 (s.fld F.LOG_CFG_KEEP)
  let seq := s.logSeq
  let s := { s with log := { s.log with newest := none, keep := k, free := 0, recs := [], oldestSeq := seq } }
  let s := s.setFlds [(F.LOG_STAT_ARMING, 0), (F.LOG_STAT_KEEP_FULL, 0), (F.LOG_TAIL_VALID, 0), (F.LOG_OLD_VALID, 0)]
  let s := if rearm then s.logModified else s
  s.logAppendEv { typ := 1, master := 0xFF, payload := leBytes 8 oldest ++ leBytes 1 k ++ leBytes 1 rearm.toNat ++ leBytes 6 0,
                  time := s.logTime, last := s.logTime, fold := false }

/-- LOG_REARM (R417): a write of 1 to LOG_CTL.ARM sets ARMING. -/
def State.logCtl (a : Admit) : State :=
  if a.one F.LOG_CTL_ARM then a.st.setBit F.LOG_STAT_ARMING true else a.st
def execLogRearm (m : Mst) (w : Word) (s : State) : Out := .next (s.runReg m.toNat R.LOG_CTL w.toNat State.logCtl)

/-- The next record the spill may copy: final, in the Stream area, not yet copied (R427). -/
def State.spillNextRec (s : State) : Option LogRec :=
  (s.log.recs.dropLast).find? (fun r => s.log.spillNext ≤ r.seq)

/-- LOG_REARM_DONE (R417): once the spill has copied every final record. -/
def execLogRearmDone (s : State) : Out :=
  .next <|
    if s.bit F.LOG_STAT_ARMING && (!s.bit F.LOG_SPILL_CTL_EN || s.spillNextRec.isNone) then s.logArm true else s

/-- LOG_SUBMIT (R421): the block at AREA and OFF is checked and copied, or the submission is refused. -/
def State.logSubmit (s : State) (m w : Nat) : State :=
  let island := bits w 31 31 == 1
  let base := if island then 0x4100000000 else 0x4000000000
  let size := if island then 0x100000 else 0xE00000
  let off := 16 * bits w 19 0
  let refuse (s : State) : State := s.orFld F.LOG_ERR_ERR 8
  if size < off + 16 then refuse s
  else
    let p := s.read m (base + off) 16
    if p.poisoned then refuse (p.st.poisonRec m (base + off + (p.bad.findIdx? (·)).getD 0) 10)
    else
      let typ := leNat (p.data.take 2)
      let len := leNat (slice p.data 2 1)
      let fl := leNat (slice p.data 3 1)
      let okTyp := (m == 12 && 0x4000 ≤ typ && typ ≤ 0x7FFF) || 0x9000 ≤ typ
      if !okTyp || len < 1 || 32 < len || 1 < fl || leNat (slice p.data 4 12) ≠ 0 || size < off + 16 + 16 * len then refuse p.st
      else
        let b := p.st.read m (base + off + 16) (16 * len)
        let badBytes := (List.range (16 * len)).filter (fun i => b.bad.getD i false)
        let e : LogEv := { typ := typ, master := m, payload := b.data, time := s.logTime, last := s.logTime,
                           fold := fl == 0, bad := (badBytes.map (· / 8)).eraseDups }
        let s := b.st.logPut e true
        match badBytes with
        | [] => s
        | i :: _ => s.poisonRec m (base + off + 16 + i) 10

def execLogSubmit (m : Mst) (w : Word) (s : State) : Out :=
  .next (s.runReg m.toNat R.LOG_SUBMIT w.toNat (fun a => a.st.logSubmit m.toNat w.toNat))

/-- Ring size in bytes; 0 acts as 1 MiB and values above 1,024 as 1,024. -/
def State.spillSize (s : State) : Nat := min 1024 (max 1 (s.fld F.LOG_SPILL_CTL_SIZE)) * 2 ^ 20
def State.spillBase (s : State) : Nat := s.fld F.LOG_SPILL_LO_ADDR * 2 ^ 16 + s.fld F.LOG_SPILL_HI_ADDR * 2 ^ 32

/-- `d` enters the ring at offset `o`, each byte with whether it is poisoned: the whole 64-byte blocks it touches are written, zero after
its last byte, each code word with a poisoned byte in poison form. The DMA holds what the last block holds so far. -/
def State.spillWrite (s : State) (o : Nat) (d : List (Byte × Bool)) : State × Bool :=
  let lo := o / 64 * 64
  let img := s.log.spillBlk.take (o - lo) ++ d
  let w := (List.range (ceilDiv img.length 64 * 2)).foldl (fun (p : State × Bool) i =>
    if !p.2 then p
    else
      let x := (img.drop (32 * i)).take 32
      let w := p.1.write 0x61 (s.spillBase + lo + 32 * i) (slice (x.map (·.1)) 0 32) (x.any (·.2)) false
      (w.1, decide (w.2 = .done))) (s, true)
  ({ w.1 with log := { w.1.log with spillBlk := img.drop (img.length / 64 * 64) } }, w.2)

/-- LOG_SPILL (R427, R428): one final record is copied into the ring. -/
def execLogSpill (s : State) : Out :=
  .next <|
    if !s.bit F.LOG_SPILL_CTL_EN || s.waits .dram then s
    else match s.spillNextRec with
      | none => s
      | some r =>
        let rd := s.read 0x61 (logBase + r.off) r.size
        let s := rd.st
        let o := s.log.spillOff
        let wrap := decide (s.spillSize < o + r.size)
        let mark := if wrap && decide (o < s.spillSize) then s.spillWrite o (List.replicate 8 (0xFF, false)) else (s, true)
        let o := if wrap then 0 else o
        let s := if rd.poisoned then mark.1.poisonRec 0x61 (logBase + r.off) 6 else mark.1
        let w := if mark.2 then s.spillWrite o (rd.data.zip rd.bad) else (s, false)
        if w.2 then
          let s := { w.1 with log := { w.1.log with spillOff := o + r.size, spillNext := r.seq + 1 } }
          (s.setFld F.LOG_SPILL_WR_OFF ((o + r.size) / 16)).setReg64 R.LOG_SPILL_SEQ_LO R.LOG_SPILL_SEQ_HI r.seq
        else (w.1.setBit F.LOG_SPILL_CTL_EN false).orFld F.LOG_ERR_ERR 4

/-- LOG_SPILL_CTL (R430): a change of SIZE while EN is 1 is discarded; writing 1 to EN starts the ring at its base. -/
def State.logSpillCtl (a : Admit) : State :=
  let s := a.st
  let badSize := s.bit F.LOG_SPILL_CTL_EN && a.took F.LOG_SPILL_CTL_SIZE && a.get F.LOG_SPILL_CTL_SIZE != s.fld F.LOG_SPILL_CTL_SIZE
  let s1 := a.plain R.LOG_SPILL_CTL
  let s1 := if badSize then (s1.setFld F.LOG_SPILL_CTL_SIZE (s.fld F.LOG_SPILL_CTL_SIZE)).orFld F.LOG_ERR_ERR 4 else s1
  if a.one F.LOG_SPILL_CTL_EN then
    { s1 with log := { s1.log with spillOff := 0, spillBlk := [], spillNext := ((s1.log.recs.head?).map (·.seq)).getD s1.logSeq } }
  else s1
def execLogSpillEnable (m : Mst) (w : Word) (s : State) : Out :=
  .next (s.runReg m.toNat R.LOG_SPILL_CTL w.toNat State.logSpillCtl)

/-- LOG_SPILL_LO and LOG_SPILL_HI while EN is 1 (R430). -/
def State.logSpillAddr (off : Nat) (a : Admit) : State :=
  if a.st.bit F.LOG_SPILL_CTL_EN then (if a.wrote off then a.st.orFld F.LOG_ERR_ERR 4 else a.st) else a.plain off

end Sys2Proof.Machine
end

