-- ==== Sys2Proof/Machine/Reset.lean ====
section
/-!
DEFINITION. Resets of the core domain and of the application domain (R6, R54, R102, R416, R429, R506 to R516), and the boot
path of the Keeper (R517 to R521).
Readings and choices beyond the spec's plain words: log entries 67 and 68.
-/
namespace Sys2Proof.Machine

/-- R6: whether reset kind `k` restores the registers of a row; HEAD and ENGINE resets name theirs elsewhere. -/
def RegRow.restored (r : RegRow) (k : ResetKind) : Bool :=
  match k with
  | .aonPor => true
  | .por => r.kinds != .aon
  | .pin => r.kinds != .aon && r.kinds != .por
  | .dip | .wdt | .sys => r.kinds != .aon && r.kinds != .por && r.kinds != .strap
  | .app => r.kinds == .app
  | .head | .engine => false

/-- The entries of a bank that reset kind `k` leaves. KEEP_CAUSE is held in the always-on domain (R509). -/
def bankKeep (k : ResetKind) (b : Tbl Word) : Tbl Word :=
  b.filter (fun e => match rowAt e.1 with
    | some r => !r.restored k || (e.1 == R.KEEP_CAUSE && k != .aonPor)
    | none => false)

/-- The order of the reset table of R506, higher kinds first; also the KIND of a RESET record. -/
def ResetKind.num : ResetKind → Nat
  | .aonPor | .por => 0
  | .dip => 1 | .pin => 2 | .wdt => 3 | .sys => 4 | .app => 5 | .head => 6 | .engine => 7

/-- KEEP_CAUSE (R509). -/
def causeWord (kind sub code : Nat) : Nat := kind * 2 ^ 28 + sub * 2 ^ 24 + code

/-- The RESET record (R422). -/
def State.resetRec (s : State) (kind inst cause : Nat) : State :=
  s.logHw 2 0xFF (leBytes 1 kind ++ leBytes 1 inst ++ leBytes 2 0 ++ leBytes 4 cause ++ leBytes 8 0) true

/-- Whether a byte of memory outlives a reset of the core domain (R515): nothing a POR; otherwise all but DRAM, and the keeper island and the
Logbook alone where the reset ends RETAIN. -/
def memKept (k : ResetKind) (retain : Bool) (a : Nat) : Bool :=
  k.num != 0 && (if retain then 0x4100000000 ≤ a && a < 0x4300000000 else 0x1000000000 ≤ a)

/-- R507, R515: the core domain is reset; what the survival table keeps is kept, everything else takes its reset value. RAIL_EN, VID and THERM_N
do not change. -/
def State.coreReset (s : State) (k : ResetKind) (sub code : Nat) : State :=
  let fresh : State :=
    { regs := bankKeep k s.regs
      live := bankKeep k s.live
      mem := s.mem.filter (fun e => memKept k (s.pwr.phase = .retain) e.1)
      chk := s.chk.filter (fun e => memKept k (s.pwr.phase = .retain) e.1)
      flash := s.flash
      time := { clk := s.time.clk, ppsLevel := s.time.ppsLevel }
      log := if k.num = 0 then {} else s.log
      pwr := { s.pwr with phase := if k.num = 0 then .rails else .reset, kind := k.num, clkPoint := 1, dvfsTo := 1,
                          woke := false, xop := none, vSlot := none, warm := if k.num = 0 then none else s.pwr.warm }
      gpio := s.gpio
      tap := if k.num = 0 then {} else s.tap
      resp := s.resp
      pending := s.pending }
  fresh.setReg R.KEEP_CAUSE (BitVec.ofNat 32 (causeWord k.num sub code))

/-- R506: a reset arises; one already being taken absorbs kinds that are not higher. -/
def State.takeReset (s : State) (k : ResetKind) (sub code : Nat) : State :=
  match s.pwr.phase with
  | .run | .retain => s.coreReset k sub code
  | .reset => if k.num < s.pwr.kind then s.coreReset k sub code else s
  | .rails => if k.num = 0 then s.coreReset k sub code else s
  | .deep => s

/-- Engine status after an APP reset: IDLE, OFF or RETIRED, with no job. -/
def State.engIdle (s : State) (st en cv q : Fld) : State :=
  s.setFlds [(st, if s.fld st = 3 then 3 else s.fld en), (cv, 0), (q, 0)]
/-- R508: the engines abandon what they have in hand and discard every job. -/
def State.enginesAbandon (s : State) : State :=
  let s := (List.range 16).foldl (fun s n =>
    s.engIdle (F.DEC_ENG_STATUS_STATE n) (F.DEC_ENG_CTL_EN n) (F.DEC_ENG_STATUS_CTX_VALID n) (F.DEC_ENG_STATUS_QLEVEL n)) s
  let s := (List.range 8).foldl (fun s n =>
    s.engIdle (F.ENC_ENG_STATUS_STATE n) (F.ENC_ENG_CTL_EN n) (F.ENC_ENG_STATUS_CTX_VALID n) (F.ENC_ENG_STATUS_QLEVEL n)) s
  { s with
    deng := s.deng.foldl (fun t e => Tbl.set (fun _ => {}) t e.1 { e.2 with queue := [], cur := none, turn := 0 }) s.deng
    eeng := s.eeng.foldl (fun t e => Tbl.set (fun _ => {}) t e.1 { e.2 with queue := [], cur := none, turn := 0 }) s.eeng }
/-- The links forget the units of contexts that are reset and the barges of the snapshot sender. -/
def State.linksAbandon (s : State) : State :=
  { s with links := s.links.foldl (fun t e => Tbl.set (fun _ => {}) t e.1
      { e.2 with aus := [], units := [], waiting := e.2.waiting.filter (fun b => !(0x65 ≤ b.typ && b.typ ≤ 0x67)) }) s.links }

/-- An application core's watchdog, where EN is 1, while the core is held in reset (R95, R96): EN stays, REMAIN is at TIMEOUT, and the count
starts at release. DESIGN CHOICE: that REMAIN comes to TIMEOUT counts as a reload and clears WARNED (log entry 42). -/
def State.wdHold (s : State) (c : Nat) : State :=
  if s.bit (F.ICTL_WDOG_CTL_EN c) then (s.setCore c { s.core c with wdRun := true }).setBit (F.ICTL_WDOG_STAT_WARNED c) false else s

/-- The application domain is reset (R54, R102, R441, R506, R508, R515); passed chambers stay owed to their heads. -/
def State.appReset (s : State) : State :=
  let s := { s with
    regs := bankKeep .app s.regs
    live := bankKeep .app s.live
    cores := s.cores.filter (fun e => e.1 == 12)
    lines := []
    serv := s.serv.filter (fun p => p.2 == 8)
    sqWait := []
    sqReached := []
    chambers := []
    dctx := []
    ectx := []
    pair := { s.pair with readyAt := none, snap := none } }
  let s := (List.range 8).foldl (fun s c => s.wdHold c) s
  let s := s.setFlds [(F.STEP_CTL_READY, 0), (F.STEP_STATUS_IN_STEP, 0), (F.STEP_STATUS_READY_PENDING, 0), (F.STEP_STATUS_JOIN_PENDING, 0)]
  (s.enginesAbandon.linksAbandon).dropWrites (fun m => m < 12 || (0x10 ≤ m && m < 0x28))

/-- The role of R439 for the pins and IN_STEP. -/
def roleOf (pins : Nat) (inStep : Bool) : Nat :=
  if pins == 3 then 0 else if pins == 1 then 1 else if pins == 2 then (if inStep then 2 else 3) else 4

/-! ### Boot (R516 to R521) -/

def State.flashBytes (s : State) (o n : Nat) : List Byte := Tbl.getN (fun _ => 0xFF) s.flash o n
def allZero (l : List Byte) : Bool := l.all (· == 0)

/-- The first check of R519 that a slot's header fails, 0 where none does; `readOk` tells that its reads met their time. -/
def State.slotCheck (s : State) (slot : Nat) (readOk : Bool) : Nat :=
  let o := slot * 0x100000
  let h := s.flashBytes o 256
  let at' (i n : Nat) : Nat := leNat (slice h i n)
  let octal := at' 6 1 == 1
  let len := at' 12 4
  let key := slice h 64 64
  if !readOk then 6
  else if at' 0 4 != 0x464B4E56 then 1
  else if at' 4 2 != 1 || 1 < at' 6 1 || len % 64 != 0 || len < 64 || 983040 < len || at' 16 4 % 4 != 0 || len ≤ at' 16 4 ||
      !allZero (slice h 27 37) || !allZero (slice h 192 64) ||
      (if octal then 2 < at' 7 1 || at' 26 1 < 4 || 30 < at' 26 1 else at' 7 1 != 0 || !allZero (slice h 20 7)) then 2
  else if at' 8 4 < s.pwr.fuses then 3
  else if allZero s.pwr.keyHash || sha256 key != s.pwr.keyHash then 4
  else if !ecdsaOk key (slice h 128 64) (sha256 (h.take 128 ++ s.flashBytes (o + 256) len)) then 5
  else 0

/-- A record the boot ROM submits as the Keeper (R519). -/
def State.romRec (s : State) (typ : Nat) (payload : List Byte) : State :=
  s.logPut { typ := typ, master := 0x0C, payload := slice payload 0 16, time := s.logTime, last := s.logTime, fold := false }

def State.bootFrom (s : State) (slot : Nat) : State :=
  let o := slot * 0x100000
  let h := s.flashBytes o 256
  let len := leNat (slice h 12 4)
  let entry := leNat (slice h 16 4)
  let ver := leNat (slice h 8 4)
  let octal := leNat (slice h 6 1) == 1
  let s := s.storeSramBytes .island 0x4100000000 (s.flashBytes (o + 256) len) false
  let s := s.setFlds [(F.MGMT_XSPI_CFG_FREQ, if octal then leNat (slice h 7 1) + 1 else 0),
    (F.MGMT_XSPI_CFG_DUMMY, if octal then leNat (slice h 26 1) else 8),
    (F.KEEP_BOOT_SLOT, slot), (F.KEEP_BOOT_FALLBACK, slot), (F.KEEP_BOOT_VER_VERSION, ver)]
  let s := s.romRec 0x4000 (leBytes 1 slot ++ leBytes 3 0 ++ leBytes 4 ver)
  let s := { s with pwr := { s.pwr with warm := some (len, entry, sha256 (s.bytes 0x4100000000 len)) } }
  s.setCore 12 { CoreSt.reset 12 with pc := BitVec.ofNat 64 (0x4100000000 + entry) }

/-- What a slot that fails check `c` leaves in keeper island SRAM (R517): its image, which is loaded before the checks. DESIGN CHOICE: a header
that is no header (checks 1 and 2) gives no LENGTH to load, and a read that fails (check 6) brings nothing (log entry 68). -/
def State.slotLoad (s : State) (slot c : Nat) : State :=
  if 3 ≤ c && c ≤ 5 then
    s.storeSramBytes .island 0x4100000000 (s.flashBytes (slot * 0x100000 + 256) (leNat (s.flashBytes (slot * 0x100000 + 12) 4))) false
  else s
/-- The cold path: slot 0, then slot 1, then HALT (R517, R519, R520). -/
def State.bootCold (s : State) (ok0 ok1 : Bool) : State :=
  let c0 := s.slotCheck 0 ok0
  if c0 = 0 then s.bootFrom 0
  else
    let s := (s.slotLoad 0 c0).romRec 0x4001 (leBytes 1 0 ++ leBytes 1 c0)
    let c1 := s.slotCheck 1 ok1
    if c1 = 0 then s.bootFrom 1
    else ((s.slotLoad 1 c1).romRec 0x4001 (leBytes 1 1 ++ leBytes 1 c1)).setBit F.KEEP_BOOT_HALT true

/-- The warm path (R521). -/
def State.bootWarm (s : State) (ok0 ok1 : Bool) : State :=
  match s.pwr.warm with
  | some (len, entry, dig) =>
    if sha256 (s.bytes 0x4100000000 len) = dig then
      s.setCore 12 { CoreSt.reset 12 with pc := BitVec.ofNat 64 (0x4100000000 + entry) }
    else s.bootCold ok0 ok1
  | none => s.bootCold ok0 ok1

/-- Pins sampled at the release of a reset (R20, R507); the GPIO inputs show the levels that the board holds. -/
def State.samplePins (s : State) (role : Nat) (pair strap : Bool) : State :=
  let s := { s with pwr := { s.pwr with rolePins := role, pairSel := pair },
                    time := { s.time with ppsSince := 2 * s.time.clk } }
  let s := if strap then s.setBit F.SYS_STRAP_PAIR_POS pair else s
  let s := s.setReg R.MGMT_GPIO_IN s.gpio
  let r := roleOf role false
  let own : Bool := r == 0 || r == 1
  let s := { s with touch := { s.touch with driving := own, newOwner := own, idle := s.time.clk, sent := s.time.clk } }
  s.setFlds [(F.STEP_STATUS_PINS, role), (F.STEP_STATUS_ROLE, r), (F.STEP_STATUS_TOUCH_OWNER, own.toNat), (F.TOUCH_STATUS_OWNER, own.toNat)]

/-- R416, R429, R505, R507, R516: the reset is released and the Keeper starts. -/
def State.release (s : State) (role : Nat) (pair ok0 ok1 : Bool) : State :=
  let cause := (s.reg R.KEEP_CAUSE).toNat
  let kind := s.pwr.kind
  let s := { s with pwr := { s.pwr with phase := .run, thermN := s.pwr.thermN || kind == 0, kwLoad := s.time.clk, released := s.time.clk } }
  let s := s.samplePins role pair (kind == 0 || kind == 2)
  let s :=
    if kind == 0 then
      let s := ((s.setReg64 R.LOG_NEXT_SEQ_LO R.LOG_NEXT_SEQ_HI 1).logArm false)
      s.logAppendEv { typ := 2, master := 0xFF, payload := leBytes 4 0 ++ leBytes 4 cause ++ leBytes 8 0,
                      time := s.logTime, last := s.logTime, fold := true }
    else s.resetRec kind 0 cause
  s.bootCold ok0 ok1

end Sys2Proof.Machine
end

