-- ==== Sys2Proof/Machine/CoreOps.lean ====
section
/-!
DEFINITION. What every Norser instruction shares: registers, fetch checks, predication, exception, interrupt and NMI entry
(R83 to R88, R117), and retirement.
Readings and choices beyond the spec's plain words: log entries 7 and 31.
-/
namespace Sys2Proof.Machine

/-! ### Registers and status -/

def CoreSt.rg (x : CoreSt) (i : Nat) : DWord := if i = 0 then 0 else Tbl.get (fun _ => 0) x.g i
def CoreSt.setRg (x : CoreSt) (i : Nat) (v : DWord) : CoreSt :=
  if i = 0 then x else { x with g := Tbl.set (fun _ => 0) x.g i v }
/-- Four registers from `i` on (LDQ). -/
def CoreSt.setGroup (x : CoreSt) (i : Nat) (d : List Byte) : CoreSt :=
  (List.range 4).foldl (fun x k => x.setRg (i + k) (BitVec.ofNat 64 (leNat (slice d (8 * k) 8)))) x
def CoreSt.group (x : CoreSt) (i : Nat) : List Byte := (List.range 4).flatMap (fun k => leBytes 8 (x.rg (i + k)).toNat)

def CoreSt.pr (x : CoreSt) (i : Nat) : Bool := i == 0 || x.preds.getLsbD i
def CoreSt.setPr (x : CoreSt) (i : Nat) (b : Bool) : CoreSt :=
  if i = 0 then x else { x with preds := BitVec.ofNat 8 (putBits x.preds.toNat i i b.toNat) }

def CoreSt.ie (x : CoreSt) : Bool := x.status.getLsbD 0
def CoreSt.exl (x : CoreSt) : Bool := x.status.getLsbD 1
def CoreSt.nmil (x : CoreSt) : Bool := x.status.getLsbD 2
def CoreSt.mode (x : CoreSt) : Nat := bits x.status.toNat 4 3
def isA (c : Nat) : Bool := c < 8
def isT (c : Nat) : Bool := 8 ≤ c && c < 12
def isK (c : Nat) : Bool := c == 12
/-- U mode, which only A cores have (R78). -/
def CoreSt.user (x : CoreSt) : Bool := x.mode == 0

/-- A STATUS word built of MODE, NMIL, EXL and IE. -/
def mkStatus (mode : Nat) (nmil exl ie : Bool) : DWord :=
  BitVec.ofNat 64 (8 * mode + 4 * nmil.toNat + 2 * exl.toNat + ie.toNat)

/-- Whether core `c` is executing: not while a load waits for the flash (R527). -/
def State.executing (s : State) (c : Nat) : Bool :=
  (s.core c).xip.isNone && if isT c then s.fld (F.TICK_SQ_STATUS_STATE (c - 8)) == 2 && decide ((s.core c).run ≠ .debug)
  else decide ((s.core c).run = .running)

/-! ### Exceptions (R83 to R88) -/

/-- R117: a fault stops sequencer `k` at its instruction. -/
def State.sqFault (s : State) (k code : Nat) (val : DWord) : State :=
  let pc := (s.core (8 + k)).pc.toNat
  s.setFlds [(F.TICK_SQ_STATUS_STATE k, 4), (F.TICK_SQ_FAULT_VALID k, 1), (F.TICK_SQ_FAULT_PC k, pc / 4),
    (F.TICK_SQ_FAULT_CODE k, code), (F.TICK_SQ_FVAL_LO_VAL k, val.toNat), (F.TICK_SQ_FVAL_HI_VAL k, val.toNat / 2 ^ 32)]

/-- The state of core `c` after entering its exception handler (R84). -/
def CoreSt.enter (x : CoreSt) (c : Nat) (cause eval : DWord) (vector : Nat) : CoreSt :=
  { x with
    estatus := x.status, epc := x.pc, ecause := cause, eval := eval
    status := mkStatus (if isK c then 3 else 1) x.nmil true false
    pc := x.evec + BitVec.ofNat 64 vector }

/-- R84, R87: a synchronous exception of core `c`: the handler is entered, or a double fault stops an A core and resets the
Keeper; a T core faults (R88). -/
def State.raise (s : State) (c cause : Nat) (val : DWord) : State :=
  let x := s.core c
  if isT c then s.sqFault (c - 8) cause val
  else if x.exl || x.nmil then
    if isK c then s.takeReset .wdt 2 0
    else (s.setCore c { x with run := .halted }).putBitAt F.ICTL_HALT_DF c true
  else s.setCore c (x.enter c (BitVec.ofNat 64 cause) val 0)

/-- The ECAUSE word of an interrupt: INT, MORE and CODE. -/
def intCause (code : Nat) (more : Bool) : DWord := BitVec.ofNat 64 (2 ^ 63 + more.toNat * 2 ^ 62 + code)

/-- R85: the interrupt entry that core `c` takes at an instruction boundary, if any. -/
def State.interrupt? (s : State) (c : Nat) : Option State :=
  let x := s.core c
  if x.ie && !x.exl && !x.nmil then
    match x.notice with
    | some a => some (s.setCore c { x.enter c (intCause 0x12 x.more) a 0x80 with notice := none, more := false })
    | none =>
      if s.external (if isK c then 8 else c) then
        some (s.setCore c (x.enter c (intCause 0x10 false) (Config.intEval 0x10 x.instret) 0x80))
      else none
  else none

/-- R84, R96: the NMI entry of core `c`, if an NMI is pending and NMIL is 0. -/
def State.nmi? (s : State) (c : Nat) : Option State :=
  let x := s.core c
  if x.nmi && !x.nmil then
    some (s.setCore c { x with
      nstatus := x.status, nepc := x.pc, ecause := intCause 0x11 false, eval := Config.intEval 0x11 x.instret
      status := mkStatus (if isK c then 3 else 1) true x.exl false
      pc := x.evec + 0x100, nmi := false })
  else none

/-- R85: NMI first, then a notice, then an external interrupt; T cores have none. -/
def State.boundary? (s : State) (c : Nat) : Option State :=
  if isT c then none
  else match s.nmi? c with
    | some t => some t
    | none => s.interrupt? c

/-! ### Fetch (R51, R70, R83) -/

/-- The region a core may fetch from. -/
def State.fetchOk (s : State) (c pc : Nat) : Bool :=
  match s.region pc with
  | .dram | .gen => isA c
  | .xspi => isA c
  | .seq => isT c && pc / 0x40000 % 4 == c - 8
  | .rom | .island => isK c
  | _ => false

/-- The code word, or SRAM word, that the fetch at `pc` reads, where that store has check bits. -/
def State.fetchUnit? (s : State) (pc : DWord) : Option (Region × Nat) :=
  let r := s.region pc.toNat
  if r = .rom || r = .xspi then none else some (r, pc.toNat / r.unit * r.unit)
/-- The fetch at `pc`, where it meets no exception, corrects an error: it is counted and logged (R365, R368). -/
def State.fetchCorrects (s : State) (pc : DWord) : Bool :=
  match s.fetchUnit? pc with
  | some (r, u) => s.unitEcc r u != .clean
  | none => false
/-- `s` after that fetch. -/
def State.fetched (s : State) (c : Nat) (pc : DWord) : State :=
  match s.fetchUnit? pc with
  | some (r, u) => s.noteUnit c r u
  | none => s

/-- The exception that the fetch at `pc` meets: cause and state after it. DESIGN CHOICE: an A core's fetch from DRAM judges the code word
that memory holds, also where the data caches hold its line dirty (log entry 7). -/
def State.fetchFault? (s : State) (c : Nat) (pc : DWord) : Option (State × Nat) :=
  let a := pc.toNat
  let r := s.region a
  if a % 4 ≠ 0 then some (s, 1)
  else if !s.fetchOk c a then some (s, 2)
  else if r = .dram && s.retired a then some (s.noteRetired c a, 2)
  else if !s.waits r && (s.seenByte r a).2 && r ≠ .rom && r ≠ .xspi then
    some ((s.noteUnit c r (a / r.unit * r.unit)).poisonRec c a 0, 3)
  else none

/-! ### Executing one instruction -/

/-- What an instruction's own effect comes to. -/
inductive Fx where
  | done (s : State)
  | jump (s : State) (pc : DWord)
  | raise (s : State) (cause : Nat) (val : DWord)
  | hold (s : State)

/-- Instruction retired: the pc moves on and INSTRET counts it (R80). -/
def State.retire (s : State) (c : Nat) (pc : DWord) : State :=
  let x := s.core c
  s.setCore c { x with pc := pc, instret := x.instret + 1 }

/-- R56: the predicate field holds. -/
def CoreSt.holds (x : CoreSt) (pf : BitVec 4) : Bool := (x.pr (pf.toNat % 8)) != pf.getLsbD 3

/-- The frame of every instruction of core `c` (R56, R57, R83 to R85): pending entries first, then the fetch, the encoding,
the predicate, and the instruction's own effect `f`. `word` is the instruction word and `legal` that its encoding is defined
on this core. -/
def State.instr (s : State) (c : Nat) (pf : BitVec 4) (word : Nat) (legal : Bool) (f : State → CoreSt → Fx) : State :=
  s.ifRun fun s =>
    if !s.executing c then s
    else match s.boundary? c with
      | some t => t
      | none =>
        let x := s.core c
        match s.fetchFault? c x.pc with
        | some (t, cause) => t.raise c cause x.pc
        | none =>
          if s.waits (s.region x.pc.toNat) then s
          else
          let s := if s.fetchCorrects x.pc then s.fetched c x.pc else s
          if pf = 8 || !legal then s.raise c 4 (BitVec.ofNat 64 word)
          else if !x.holds pf then s.retire c (x.pc + 4)
          else match f s x with
            | .done t => t.retire c (x.pc + 4)
            | .jump t pc => t.retire c pc
            | .raise t cause val => t.raise c cause val
            | .hold t => t

/-- An effect that writes register `rd` and nothing else. -/
def Fx.write (s : State) (c : Nat) (x : CoreSt) (rd : Nat) (v : DWord) : Fx := .done (s.setCore c (x.setRg rd v))

end Sys2Proof.Machine
end

