-- ==== Sys2Proof/Machine/Flags.lean ====
section
/-!
DEFINITION. The arithmetic of the ALU and the conditions of CMP and CMPI (R60 to R62). Norser has no flags; its conditions set
predicate registers.
-/
namespace Sys2Proof.Machine

def aluMulh (a b : DWord) : DWord := BitVec.ofInt 64 (a.toInt * b.toInt / 2 ^ 64)
def aluMulhu (a b : DWord) : DWord := BitVec.ofNat 64 (a.toNat * b.toNat / 2 ^ 64)
/-- R61: all ones on division by zero; -2^63 by -1 gives -2^63. -/
def aluDiv (a b : DWord) : DWord := if b = 0 then BitVec.allOnes 64 else BitVec.ofInt 64 (a.toInt.tdiv b.toInt)
def aluDivu (a b : DWord) : DWord := if b = 0 then BitVec.allOnes 64 else BitVec.ofNat 64 (a.toNat / b.toNat)
def aluRem (a b : DWord) : DWord := if b = 0 then a else BitVec.ofInt 64 (a.toInt.tmod b.toInt)
def aluRemu (a b : DWord) : DWord := if b = 0 then a else BitVec.ofNat 64 (a.toNat % b.toNat)
def aluMin (a b : DWord) : DWord := if a.toInt ≤ b.toInt then a else b
def aluMax (a b : DWord) : DWord := if a.toInt ≤ b.toInt then b else a
def aluMinu (a b : DWord) : DWord := if a.toNat ≤ b.toNat then a else b
def aluMaxu (a b : DWord) : DWord := if a.toNat ≤ b.toNat then b else a

/-- The number of bits below position `n` of `a`, from the top down, that precede the first 1. -/
def clzAux (a : DWord) : Nat → Nat
  | 0 => 0
  | n + 1 => if a.getLsbD n then 0 else 1 + clzAux a n
def ctzAux (a : DWord) : Nat → Nat → Nat
  | 0, _ => 0
  | f + 1, i => if a.getLsbD i then 0 else 1 + ctzAux a f (i + 1)
def aluClz (a : DWord) : DWord := BitVec.ofNat 64 (clzAux a 64)
def aluCtz (a : DWord) : DWord := BitVec.ofNat 64 (ctzAux a 64 0)
def aluPopc (a : DWord) : DWord := BitVec.ofNat 64 ((List.range 64).filter (fun i => a.getLsbD i)).length
def aluSextw (a : DWord) : DWord := (a.truncate 32).signExtend 64
def aluZextw (a : DWord) : DWord := (a.truncate 32).zeroExtend 64
def shAmt (b : DWord) : Nat := b.toNat % 64

/-- R62: the condition `k` on two operands. -/
def condHolds (k : Nat) (a b : DWord) : Bool :=
  match k with
  | 0 => a == b
  | 1 => a != b
  | 2 => decide (a.toInt < b.toInt)
  | 3 => decide (b.toInt ≤ a.toInt)
  | 4 => decide (a.toNat < b.toNat)
  | 5 => decide (b.toNat ≤ a.toNat)
  | 6 => (a &&& b) != 0
  | _ => (a &&& b) == 0

end Sys2Proof.Machine
end

