-- ==== Sys2Proof/Machine/Alu.lean ====
section
/-!
DEFINITION. The register instructions: ALU, immediates, LUI, AUIPC, CMP, CMPI, PRED and SEL (R59 to R62). An operand `z` holds
the bits that must be zero (R58).
-/
namespace Sys2Proof.Machine

/-- An ALU operation of fn `fn` (R60). -/
def State.alu (s : State) (c : Fin 13) (pf : BitVec 4) (rd ra rb : BitVec 5) (fn : Nat) (op : DWord → DWord → DWord) : State :=
  s.instr c.val pf (wordR pf 0x00 rd.toNat ra.toNat rb.toNat fn) true fun s x =>
    Fx.write s c.val x rd.toNat (op (x.rg ra.toNat) (x.rg rb.toNat))

/-- An ALU operation on ra alone, whose rb must be g0 (R60). -/
def State.alu1 (s : State) (c : Fin 13) (pf : BitVec 4) (rd ra rb : BitVec 5) (fn : Nat) (op : DWord → DWord) : State :=
  s.instr c.val pf (wordR pf 0x00 rd.toNat ra.toNat rb.toNat fn) (rb == 0) fun s x =>
    Fx.write s c.val x rd.toNat (op (x.rg ra.toNat))

def execAluAdd (c : Fin 13) (pf : BitVec 4) (rd ra rb : BitVec 5) (s : State) : Out := .next (s.alu c pf rd ra rb 0x00 fun a b => a + b)
def execAluSub (c : Fin 13) (pf : BitVec 4) (rd ra rb : BitVec 5) (s : State) : Out := .next (s.alu c pf rd ra rb 0x01 fun a b => a - b)
def execAluAnd (c : Fin 13) (pf : BitVec 4) (rd ra rb : BitVec 5) (s : State) : Out := .next (s.alu c pf rd ra rb 0x02 fun a b => a &&& b)
def execAluOr (c : Fin 13) (pf : BitVec 4) (rd ra rb : BitVec 5) (s : State) : Out := .next (s.alu c pf rd ra rb 0x03 fun a b => a ||| b)
def execAluXor (c : Fin 13) (pf : BitVec 4) (rd ra rb : BitVec 5) (s : State) : Out := .next (s.alu c pf rd ra rb 0x04 fun a b => a ^^^ b)
def execAluAndn (c : Fin 13) (pf : BitVec 4) (rd ra rb : BitVec 5) (s : State) : Out := .next (s.alu c pf rd ra rb 0x05 fun a b => a &&& ~~~b)
def execAluSll (c : Fin 13) (pf : BitVec 4) (rd ra rb : BitVec 5) (s : State) : Out := .next (s.alu c pf rd ra rb 0x08 fun a b => a <<< shAmt b)
def execAluSrl (c : Fin 13) (pf : BitVec 4) (rd ra rb : BitVec 5) (s : State) : Out := .next (s.alu c pf rd ra rb 0x09 fun a b => a >>> shAmt b)
def execAluSra (c : Fin 13) (pf : BitVec 4) (rd ra rb : BitVec 5) (s : State) : Out := .next (s.alu c pf rd ra rb 0x0A fun a b => a.sshiftRight (shAmt b))
def execAluRor (c : Fin 13) (pf : BitVec 4) (rd ra rb : BitVec 5) (s : State) : Out := .next (s.alu c pf rd ra rb 0x0B fun a b => a.rotateRight (shAmt b))
def execAluMul (c : Fin 13) (pf : BitVec 4) (rd ra rb : BitVec 5) (s : State) : Out := .next (s.alu c pf rd ra rb 0x10 fun a b => a * b)
def execAluMulh (c : Fin 13) (pf : BitVec 4) (rd ra rb : BitVec 5) (s : State) : Out := .next (s.alu c pf rd ra rb 0x11 fun a b => aluMulh a b)
def execAluMulhu (c : Fin 13) (pf : BitVec 4) (rd ra rb : BitVec 5) (s : State) : Out := .next (s.alu c pf rd ra rb 0x12 fun a b => aluMulhu a b)
def execAluDiv (c : Fin 13) (pf : BitVec 4) (rd ra rb : BitVec 5) (s : State) : Out := .next (s.alu c pf rd ra rb 0x14 fun a b => aluDiv a b)
def execAluDivu (c : Fin 13) (pf : BitVec 4) (rd ra rb : BitVec 5) (s : State) : Out := .next (s.alu c pf rd ra rb 0x15 fun a b => aluDivu a b)
def execAluRem (c : Fin 13) (pf : BitVec 4) (rd ra rb : BitVec 5) (s : State) : Out := .next (s.alu c pf rd ra rb 0x16 fun a b => aluRem a b)
def execAluRemu (c : Fin 13) (pf : BitVec 4) (rd ra rb : BitVec 5) (s : State) : Out := .next (s.alu c pf rd ra rb 0x17 fun a b => aluRemu a b)
def execAluMin (c : Fin 13) (pf : BitVec 4) (rd ra rb : BitVec 5) (s : State) : Out := .next (s.alu c pf rd ra rb 0x18 fun a b => aluMin a b)
def execAluMax (c : Fin 13) (pf : BitVec 4) (rd ra rb : BitVec 5) (s : State) : Out := .next (s.alu c pf rd ra rb 0x19 fun a b => aluMax a b)
def execAluMinu (c : Fin 13) (pf : BitVec 4) (rd ra rb : BitVec 5) (s : State) : Out := .next (s.alu c pf rd ra rb 0x1A fun a b => aluMinu a b)
def execAluMaxu (c : Fin 13) (pf : BitVec 4) (rd ra rb : BitVec 5) (s : State) : Out := .next (s.alu c pf rd ra rb 0x1B fun a b => aluMaxu a b)
def execAluClz (c : Fin 13) (pf : BitVec 4) (rd ra rb : BitVec 5) (s : State) : Out := .next (s.alu1 c pf rd ra rb 0x20 fun a => aluClz a)
def execAluCtz (c : Fin 13) (pf : BitVec 4) (rd ra rb : BitVec 5) (s : State) : Out := .next (s.alu1 c pf rd ra rb 0x21 fun a => aluCtz a)
def execAluPopc (c : Fin 13) (pf : BitVec 4) (rd ra rb : BitVec 5) (s : State) : Out := .next (s.alu1 c pf rd ra rb 0x22 fun a => aluPopc a)
def execAluSextw (c : Fin 13) (pf : BitVec 4) (rd ra rb : BitVec 5) (s : State) : Out := .next (s.alu1 c pf rd ra rb 0x24 fun a => aluSextw a)
def execAluZextw (c : Fin 13) (pf : BitVec 4) (rd ra rb : BitVec 5) (s : State) : Out := .next (s.alu1 c pf rd ra rb 0x25 fun a => aluZextw a)

/-- An I-format operation on ra and the immediate (R59). -/
def State.aluImm (s : State) (c : Fin 13) (pf : BitVec 4) (op : Nat) (rd ra : BitVec 5) (imm : BitVec 12) (f : DWord → DWord) : State :=
  s.instr c.val pf (wordI pf op rd.toNat ra.toNat imm) true fun s x => Fx.write s c.val x rd.toNat (f (x.rg ra.toNat))

def execAddi (c : Fin 13) (pf : BitVec 4) (rd ra : BitVec 5) (imm : BitVec 12) (s : State) : Out := .next (s.aluImm c pf 0x01 rd ra imm fun a => a + imm64 imm)
def execAndi (c : Fin 13) (pf : BitVec 4) (rd ra : BitVec 5) (imm : BitVec 12) (s : State) : Out := .next (s.aluImm c pf 0x02 rd ra imm fun a => a &&& imm64 imm)
def execOri (c : Fin 13) (pf : BitVec 4) (rd ra : BitVec 5) (imm : BitVec 12) (s : State) : Out := .next (s.aluImm c pf 0x03 rd ra imm fun a => a ||| imm.zeroExtend 64)
def execXori (c : Fin 13) (pf : BitVec 4) (rd ra : BitVec 5) (imm : BitVec 12) (s : State) : Out := .next (s.aluImm c pf 0x04 rd ra imm fun a => a ^^^ imm64 imm)

/-- The four shift kinds of SHI. -/
def shiftBy (kind n : Nat) (a : DWord) : DWord :=
  if kind == 0 then a <<< n else if kind == 1 then a >>> n else if kind == 2 then a.sshiftRight n else a.rotateRight n

def execShi (c : Fin 13) (pf : BitVec 4) (rd ra : BitVec 5) (z : BitVec 4) (kind : BitVec 2) (amt : BitVec 6) (s : State) : Out :=
  .next <| s.instr c.val pf (wordI pf 0x05 rd.toNat ra.toNat (z ++ kind ++ amt)) (z == 0) fun s x =>
    Fx.write s c.val x rd.toNat (shiftBy kind.toNat amt.toNat (x.rg ra.toNat))

def execLui (c : Fin 13) (pf : BitVec 4) (rd : BitVec 5) (imm : BitVec 17) (s : State) : Out :=
  .next <| s.instr c.val pf (wordU pf 0x06 rd.toNat imm) true fun s x =>
    Fx.write s c.val x rd.toNat (imm.signExtend 64 <<< 12)

def execAuipc (c : Fin 13) (pf : BitVec 4) (rd : BitVec 5) (imm : BitVec 17) (s : State) : Out :=
  .next <| s.instr c.val pf (wordU pf 0x07 rd.toNat imm) true fun s x =>
    Fx.write s c.val x rd.toNat (x.pc + (imm.signExtend 64 <<< 12))

/-- CMP (R62). -/
def execCmp (c : Fin 13) (pf : BitVec 4) (pd cond : BitVec 3) (ra rb : BitVec 5) (z : BitVec 6) (s : State) : Out :=
  .next <| s.instr c.val pf (wordC pf 0x18 pd.toNat cond.toNat ra.toNat rb.toNat + z.toNat) (z == 0) fun s x =>
    .done (s.setCore c.val (x.setPr pd.toNat (condHolds cond.toNat (x.rg ra.toNat) (x.rg rb.toNat))))

/-- CMPI (R62). -/
def execCmpi (c : Fin 13) (pf : BitVec 4) (pd cond : BitVec 3) (ra : BitVec 5) (imm : BitVec 11) (s : State) : Out :=
  .next <| s.instr c.val pf (wordCi pf 0x19 pd.toNat cond.toNat ra.toNat imm) true fun s x =>
    .done (s.setCore c.val (x.setPr pd.toNat (condHolds cond.toNat (x.rg ra.toNat) (imm.signExtend 64))))

/-- PRED (R62). -/
def State.predOp (s : State) (c : Fin 13) (pf : BitVec 4) (pd pa pb : BitVec 3) (z : BitVec 10) (fn : Nat) (op : Bool → Bool → Bool) : State :=
  s.instr c.val pf (wordP pf 0x1A pd.toNat pa.toNat pb.toNat fn + z.toNat) (z == 0) fun s x =>
    .done (s.setCore c.val (x.setPr pd.toNat (op (x.pr pa.toNat) (x.pr pb.toNat))))
def execPredAnd (c : Fin 13) (pf : BitVec 4) (pd pa pb : BitVec 3) (z : BitVec 10) (s : State) : Out := .next (s.predOp c pf pd pa pb z 0 fun a b => a && b)
def execPredOr (c : Fin 13) (pf : BitVec 4) (pd pa pb : BitVec 3) (z : BitVec 10) (s : State) : Out := .next (s.predOp c pf pd pa pb z 1 fun a b => a || b)
def execPredXor (c : Fin 13) (pf : BitVec 4) (pd pa pb : BitVec 3) (z : BitVec 10) (s : State) : Out := .next (s.predOp c pf pd pa pb z 2 fun a b => a != b)
def execPredAndn (c : Fin 13) (pf : BitVec 4) (pd pa pb : BitVec 3) (z : BitVec 10) (s : State) : Out := .next (s.predOp c pf pd pa pb z 3 fun a b => a && !b)

/-- SEL (R59): fn[6:4] names the predicate, fn[3:0] must be zero. -/
def execSel (c : Fin 13) (pf : BitVec 4) (rd ra rb : BitVec 5) (p : BitVec 3) (z : BitVec 4) (s : State) : Out :=
  .next <| s.instr c.val pf (wordR pf 0x1B rd.toNat ra.toNat rb.toNat (16 * p.toNat + z.toNat)) (z == 0) fun s x =>
    Fx.write s c.val x rd.toNat (if x.pr p.toNat then x.rg ra.toNat else x.rg rb.toNat)

end Sys2Proof.Machine
end

