-- ==== Sys2Proof/Machine/Churn.lean ====
section
/-!
DEFINITION. The Churn scrubber and the checker test window (R373 to R383).
Readings and choices beyond the spec's plain words: log entries 10 and 58.
-/
namespace Sys2Proof.Machine

/-! ### Check bytes (R362, R368) -/

/-- The check bytes of 32 data bytes, K0 lowest: the remainder by g(x) = x^4 + 15 x^3 + 54 x^2 + 120 x + 64 over GF(2^8). -/
def dramCheck (d : List Byte) : Nat :=
  let r := d.foldl (fun (r : Nat × Nat × Nat × Nat) b =>
    let f := b.toNat ^^^ r.1
    (r.2.1 ^^^ gfMul f 15, r.2.2.1 ^^^ gfMul f 54, r.2.2.2 ^^^ gfMul f 120, gfMul f 64)) (0, 0, 0, 0)
  r.1 + 2 ^ 8 * r.2.1 + 2 ^ 16 * r.2.2.1 + 2 ^ 24 * r.2.2.2

/-- The check bits of 8 data bytes: the columns of the bits that are one. -/
def sramCheck (d : List Byte) : Nat :=
  let v := leNat d
  (List.range 64).foldl (fun x i => if v / 2 ^ i % 2 = 1 then x ^^^ hsiaoCol i else x) 0

def Region.check (r : Region) (d : List Byte) : Nat := if r = .dram then dramCheck d else sramCheck d

/-! ### Churn -/

def State.churnPos (s : State) : Nat := s.fld F.CHURN_POS_LO_ADDR * 8 + s.fld F.CHURN_POS_HI_ADDR * 2 ^ 32
def State.setChurnPos (s : State) (a : Nat) : State := s.setFlds [(F.CHURN_POS_LO_ADDR, a / 8), (F.CHURN_POS_HI_ADDR, a / 2 ^ 32)]
def State.churnStart (s : State) : Nat := s.fld F.CHURN_START_LO_ADDR * 32 + s.fld F.CHURN_START_HI_ADDR * 2 ^ 32
def State.churnEnd (s : State) : Nat := s.fld F.CHURN_END_LO_ADDR * 32 + s.fld F.CHURN_END_HI_ADDR * 2 ^ 32
/-- The regions whose units Churn and the test window reach. -/
def Region.units (r : Region) : Bool := decide (r = .dram) || decide (r = .gen) || decide (r = .seq)
/-- R373. -/
def State.churnRange (s : State) : Bool :=
  decide (s.churnStart < s.churnEnd) && (s.regionN s.churnStart (s.churnEnd - s.churnStart)).units

/-- The unit at CHURN_POS is done with. -/
def State.churnNext (s : State) (r : Region) : State :=
  let a := s.churnPos + r.unit
  let s := ({ s with churn := { s.churn with unit := none } }).setChurnPos a
  if s.churnEnd ≤ a then s.setFlds [(F.CHURN_STAT_BUSY, 0), (F.CHURN_STAT_DONE, 1)] else s

/-- The rewrite of unit `u` (R375): dropped after a newer write, skipped on a page retired meanwhile (R379), subject to write protection. -/
def State.churnRewrite (s : State) (r : Region) (u : Nat) (hit : Bool) : State :=
  if hit then s.bump F.CHURN_DROPPED_COUNT
  else if decide (r = .dram) && s.retired u then s.bump F.CHURN_SKIP_COUNT
  else if !s.permits 0x60 u then (s.notice 0x60 u 0 false).setBit F.CHURN_STAT_WPROT true
  else
    let e := s.unitEcc r u
    let d := eccFix r (s.bytes u r.unit) e
    let bad := e == .bad || e == .poison
    if r = .dram then s.storeWord 0x60 u d bad else s.storeSram r u 0 d bad
/-- The rewrite owed, if any. -/
def State.churnFinish (s : State) : State :=
  match s.churn.unit with
  | some (u, hit) => (s.churnRewrite (s.region u) u hit).churnNext (s.region u)
  | none => s

/-- ABORT (R377): the scan stops after the rewrite owed. -/
def State.churnStop (s : State) : State :=
  if !s.bit F.CHURN_STAT_BUSY then s
  else
    let s := s.churnFinish
    if s.bit F.CHURN_STAT_BUSY then s.setFlds [(F.CHURN_STAT_BUSY, 0), (F.CHURN_STAT_ABORTED, 1)] else s

/-- A list entry (R374). -/
def State.churnList (s : State) (u : Nat) (new : Bool) : State :=
  match (List.range 8).find? (fun k => !s.bit (F.CHURN_UE_HI_VALID k)) with
  | some k => s.setFlds [(F.CHURN_UE_LO_ADDR k, u / 8), (F.CHURN_UE_HI_ADDR k, u / 2 ^ 32), (F.CHURN_UE_HI_NEW k, new.toNat), (F.CHURN_UE_HI_VALID k, 1)]
  | none => s

/-- Churn reads unit `u`: the outcome, what it counts, and whether SCRUB rewrites it. -/
def State.churnRead (s : State) (r : Region) (u : Nat) : State × Bool :=
  let s := if r = .dram then
      (((s.ddrAsk (dramChan u)).drainFor [u]).bump (F.DDR_CNT_RD_COUNT (dramChan u))).tele 0x03 0x60
    else s
  let s := s.bump F.CHURN_WORDS_COUNT
  match s.unitEcc r u with
  | .clean => (s, false)
  | .corrected _ _ => (s.bump F.CHURN_CORR_COUNT, true)
  | .bad => ((s.bump F.CHURN_UNCORR_COUNT).churnList u true, true)
  | .poison => (((s.bump F.CHURN_POISON_COUNT).churnList u false).poisonRec 0x60 u 9, false)

/-- CHURN_UNIT. Reads keep a distance of unit size / MBPS, so that any 100 µs hold at most what R376 allows. -/
def execChurnUnit (split : Bool) (s : State) : Out :=
  .next <| s.ifRun fun s =>
    if !s.bit F.CHURN_STAT_BUSY then s
    else if s.churn.unit.isSome then (if s.waits (s.region s.churnPos) then s else s.churnFinish)
    else
      let u := s.churnPos
      let r := s.region u
      if decide (r = .dram) && s.retired u then (s.bump F.CHURN_SKIP_COUNT).churnNext r
      else if s.waits r then s
      else
        let s := s.advance (s.churn.clk - s.time.clk)
        let s := { s with churn := { s.churn with clk := s.time.clk + ceilDiv (r.unit * 500) (max 1 (s.fld F.CHURN_RATE_MBPS)) } }
        let x := s.churnRead r u
        if x.2 && !x.1.bit F.CHURN_CTL_MODE then
          let s := { x.1 with churn := { x.1.churn with unit := some (u, false) } }
          if split then s else s.churnFinish
        else x.1.churnNext r

/-- A write to CHURN_CTL (R373, R377). While a scan runs, a GO of 1 or another MODE is refused, and ABORT stops the scan after
the rewrite owed. -/
def State.churnCtl (a : Admit) : State :=
  let s := a.st
  if !a.took F.CHURN_CTL_MODE then s
  else if s.bit F.CHURN_STAT_BUSY then
    let s := if a.one F.CHURN_CTL_GO || a.get F.CHURN_CTL_MODE != s.fld F.CHURN_CTL_MODE then s.setBit F.CHURN_STAT_REFUSED true else s
    if !a.one F.CHURN_CTL_ABORT then s
    else if s.churn.unit.isSome && s.waits (s.region s.churnPos) then s.defer .abort
    else s.churnStop
  else
    let s := s.setFld F.CHURN_CTL_MODE (a.get F.CHURN_CTL_MODE)
    if !a.one F.CHURN_CTL_GO then s
    else if !s.churnRange then s.setBit F.CHURN_STAT_REFUSED true
    else
      let s := (List.range 22).foldl (fun s i => s.setReg (R.CHURN_WORDS + 4 * i) 0) s
      (s.setChurnPos s.churnStart).setBit F.CHURN_STAT_BUSY true
def execChurnGo (m : Mst) (w : Word) (s : State) : Out := .next (s.runReg m.toNat R.CHURN_CTL w.toNat State.churnCtl)
def execChurnAbort (m : Mst) (w : Word) (s : State) : Out := .next (s.runReg m.toNat R.CHURN_CTL w.toNat State.churnCtl)

/-- A write to another CHURN register at `off`. -/
def State.churnCfg (off : Nat) (a : Admit) : State :=
  if R.CHURN_RATE ≤ off && off ≤ R.CHURN_END_HI && a.st.bit F.CHURN_STAT_BUSY then
    if a.wrote off then a.st.setBit F.CHURN_STAT_REFUSED true else a.st
  else a.plain off

/-! ### The checker test window (R381) -/

/-- One operation of the window on unit `u`, with the data and check bytes a write stores. -/
def State.diagRun (s : State) (op u : Nat) (d : List Byte) (chk : Nat) : State :=
  let r := s.region u
  let no := s.setBit F.ECC_DIAG_STAT_REFUSED true
  if !r.units || u % r.unit != 0 then no.orFld F.ECC_ERR_ERR 0x80
  else if decide (r = .dram) && s.retired u then (no.noteRetired 12 u).orFld F.ECC_ERR_ERR 0x80
  else if op = 1 || op = 2 then
    if !s.permits 12 u then no.notice 12 u 0 false
    else
      let d := d.take r.unit
      let chk := if r = .dram then chk else chk % 256
      let s := (s.churnHit u).spillLine u
      let s := (s.putBytes u d).setDelta u (if op = 1 then chk ^^^ r.check d else 0)
      (if r = .dram then s.enqueue 12 u else s).setBit F.ECC_DIAG_STAT_DONE true
  else
    let s := if r = .dram then
        (((s.ddrAsk (dramChan u)).drainFor [u]).bump (F.DDR_CNT_RD_COUNT (dramChan u))).tele 0x03 12
      else s
    let d := s.bytes u r.unit
    let s := (List.range (r.unit / 4)).foldl (fun s k => s.setReg (R.ECC_DIAG_DATA k) (BitVec.ofNat 32 (leNat (slice d (4 * k) 4)))) s
    let s := s.setReg R.ECC_DIAG_CHK (BitVec.ofNat 32 (r.check d ^^^ s.delta u))
    let s := match s.unitEcc r u with
      | .clean => s.setFld F.ECC_DIAG_STAT_RESULT 0
      | .corrected sym _ => s.setFlds [(F.ECC_DIAG_STAT_RESULT, 1), (F.ECC_DIAG_STAT_SYM, sym)]
      | .poison => s.setFld F.ECC_DIAG_STAT_RESULT 2
      | .bad => s.setFld F.ECC_DIAG_STAT_RESULT 3
    s.setBit F.ECC_DIAG_STAT_DONE true
/-- A write to ECC_DIAG_CTL: the registers as they stand say what is done. An operation on a unit of DRAM waits for a frequency change to end
(R355). An unlisted OP acts as READ_RAW (R5). -/
def State.diagCtl (a : Admit) : State :=
  let s := a.plain R.ECC_DIAG_CTL
  if !a.one F.ECC_DIAG_CTL_GO then s
  else
    let s := s.setBit F.ECC_DIAG_CTL_GO false
    let u := s.fld F.ECC_DIAG_ADDR_LO_ADDR * 8 + s.fld F.ECC_DIAG_ADDR_HI_ADDR * 2 ^ 32
    let d := ((List.range 8).map (fun k => leBytes 4 (s.reg (R.ECC_DIAG_DATA k)).toNat)).flatten
    let op := s.fld F.ECC_DIAG_CTL_OP
    let chk := (s.reg R.ECC_DIAG_CHK).toNat
    if s.region u = .dram ∧ u % 32 = 0 ∧ s.fc.stage = .change then s.defer (.diag op u d chk) else s.diagRun op u d chk
def diagWrite (m : Mst) (w : Word) (s : State) : Out := .next (s.runReg m.toNat R.ECC_DIAG_CTL w.toNat State.diagCtl)
def execDiagReadRaw (m : Mst) (w : Word) (s : State) : Out := diagWrite m w s
def execDiagWriteRaw (m : Mst) (w : Word) (s : State) : Out := diagWrite m w s
def execDiagWriteData (m : Mst) (w : Word) (s : State) : Out := diagWrite m w s

/-- A write to another ECC register at `off`: any write zeroes a counter. -/
def State.eccCfg (off : Nat) (a : Admit) : State :=
  if R.ECC_CNT_CE_DRAM ≤ off && off ≤ R.ECC_CNT_RET then a.st.setReg off 0 else a.plain off

end Sys2Proof.Machine
end

