-- ==== Sys2Proof/Machine/CoreStore.lean ====
section
/-!
DEFINITION. The A-core caches and the stores that wait for their check (R70, R71, R73, R86, R394, R395). Only dirty lines are
held: clean copies always equal memory, because every other write invalidates them (R75).
Readings and choices beyond the spec's plain words: log entries 23 and 24.
-/
namespace Sys2Proof.Machine

/-- R355: an access of core `c` to address `a` waits for DRAM; one to a line that the A-core caches hold dirty, or to a retired page,
needs none. -/
def State.dramWaits (s : State) (c a : Nat) : Bool :=
  decide (s.fc.stage = .change) && decide (s.region a = .dram) && !s.retired a && !(isA c && (s.lineAt a).isSome)
/-- A store of core `c` that has retired waits to be performed. -/
def State.storesWait (s : State) (c : Nat) : Bool := (s.core c).stores.any (fun p => s.dramWaits c p.addr)

/-- The line of `a`, filled from DRAM by core `c` if it is not held; poison is marked per sector (R71, R371). -/
def State.fillLine (s : State) (c a : Nat) : State × Line :=
  match s.lineAt a with
  | some l => (s, l)
  | none =>
    let b := a / 64 * 64
    let r := s.read c b 64
    let bad0 := (r.bad.take 32).any id
    let bad1 := (r.bad.drop 32).any id
    let s := if bad0 || bad1 then r.st.poisonRec c b 1 else r.st
    (s, ⟨b, slice r.data 0 64, bad0, bad1, []⟩)

/-- The core whose L1 data cache may hold a dirty line: the last that stored into it. -/
def Line.owner (l : Line) : Nat := l.writers.getLastD 0
/-- How many of the dirty lines `ls` core `c` owns. -/
def ownedBy (ls : List Line) (c : Nat) : Nat := (ls.filter (fun l => l.owner == c)).length
/-- Whether the dirty lines `ls` do not all have room (R22): 1,024 in each core's L1 data cache, the rest in the 32,768 of L2. -/
def linesOverflow (ls : List Line) : Bool := decide (32768 < ((List.range 8).map (fun c => ownedBy ls c - 1024)).sum)
/-- The dirty lines after `l` is held, newest last. -/
def State.linesWith (s : State) (l : Line) : List Line := s.lines.filter (fun x => x.base != l.base) ++ [l]
/-- A line is held dirty. DESIGN CHOICE: where the caches have no room for it, the oldest line of a core that owns more than its L1 data cache
holds is written back (log entry 23). -/
def State.putLine (s : State) (l : Line) : State :=
  let ls := s.linesWith l
  let s := { s with lines := ls }
  if linesOverflow ls then
    match ls.find? (fun x => decide (1024 < ownedBy ls x.owner)) with
    | some o => s.writeBack o
    | none => s
  else s

/-- Bytes stored into a line by core `c`: a whole sector written clears its poison (R71). -/
def Line.store (l : Line) (c a : Nat) (d : List Byte) : Line :=
  let whole (k : Nat) : Bool := decide (a ≤ l.base + 32 * k) && decide (l.base + 32 * k + 32 ≤ a + d.length)
  { l with
    data := overlay l.data (a - l.base) d
    bad0 := l.bad0 && !whole 0
    bad1 := l.bad1 && !whole 1
    writers := l.writers.filter (· != c) ++ [c] }

/-- A permitted store of core `c` to normal memory is performed: in the caches for DRAM, at the SRAM otherwise. A page retired
meanwhile takes nothing (R379). -/
def State.coreStore (s : State) (c a : Nat) (d : List Byte) : State :=
  let r := s.regionN a d.length
  if r = .dram then
    if s.retired a then s.noteRetired c a
    else
      let f := s.fillLine c a
      f.1.putLine (f.2.store c a d)
  else if r.sram then s.storeSramBytes r a d false
  else s

/-- The check of a retired store returns (R86): performed, or discarded with a notice; a bus error only discards it. -/
def State.checkStore (s : State) (c : Nat) (p : PStore) : State :=
  match s.judge c p.addr with
  | .permit | .maint _ => s.coreStore c p.addr p.data
  | .bus => s
  | .refuse k => ((s.notice c p.addr k false).coreNotice c (BitVec.ofNat 64 p.addr))

/-- The oldest waiting store of core `c` is checked, unless it waits for DRAM. -/
def State.popStore (s : State) (c : Nat) : State :=
  let x := s.core c
  match x.stores with
  | [] => s
  | p :: ps => if s.dramWaits c p.addr then s else (s.setCore c { x with stores := ps }).checkStore c p

/-- Every waiting store of core `c` is checked, oldest first. -/
def State.drainStores (s : State) (c : Nat) : State :=
  (List.range (s.core c).stores.length).foldl (fun s _ => s.popStore c) s

/-- A store of core `c` that has retired overlaps `n` bytes at `a`. -/
def State.storeOver (s : State) (c a n : Nat) : Bool :=
  (s.core c).stores.any (fun p => decide (p.addr < a + n) && decide (a < p.addr + p.data.length))
/-- Own stores that overlap `n` bytes at `a` are checked before the core reads there (R73). -/
def State.drainOver (s : State) (c a n : Nat) : State := if s.storeOver c a n then s.drainStores c else s
/-- An access of core `c` to `n` bytes at `a` waits for DRAM, or for its own stores that do (R355). -/
def State.accessWaits (s : State) (c a n : Nat) : Bool := s.dramWaits c a || (decide (s.region a ≠ .reg) && s.storeOver c a n && s.storesWait c)

end Sys2Proof.Machine
end

