-- ==== Sys2Proof/Machine/Control.lean ====
section
/-!
DEFINITION. Control flow, system functions, barriers and CSRs (R59, R63, R64, R72 to R85, R96), and the entries that cores
take at an instruction boundary.
Readings and choices beyond the spec's plain words: log entries 15, 31, 32, 39 and 42.
-/
namespace Sys2Proof.Machine

/-! ### Branches and jumps (R64) -/

def branchTo (x : CoreSt) (off : BitVec 22) : DWord := x.pc + (off.signExtend 64 <<< 2)

def execBr (c : Fin 13) (pf : BitVec 4) (off : BitVec 22) (s : State) : Out :=
  .next <| s.instr c.val pf (wordB pf 0x20 off) true fun s x => .jump s (branchTo x off)

def execCall (c : Fin 13) (pf : BitVec 4) (off : BitVec 22) (s : State) : Out :=
  .next <| s.instr c.val pf (wordB pf 0x21 off) true fun s x =>
    .jump (s.setCore c.val (x.setRg 31 (x.pc + 4))) (branchTo x off)

def execJr (c : Fin 13) (pf : BitVec 4) (rd ra : BitVec 5) (imm : BitVec 12) (s : State) : Out :=
  .next <| s.instr c.val pf (wordI pf 0x22 rd.toNat ra.toNat imm) true fun s x =>
    let t := effAddr (x.rg ra.toNat) imm
    if t.toNat % 4 ≠ 0 then .raise s 1 t
    else .jump (s.setCore c.val (x.setRg rd.toNat (x.pc + 4))) t

/-! ### SYS (R63) -/

def execTrap (c : Fin 13) (pf : BitVec 4) (z : BitVec 5) (code : BitVec 10) (s : State) : Out :=
  .next <| s.instr c.val pf (wordSys pf code 0 + z.toNat * 2 ^ 17) (z == 0) fun s _ => .raise s 6 (code.zeroExtend 64)

/-- With the debug master attached, which the TAP instruction DEBUG does, the core halts for debug at the BREAK instead. -/
def execBreakpoint (c : Fin 13) (pf : BitVec 4) (z : BitVec 5) (code : BitVec 10) (s : State) : Out :=
  .next <| s.instr c.val pf (wordSys pf code 1 + z.toNat * 2 ^ 17) (z == 0 && code == 0) fun s x =>
    if s.tap.ir = 0x20 then .hold (s.setCore c.val { x with run := .debug }) else .raise s 7 0

/-- A saved STATUS as ERET restores it: a MODE the core does not have acts as S, or K on the Keeper (R78). -/
def restoredStatus (c : Nat) (v : DWord) : DWord :=
  let m := bits v.toNat 4 3
  mkStatus (if isK c then 3 else if m ≤ 1 then m else 1) (v.getLsbD 2) (v.getLsbD 1) (v.getLsbD 0)

/-- ERET (R84). -/
def execEret (c : Fin 13) (pf : BitVec 4) (z : BitVec 5) (code : BitVec 10) (s : State) : Out :=
  let word := wordSys pf code 2 + z.toNat * 2 ^ 17
  .next <| s.instr c.val pf word (z == 0 && code == 0 && !isT c.val) fun s x =>
    if x.user then .raise s 5 (BitVec.ofNat 64 word)
    else if x.nmil then .jump (s.setCore c.val { x with status := restoredStatus c.val x.nstatus }) x.nepc
    else .jump (s.setCore c.val { x with status := restoredStatus c.val x.estatus }) x.epc

/-- The ICTL target of a core. -/
def targetOf (c : Nat) : Nat := if isK c then 8 else c

/-- What ends a WFI (R63): a claimable interrupt or a pending NMI, whatever IE holds. -/
def State.wakes (s : State) (c : Nat) : Bool := (s.core c).nmi || s.external (targetOf c)

def execWfi (c : Fin 13) (pf : BitVec 4) (z : BitVec 5) (code : BitVec 10) (s : State) : Out :=
  let word := wordSys pf code 3 + z.toNat * 2 ^ 17
  .next <| s.instr c.val pf word (z == 0 && code == 0 && !isT c.val) fun s x =>
    if x.user then .raise s 5 (BitVec.ofNat 64 word)
    else if s.wakes c.val then .done s
    else .done (s.setCore c.val { x with run := .wfi })

/-- WFI_WAKE (R63). -/
def execWfiWake (c : Fin 13) (s : State) : Out :=
  .next <| s.ifRun fun s =>
    if decide ((s.core c.val).run = .wfi) && s.wakes c.val then s.setCore c.val { s.core c.val with run := .running } else s

/-- INTERRUPT_ENTRY (R85): the boundary at which a pending notice or external interrupt is taken. -/
def execInterruptEntry (c : Fin 13) (s : State) : Out :=
  .next <| s.ifRun fun s =>
    if isT c.val || !s.executing c.val || (s.nmi? c.val).isSome then s else (s.interrupt? c.val).getD s

/-- NMI_ENTRY (R84). -/
def execNmiEntry (c : Fin 13) (s : State) : Out :=
  .next <| s.ifRun fun s => if isT c.val || !s.executing c.val then s else (s.nmi? c.val).getD s

/-! ### SYNC (R72, R76) -/

/-- A SYNC form; `z` holds rd, ra and imm[11:4]. A form that orders earlier stores before anything performs those that wait
for their check: a later device store, AMO or cache operation does not wait. T and K cores have none. -/
def State.sync (s : State) (c : Fin 13) (pf : BitVec 4) (z : BitVec 18) (form : Nat) (drains : Bool) : State :=
  s.instr c.val pf (wordHead pf 0x25 + z.toNat * 16 + form) (z == 0) fun s _ =>
    if drains && isA c.val then (if s.storesWait c.val then .hold s else .done (s.drainStores c.val)) else .done s

def execSyncLl (c : Fin 13) (pf : BitVec 4) (z : BitVec 18) (s : State) : Out := .next (s.sync c pf z 1 false)
def execSyncSs (c : Fin 13) (pf : BitVec 4) (z : BitVec 18) (s : State) : Out := .next (s.sync c pf z 2 true)
def execSyncLs (c : Fin 13) (pf : BitVec 4) (z : BitVec 18) (s : State) : Out := .next (s.sync c pf z 3 false)
def execSyncSl (c : Fin 13) (pf : BitVec 4) (z : BitVec 18) (s : State) : Out := .next (s.sync c pf z 4 true)
def execSyncAll (c : Fin 13) (pf : BitVec 4) (z : BitVec 18) (s : State) : Out := .next (s.sync c pf z 7 true)
def execSyncDone (c : Fin 13) (pf : BitVec 4) (z : BitVec 18) (s : State) : Out := .next (s.sync c pf z 8 true)
def execSyncI (c : Fin 13) (pf : BitVec 4) (z : BitVec 18) (s : State) : Out := .next (s.sync c pf z 9 true)

/-! ### CSRs (R80, R81, R106) -/

/-- The CSRs of core `c`'s profile. -/
def csrKnown (c n : Nat) : Bool :=
  [0x000, 0x006, 0x007, 0x010, 0x020, 0x021, 0x022, 0x031].contains n ||
    (!isT c && [0x001, 0x002, 0x003, 0x004, 0x005, 0x008, 0x009].contains n) || (isA c && n == 0x030)
def csrUserRead (n : Nat) : Bool := [0x000, 0x010, 0x020, 0x021, 0x022, 0x031].contains n
def csrUserWrite (n : Nat) : Bool := n == 0x031

def State.csrRead (s : State) (c : Nat) (x : CoreSt) (n : Nat) : DWord :=
  match n with
  | 0x000 => x.status
  | 0x001 => x.estatus
  | 0x002 => x.epc
  | 0x003 => x.ecause
  | 0x004 => x.eval
  | 0x005 => x.evec
  | 0x006 => x.scratch0
  | 0x007 => x.scratch1
  | 0x008 => x.nepc
  | 0x009 => x.nstatus
  | 0x010 => BitVec.ofNat 64 (c + 256 * (if isA c then 0 else if isT c then 1 else 2))
  | 0x020 => BitVec.ofNat 64 (x.cyc / 5)
  | 0x021 => BitVec.ofNat 64 x.instret
  | 0x022 => BitVec.ofNat 64 s.tickNo
  | 0x031 => (x.preds ||| 1).zeroExtend 64
  | _ => 0

/-- A CSR write by the access types of R80 and R81; a write to a read-only CSR is discarded. -/
def State.csrWrite (s : State) (c n : Nat) (v : DWord) : State :=
  let x := s.core c
  match n with
  | 0x000 => s.setCore c { x with status := mkStatus x.mode x.nmil (v.getLsbD 1) (v.getLsbD 0) }
  | 0x001 => s.setCore c { x with estatus := v }
  | 0x002 => s.setCore c { x with epc := v }
  | 0x005 => s.setCore c { x with evec := v &&& ~~~(0xFF : DWord) }
  | 0x006 => s.setCore c { x with scratch0 := v }
  | 0x007 => s.setCore c { x with scratch1 := v }
  | 0x008 => s.setCore c { x with nepc := v }
  | 0x009 => s.setCore c { x with nstatus := v }
  | 0x030 => s.wdKick c
  | 0x031 => s.setCore c { x with preds := v.truncate 8 ||| 1 }
  | _ => s

/-- A CSR instruction: `new` gives the value to write, if any, from the old value and ra. -/
def State.csrInstr (s : State) (c : Fin 13) (pf : BitVec 4) (op : Nat) (rd ra : BitVec 5) (csr : BitVec 12)
    (writes : Bool) (new : DWord → DWord → DWord) : State :=
  let word := wordI pf op rd.toNat ra.toNat csr
  let n := csr.toNat
  s.instr c.val pf word (csrKnown c.val n) fun s x =>
    if x.user && (!csrUserRead n || (writes && !csrUserWrite n)) then .raise s 5 (BitVec.ofNat 64 word)
    else
      let old := s.csrRead c.val x n
      let s := if writes then s.csrWrite c.val n (new old (x.rg ra.toNat)) else s
      .done (s.setCore c.val ((s.core c.val).setRg rd.toNat old))

def execCsrrw (c : Fin 13) (pf : BitVec 4) (rd ra : BitVec 5) (csr : BitVec 12) (s : State) : Out :=
  .next (s.csrInstr c pf 0x26 rd ra csr true fun _ v => v)
def execCsrrs (c : Fin 13) (pf : BitVec 4) (rd ra : BitVec 5) (csr : BitVec 12) (s : State) : Out :=
  .next (s.csrInstr c pf 0x27 rd ra csr (ra != 0) fun o v => o ||| v)
def execCsrrc (c : Fin 13) (pf : BitVec 4) (rd ra : BitVec 5) (csr : BitVec 12) (s : State) : Out :=
  .next (s.csrInstr c pf 0x28 rd ra csr (ra != 0) fun o v => o &&& ~~~v)

/-- WDKICK (R96): CSRRW of ra to CSR 0x030, which reads as zero. -/
def execWdkick (c : Fin 13) (pf : BitVec 4) (rd ra : BitVec 5) (s : State) : Out :=
  .next (s.csrInstr c pf 0x26 rd ra 0x030 true fun _ v => v)

/-! ### Stores and dirty lines leaving an A core (R86, R394) -/

/-- STORE_NOTICE (R86): the check of the oldest retired store of core `c` returns. -/
def execStoreNotice (c : Fin 8) (s : State) : Out := .next (s.ifRun fun s => s.popStore c.val)

/-- R369: sectors `ks` of the dirty line at `b` are uncorrectable: each counts and is marked poisoned. -/
def State.lineLost (s : State) (b : Nat) (ks : List (Fin 2)) : State :=
  match s.lineAt b with
  | none => s
  | some l =>
    let s := ks.eraseDups.foldl (fun s _ => s.storeUe) s
    { s with lines := s.lines.map (fun x => if x.base == l.base then { x with bad0 := x.bad0 || ks.contains 0, bad1 := x.bad1 || ks.contains 1 } else x) }
/-- CACHE_WRITEBACK (R369, R394): a dirty line is written back, not while a frequency change runs (R355). -/
def execCacheWriteback (l : LineRun) (s : State) : Out :=
  .next (s.ifRun fun s => if s.waits .dram then s else ((s.storeCe l.mended).lineLost (l.blk.toNat * 64) l.lost).spillLine (l.blk.toNat * 64))

/-! ### Application-core watchdogs (R96) -/

/-- Time runs to `us` µs after the load of core `c`'s watchdog. -/
def State.toWdog (s : State) (c us : Nat) : State := s.advance ((s.core c).wdLoad + 500 * us - s.time.clk)
def State.wdCounts (s : State) (c : Nat) : Bool := (s.core c).wdRun && decide ((s.core c).run ≠ .held)

/-- APP_WDOG_CTL_WRITE. DESIGN CHOICE: the load that a write with EN at 1 makes counts as a reload and clears WARNED, and a write whose fields
are all discarded is none that clears EXPIRED (log entry 42). -/
def State.wdogCtl (c : Nat) (a : Admit) : State :=
  let s := a.plain (R.ICTL_WDOG_CTL c)
  let s := if !a.took (F.ICTL_WDOG_CTL_EN c) then s else s.setBit (F.ICTL_WDOG_STAT_EXPIRED c) false
  let x := s.core c
  if !a.took (F.ICTL_WDOG_CTL_EN c) then s
  else if a.get (F.ICTL_WDOG_CTL_EN c) == 1 then
    (s.setCore c { x with wdLoad := s.time.clk, wdRun := true }).setBit (F.ICTL_WDOG_STAT_WARNED c) false
  else (s.setFld (F.ICTL_WDOG_STAT_REMAIN c) (a.st.wdRemain c)).setCore c { x with wdRun := false }
def execAppWdogCtlWrite (c : Fin 8) (m : Mst) (w : Word) (s : State) : Out :=
  .next (s.runReg m.toNat (R.ICTL_WDOG_CTL c.val) w.toNat (State.wdogCtl c.val))

/-- APP_WDOG_WARN: REMAIN falls to half of TIMEOUT; the NMI is raised once. -/
def execAppWdogWarn (c : Fin 8) (s : State) : Out :=
  .next <| s.ifRun fun s =>
    if !s.wdCounts c.val || s.bit (F.ICTL_WDOG_STAT_WARNED c.val) then s
    else
      let t := s.wdTimeout c.val
      let s := (s.toWdog c.val (t - t / 2)).setBit (F.ICTL_WDOG_STAT_WARNED c.val) true
      s.setCore c.val { s.core c.val with nmi := true }

/-- APP_WDOG_EXPIRE: the count stops at zero; with ACTION at 1 the core halts. -/
def execAppWdogExpire (c : Fin 8) (s : State) : Out :=
  .next <| s.ifRun fun s =>
    if !s.wdCounts c.val then s
    else
      let s := s.toWdog c.val (s.wdTimeout c.val)
      let s := s.setFlds [(F.ICTL_WDOG_STAT_REMAIN c.val, 0), (F.ICTL_WDOG_STAT_EXPIRED c.val, 1)]
      let x := { s.core c.val with wdRun := false }
      if s.bit (F.ICTL_WDOG_CTL_ACTION c.val) then
        (s.setCore c.val { x with run := .halted }).putBitAt F.ICTL_HALT_WD c.val true
      else s.setCore c.val x

/-! ### The interrupt controller (R91 to R94) -/

/-- ICTL_SWI_SET: a line number from 256 to 1,023 in bits [9:0] is asserted; any other value is discarded. -/
def State.swiSet (a : Admit) : State :=
  let n := a.w % 1024
  if 256 ≤ n then a.st.putBitAt (F.ICTL_PEND_PEND (n / 32)) (n % 32) true else a.st
def execIctlSwiSet (m : Mst) (w : Word) (s : State) : Out := .next (s.runReg m.toNat R.ICTL_SWI_SET w.toNat State.swiSet)

/-- ICTL_PEND_k, a write: clearing a bit withdraws that software line; k below 8 is read-only. -/
def execIctlPendClear (k : Fin 32) (m : Mst) (w : Word) (s : State) : Out :=
  .next (s.runReg m.toNat (R.ICTL_PEND k.val) w.toNat (fun a => a.plain (R.ICTL_PEND k.val)))

/-- The master whose reads of target `t`'s registers claim and whose writes end service. -/
def targetMaster (t : Nat) : Nat := if t == 8 then 12 else t

/-- A read of ICTL_CLAIM_t by master `m` (R93): the value read, NONE in bit 31. The time since the line became claimable is sampled (R432). -/
def State.claim (s : State) (t m : Nat) : State × Nat :=
  if m != targetMaster t then (s, 2 ^ 31)
  else match s.bestLine t with
    | none => (s, 2 ^ 31)
    | some n =>
      let since := ((s.time.claimAt.find? (fun e => e.1 == n)).map (·.2)).getD s.time.clk
      let s := s.sample 6 t (2 * (s.time.clk - since))
      let s := { s with serv := s.serv ++ [(n, t)], time := { s.time with claimAt := s.time.claimAt.filter (fun e => e.1 != n) } }
      let s := if 256 ≤ n then s.putBitAt (F.ICTL_PEND_PEND (n / 32)) (n % 32) false else s
      (s.tele 0x17 t, n)
def execIctlClaim (t : Fin 9) (m : Mst) (s : State) : Out :=
  .next <| s.ifRun fun s => let r := s.claim t.val m.toNat; { r.1 with resp := .value r.2 }

/-- A write of LINE to ICTL_DONE_t (R93). -/
def State.endService (t m : Nat) (a : Admit) : State :=
  if m != targetMaster t then a.st
  else { a.st with serv := a.st.serv.filter (fun p => !(p.1 == a.w % 1024 && p.2 == t)) }
def execIctlDone (t : Fin 9) (m : Mst) (w : Word) (s : State) : Out :=
  .next (s.runReg m.toNat (R.ICTL_DONE t.val) w.toNat (State.endService t.val m.toNat))

end Sys2Proof.Machine
end

