-- ==== Sys2Proof/Machine/CoreAtomic.lean ====
section
/-!
DEFINITION. AMO and CAS (R69): one 64-bit word read and rewritten, in the A-core caches for DRAM and at the SRAM otherwise.
Readings and choices beyond the spec's plain words: log entry 23.
-/
namespace Sys2Proof.Machine

/-- The write check that an instruction of core `c` meets before it retires (R86, R386, R395): none where it is permitted, else
the exception it takes. -/
def State.preciseCheck (s : State) (c : Nat) (a : DWord) : Option Fx :=
  match s.judge c a.toNat with
  | .permit | .maint _ => none
  | .bus => some (.raise s 12 a)
  | .refuse k => some (.raise (s.notice c a.toNat k true) 11 a)

/-- A read of `n` bytes at `a` by core `c` where the core reads memory itself: the bytes, or the exception met (R70, R83). -/
def State.bytesAt (s : State) (c a n row : Nat) : State × Except Nat (List Byte) :=
  let r := s.read c a n
  if r.bus then (r.st, .error 12)
  else if r.poisoned then (r.st.poisonRec c a row, .error 13)
  else (r.st, .ok r.data)

/-- The same bytes, within one 32-byte sector, as the A-core caches hold them; a retired page answers with a bus error (R379). -/
def State.cachedBytes (s : State) (c a n : Nat) : State × Except Nat (List Byte) :=
  if s.retired a then (s.noteRetired c a, .error 12)
  else
    let f := s.fillLine c a
    let o := a - f.2.base
    if (if o < 32 then f.2.bad0 else f.2.bad1) then (f.1.poisonRec c a 0, .error 13)
    else (f.1, .ok (slice f.2.data o n))

/-- R69: `new` gives the value to store, if any, from the old value. DESIGN CHOICE: an address in no range, or in DRAM above the usable top,
is one of R69's other combinations, DATA_ATTR, before the bus error of R15 and R17 (log entry 23). -/
def State.atomic (s : State) (c : Nat) (x : CoreSt) (rd : Nat) (a : DWord) (new : DWord → Option DWord) : Fx :=
  let r := s.region a.toNat
  if a.toNat % 8 ≠ 0 then .raise s 8 a
  else if x.user && r = .reg then .raise s 9 a
  else if !((r = .dram && isA c) || r = .gen || r = .seq || r = .island) then .raise s 10 a
  else match s.preciseCheck c a with
    | some f => f
    | none =>
      if s.accessWaits c a.toNat 8 then .hold s else
      let s := s.drainOver c a.toNat 8
      let p := if r = .dram then s.cachedBytes c a.toNat 8 else s.bytesAt c a.toNat 8 0
      match p.2 with
      | .error e => .raise p.1 e a
      | .ok d =>
        let old := BitVec.ofNat 64 (leNat d)
        let s := match new old with
          | some w => p.1.coreStore c a.toNat (leBytes 8 w.toNat)
          | none => p.1
        .done (s.setCore c ((s.core c).setRg rd old))

/-- An AMO of core `c` with function `op` of the old value and rb. -/
def State.amo (s : State) (c : Fin 13) (pf : BitVec 4) (rd ra rb : BitVec 5) (fn : Nat) (op : DWord → DWord → DWord) : State :=
  s.instr c.val pf (wordR pf 0x15 rd.toNat ra.toNat rb.toNat fn) true fun s x =>
    s.atomic c.val x rd.toNat (x.rg ra.toNat) (fun o => some (op o (x.rg rb.toNat)))

def execAmoSwap (c : Fin 13) (pf : BitVec 4) (rd ra rb : BitVec 5) (s : State) : Out := .next (s.amo c pf rd ra rb 0x00 fun _ b => b)
def execAmoAdd (c : Fin 13) (pf : BitVec 4) (rd ra rb : BitVec 5) (s : State) : Out := .next (s.amo c pf rd ra rb 0x01 fun o b => o + b)
def execAmoAnd (c : Fin 13) (pf : BitVec 4) (rd ra rb : BitVec 5) (s : State) : Out := .next (s.amo c pf rd ra rb 0x02 fun o b => o &&& b)
def execAmoOr (c : Fin 13) (pf : BitVec 4) (rd ra rb : BitVec 5) (s : State) : Out := .next (s.amo c pf rd ra rb 0x03 fun o b => o ||| b)
def execAmoXor (c : Fin 13) (pf : BitVec 4) (rd ra rb : BitVec 5) (s : State) : Out := .next (s.amo c pf rd ra rb 0x04 fun o b => o ^^^ b)
def execAmoMax (c : Fin 13) (pf : BitVec 4) (rd ra rb : BitVec 5) (s : State) : Out := .next (s.amo c pf rd ra rb 0x05 aluMax)
def execAmoMin (c : Fin 13) (pf : BitVec 4) (rd ra rb : BitVec 5) (s : State) : Out := .next (s.amo c pf rd ra rb 0x06 aluMin)
def execAmoMaxu (c : Fin 13) (pf : BitVec 4) (rd ra rb : BitVec 5) (s : State) : Out := .next (s.amo c pf rd ra rb 0x07 aluMaxu)
def execAmoMinu (c : Fin 13) (pf : BitVec 4) (rd ra rb : BitVec 5) (s : State) : Out := .next (s.amo c pf rd ra rb 0x08 aluMinu)

/-- CAS: rd holds the expected value on entry. -/
def execCas (c : Fin 13) (pf : BitVec 4) (rd ra rb : BitVec 5) (s : State) : Out :=
  .next <| s.instr c.val pf (wordR pf 0x15 rd.toNat ra.toNat rb.toNat 0x10) true fun s x =>
    s.atomic c.val x rd.toNat (x.rg ra.toNat) (fun o => if o = x.rg rd.toNat then some (x.rg rb.toNat) else none)

end Sys2Proof.Machine
end

