-- ==== Sys2Proof/Machine/Crc.lean ====
section
/-!
DEFINITION. Check values (R132, R405 to R413): the CRC engine, the sixteen check-value units, and the fixed CRC-32C of the
dedicated instances.
Readings and choices beyond the spec's plain words: log entry 60.
-/
namespace Sys2Proof.Machine

/-- Width and polynomial of a POLY value (R405). -/
def crcWidth (poly : Nat) : Nat := if poly ≤ 1 then 32 else if poly == 2 then 16 else 8
def crcPoly (poly : Nat) : Nat :=
  if poly == 0 then 0x04C11DB7 else if poly == 1 then 0x1EDC6F41 else if poly == 2 then 0x1021 else 0x07

/-- The low `w` bits of `v` in reverse order. -/
def revBits : Nat → Nat → Nat
  | 0, _ => 0
  | w + 1, v => v % 2 * 2 ^ w + revBits w (v / 2)

/-- `n` single-bit steps to the right with polynomial `p` (REFLECT 1). -/
def crcRight (p : Nat) : Nat → Nat → Nat
  | 0, v => v
  | n + 1, v => crcRight p n (if v % 2 == 1 then (v / 2) ^^^ p else v / 2)

/-- `n` single-bit steps to the left with polynomial `p` of width `w` (REFLECT 0). -/
def crcLeft (p w : Nat) : Nat → Nat → Nat
  | 0, v => v
  | n + 1, v => crcLeft p w n (let d := v * 2; if d < 2 ^ w then d else (d - 2 ^ w) ^^^ p)

/-- R406: one byte enters the running value. -/
def crcByte (poly : Nat) (reflect : Bool) (v : Nat) (b : Byte) : Nat :=
  let w := crcWidth poly
  if reflect then crcRight (revBits w (crcPoly poly)) 8 (v ^^^ b.toNat)
  else crcLeft (crcPoly poly) w 8 (v ^^^ (b.toNat * 2 ^ (w - 8)))

/-- CRC-32C with the parameters of R132: reflected polynomial 0x82F6_3B78, all ones in, inverted out. -/
def crc32cFrom (v : Nat) (d : List Byte) : Nat := d.foldl (fun v b => crcRight 0x82F63B78 8 (v ^^^ b.toNat)) v
def crc32c (d : List Byte) : Nat := crc32cFrom 0xFFFFFFFF d ^^^ 0xFFFFFFFF

/-! ### The check-value units -/

/-- R409: a write that finds eight entries waits until one frees. -/
def State.cvuRoom (s : State) (n : Nat) : State :=
  let l := s.cvuLeft n
  if l.length < 8 then s else s.advance (ceilDiv ((l.head?.map (·.done)).getD 0 - 2 * s.time.clk) 2)
/-- The ns at which an entry of `cost` cycles that reaches the unit now has been acted on. -/
def State.cvuDone (s : State) (n cost : Nat) : Nat := max (2 * s.time.clk) (((s.cvuLeft n).getLast?.map (·.done)).getD 0) + cost
/-- An entry that writes the register at `off` of unit `n`; what follows from it is `f`, which reads see once the unit has acted (R409). -/
def State.cvuPut (s : State) (n off cost : Nat) (outcome : Option (Bool × Nat)) (f : State → State) : State :=
  let s := s.cvuSettle n
  f { s with cvus := Tbl.set (fun _ => []) s.cvus n (s.cvuQueue n ++ [⟨off - R.CVU_CTL n, s.reg off, s.cvuDone n cost, outcome⟩]) }
/-- A read of the value or the result waits until every entry has been acted on. -/
def State.cvuDrain (s : State) (n : Nat) : State :=
  if (s.cvuLeft n).isEmpty then s else s.advance (ceilDiv (s.cvuDone n 0 - 2 * s.time.clk) 2)
/-- What a register of unit `n` that entries write shows: what it held before the first of them. -/
def State.cvuShown (s : State) (n off : Nat) : Word :=
  (((s.cvuLeft n).find? (fun e => e.reg == off - R.CVU_CTL n)).map (·.was)).getD (s.reg off)
/-- CVU_STAT_n. -/
def State.cvuStat (s : State) (n : Nat) : Word :=
  let l := (s.cvuLeft n).length
  ((s.cvuSettle n).setFlds [(F.CVU_STAT_LEVEL n, l), (F.CVU_STAT_BUSY n, (decide (l ≠ 0)).toNat)]).reg (R.CVU_STAT n)

/-- A write to CVU_CTL_n (R407): a change of POLY without RESET clears the bits above the new width. -/
def State.cvuCtl (n : Nat) (a : Admit) : State :=
  let a := { a with st := a.st.cvuRoom n }
  a.st.cvuPut n (R.CVU_CTL n) 1 none fun s =>
    let s := ({ a with st := s } : Admit).plain (R.CVU_CTL n)
    let w := crcWidth (s.fld (F.CVU_CTL_POLY n))
    if a.one (F.CVU_CTL_RESET n) then
      s.setFld (F.CVU_VALUE_VALUE n) (if s.bit (F.CVU_CTL_INIT_ONES n) then 2 ^ w - 1 else 0)
    else s.setFld (F.CVU_VALUE_VALUE n) (s.fld (F.CVU_VALUE_VALUE n) % 2 ^ w)
def execCvuCtlWrite (m : Mst) (n : Fin 16) (w : Word) (s : State) : Out :=
  .next (s.runReg m.toNat (R.CVU_CTL n) w.toNat (State.cvuCtl n))

/-- `k` bytes of `v`, low byte first, enter unit `n` through the feed register at `off`, one a cycle (R408). -/
def State.cvuFeed (s : State) (n off k v : Nat) : State :=
  (s.cvuRoom n).cvuPut n off k none fun s =>
    let p := s.fld (F.CVU_CTL_POLY n)
    s.setFld (F.CVU_VALUE_VALUE n)
      ((leBytes k v).foldl (crcByte p (s.bit (F.CVU_CTL_REFLECT n))) (s.fld (F.CVU_VALUE_VALUE n)))

/-- The feed register of unit `n` for `sz` 0 byte, 1 half-word, 2 word. -/
def cvuFeedReg (n sz : Nat) : Nat := if sz == 0 then R.CVU_FEED_B n else if sz == 1 then R.CVU_FEED_H n else R.CVU_FEED_W n
def execCvuFeed (m : Mst) (n : Fin 16) (sz : Fin 3) (w : Word) (s : State) : Out :=
  .next (s.runReg m.toNat (cvuFeedReg n sz) w.toNat (fun a => a.st.cvuFeed n (cvuFeedReg n sz) (2 ^ sz.val) w.toNat))

/-- A write to CVU_VALUE_n (R410). -/
def State.cvuValue (n : Nat) (a : Admit) : State :=
  (a.st.cvuRoom n).cvuPut n (R.CVU_VALUE n) 1 none fun s =>
    s.setFld (F.CVU_VALUE_VALUE n) (a.w % 2 ^ crcWidth (s.fld (F.CVU_CTL_POLY n)))
def execCvuValueWrite (m : Mst) (n : Fin 16) (w : Word) (s : State) : Out :=
  .next (s.runReg m.toNat (R.CVU_VALUE n) w.toNat (State.cvuValue n))
/-- A write to CVU_EXPECT_n. -/
def State.cvuExpect (n : Nat) (a : Admit) : State :=
  (a.st.cvuRoom n).cvuPut n (R.CVU_EXPECT n) 1 none fun s => ({ a with st := s } : Admit).plain (R.CVU_EXPECT n)
def execCvuExpectWrite (m : Mst) (n : Fin 16) (w : Word) (s : State) : Out :=
  .next (s.runReg m.toNat (R.CVU_EXPECT n) w.toNat (State.cvuExpect n))

/-- The result of unit `n` once every entry has been acted on (R406). -/
def State.cvuResult (s : State) (n : Nat) : Nat :=
  let v := s.fld (F.CVU_VALUE_VALUE n)
  if s.bit (F.CVU_CTL_INVERT n) then v ^^^ (2 ^ crcWidth (s.fld (F.CVU_CTL_POLY n)) - 1) else v

/-- A write to CVU_CMP_n (R411): it takes an entry, and with GO compares. -/
def State.cvuCmp (n : Nat) (a : Admit) : State :=
  let s := a.st.cvuRoom n
  let out := if a.one (F.CVU_CMP_GO n) then
      some (decide (s.cvuResult n ≠ s.fld (F.CVU_EXPECT_EXPECT n) % 2 ^ crcWidth (s.fld (F.CVU_CTL_POLY n))), s.cvuResult n)
    else none
  s.cvuPut n (R.CVU_CMP n) 1 out id
def execCvuCompare (m : Mst) (n : Fin 16) (w : Word) (s : State) : Out :=
  .next (s.runReg m.toNat (R.CVU_CMP n) w.toNat (State.cvuCmp n))

/-- A write to CVU_STAT_n clears what the unit has set. -/
def State.cvuClear (n : Nat) (a : Admit) : State := ({ a with st := a.st.cvuSettle n, old := ((a.st.cvuSettle n).reg (R.CVU_STAT n)).toNat } : Admit).plain (R.CVU_STAT n)

/-- CVU_RESULT_READ (R409): of CVU_RESULT_n, or of CVU_VALUE_n for `val`, once every entry has been acted on. -/
def execCvuResultRead (_ : Mst) (n : Fin 16) (val : Bool) (s : State) : Out :=
  .next (s.ifRun fun s =>
    let s := s.cvuDrain n
    { s with resp := .value (if val then s.fld (F.CVU_VALUE_VALUE n) else s.cvuResult n) })

end Sys2Proof.Machine
end

