-- ==== Sys2Proof/Machine/Pixels.lean ====
section
/-!
DEFINITION. The layer descriptor (R248) and the pixel pipeline as integer arithmetic (R252, R256 to R264, R294): unpacking,
chroma upsampling, scaling, conversion, blending, dither, and the packing of R143.
Readings and choices beyond the spec's plain words: log entry 30.
-/
namespace Sys2Proof.Machine

/-! ### The layer descriptor (R248) -/

def descFormat (d : List Byte) : Nat := leNat (slice d 0 1)
def descSource (d : List Byte) : Nat := leNat (slice d 1 1)
def descColour (d : List Byte) : Nat := leNat (slice d 2 1)
def descBlend (d : List Byte) : Nat := leNat (slice d 3 1) % 4
def descGalpha (d : List Byte) : Nat := leNat (slice d 4 2) % 1024
def descBound (d : List Byte) : Nat := leNat (slice d 6 2)
def descAddr (d : List Byte) (k : Nat) : Nat := leNat (slice d (8 + 8 * k) 6)
def descCtx (d : List Byte) : Nat := leNat (slice d 8 1)
def descPitch (d : List Byte) : Nat := leNat (slice d 14 2)
def descNumber (d : List Byte) : Nat := leNat (slice d 16 8)
def descTick (d : List Byte) : Nat := leNat (slice d 24 8)
def descSrc (d : List Byte) : Rect :=
  ⟨leNat (slice d 32 2), leNat (slice d 34 2), leNat (slice d 36 2), leNat (slice d 38 2)⟩
def descDst (d : List Byte) : Rect :=
  ⟨leNat (slice d 40 2), leNat (slice d 42 2), leNat (slice d 44 2), leNat (slice d 46 2)⟩
def descFill (d : List Byte) : Nat := leNat (slice d 48 4) % 2 ^ 30
def descScale (d : List Byte) : Nat := leNat (slice d 52 2)
def descScaled (d : List Byte) : Bool := bits (descScale d) 15 15 == 1
def descTable (d : List Byte) : Nat := bits (descScale d) 14 14
def descGang (d : List Byte) : Nat := bits (descScale d) 9 8 + 1
def descScaler (d : List Byte) : Nat := bits (descScale d) 6 0
def descNoisy (d : List Byte) : Bool := leNat (slice d 54 1) % 2 == 1
def descGlyph (d : List Byte) : Bool := leNat (slice d 54 1) / 2 % 2 == 1

/-- The format a layer's pixels have: of the picture for CONTEXT and INPUT, FILL for FILL. -/
def fillFmt : Nat := 0x0F
def isYuv (f : Nat) : Bool := f ≤ 5
def isArgb (f : Nat) : Bool := f == 8 || f == 9
def listedFmt (f : Nat) : Bool := isYuv f || isArgb f || f == fillFmt
def is420 (f : Nat) : Bool := f ≤ 1
def is422 (f : Nat) : Bool := f == 2 || f == 3
def isTen (f : Nat) : Bool := f == 1 || f == 3 || f == 5
/-- Bytes of one sample of a Y′CbCr format. -/
def sampleBytes (f : Nat) : Nat := if isTen f then 2 else 1
/-- Planes of a format. -/
def planesOf (f : Nat) : Nat := if f ≤ 3 then 2 else if isYuv f then 3 else if isArgb f then 1 else 0

/-- The bits that a descriptor of a source and format may set; every other bit must be zero. Only CONTEXT and INPUT have a reference time,
so that BOUND and NOISY are fields of theirs alone (R304, R314). -/
def descMask (src fmt : Nat) : List Byte :=
  let own : List Byte :=
    if src == 0 then List.replicate 14 0xFF ++ [0, 0] ++ List.replicate 6 0xFF ++ [0, 0]
    else if src == 1 then 0xFF :: List.replicate 7 0 ++ List.replicate 8 0xFF ++ List.replicate 8 0
    else if src == 2 then 0xFF :: List.replicate 7 0 ++ List.replicate 16 0xFF
    else List.replicate 24 0
  let fill : List Byte := if src == 3 || (src == 0 && fmt == fillFmt) then [0xFF, 0xFF, 0xFF, 0x3F] else [0, 0, 0, 0]
  let timed : Byte := if src == 1 || src == 2 then 0xFF else 0
  [0xFF, 0xFF, if src == 3 then 0 else 0x03, 0x03, 0xFF, 0x03, timed, timed] ++ own ++
    (if src == 3 then List.replicate 8 0 else List.replicate 8 0xFF) ++ List.replicate 8 0xFF ++ fill ++
    (if src == 3 then [0, 0] else [0x7F, 0xC3]) ++ [if src == 1 || src == 2 then 0x03 else 0x02] ++ List.replicate 9 0
def descZeros (d : List Byte) : Bool :=
  ((slice d 0 64).zip (descMask (descSource d) (descFormat d))).all (fun p => (p.1 &&& ~~~p.2) == 0)

/-! ### Rectangles -/

def Rect.has (r : Rect) (x y : Nat) : Bool := r.x ≤ x && x < r.x + r.w && r.y ≤ y && y < r.y + r.h
def Rect.meets (a b : Rect) : Bool :=
  decide (a.x < b.x + b.w) && decide (b.x < a.x + a.w) && decide (a.y < b.y + b.h) && decide (b.y < a.y + a.h)
/-- What is left of `a` outside `b`. -/
def Rect.less (a b : Rect) : List Rect :=
  if !a.meets b then [a]
  else
    let y0 := max a.y b.y
    let y1 := min (a.y + a.h) (b.y + b.h)
    let x0 := max a.x b.x
    let x1 := min (a.x + a.w) (b.x + b.w)
    [⟨a.x, a.y, a.w, y0 - a.y⟩, ⟨a.x, y1, a.w, a.y + a.h - y1⟩, ⟨a.x, y0, x0 - a.x, y1 - y0⟩,
      ⟨x1, y0, a.x + a.w - x1, y1 - y0⟩].filter (fun r => r.w ≠ 0 && r.h ≠ 0)
/-- The tiles of 32 × 32 pixels, numbered in rows of `tx`, that a rectangle meets. -/
def Rect.tiles (r : Rect) (tx : Nat) : List Nat :=
  if r.w = 0 || r.h = 0 then []
  else (span (r.y / 32) ((r.y + r.h - 1) / 32 + 1 - r.y / 32)).flatMap (fun j =>
    (span (r.x / 32) ((r.x + r.w - 1) / 32 + 1 - r.x / 32)).map (fun i => j * tx + i))
def tileRect (tx t : Nat) : Rect := ⟨t % tx * 32, t / tx * 32, 32, 32⟩

/-! ### Where a sample lies (R252) -/

def Pic.base (p : Pic) (k : Nat) : Nat := p.planes.getD k 0
/-- Bytes from one column of plane `k` to the next. -/
def Pic.stepBytes (p : Pic) (k : Nat) : Nat :=
  if isArgb p.fmt then 4 else if p.fmt ≤ 3 && k == 1 then 2 * sampleBytes p.fmt else sampleBytes p.fmt
/-- Columns and rows of plane `k` for luma columns or rows `v`: halved where the plane is. -/
def Pic.col (p : Pic) (k v : Nat) : Nat := if p.fmt ≤ 3 && k == 1 then v / 2 else v
def Pic.row (p : Pic) (k v : Nat) : Nat := if is420 p.fmt && k == 1 then v / 2 else v
/-- First and last column of plane `k` in the source rectangle, and rows. -/
def Pic.colLo (p : Pic) (k : Nat) : Nat := p.col k p.src.x
def Pic.colHi (p : Pic) (k : Nat) : Nat := p.col k (p.src.x + p.src.w - 1)
def Pic.rowLo (p : Pic) (k : Nat) : Nat := p.row k p.src.y
def Pic.rowHi (p : Pic) (k : Nat) : Nat := p.row k (p.src.y + p.src.h - 1)
def Pic.addr (p : Pic) (k row col : Nat) : Nat := p.base k + row * p.pitch + col * p.stepBytes k
/-- The aligned 64-byte blocks that hold row `row` of plane `k` (R266): first address and count. -/
def Pic.blocks (p : Pic) (k row : Nat) : Nat × Nat :=
  let a := p.addr k row (p.colLo k)
  let b := p.addr k row (p.colHi k) + p.stepBytes k - 1
  (a / 64 * 64, b / 64 + 1 - a / 64)

/-- The bytes of an address in the rows that have arrived, none where they have not. -/
def fetched (fs : List Fetch) (k row a n : Nat) : Option Nat :=
  match fs.find? (fun f => f.plane == k && f.row == row) with
  | some f => if f.addr ≤ a && a + n ≤ f.addr + f.got.length then some (leNat (slice f.got (a - f.addr) n)) else none
  | none => none

/-! ### Unpacking and chroma upsampling (R257) -/

/-- A Y′CbCr sample widened to 10 bits: `c` picks Cr in an interleaved plane. -/
def Pic.sample (p : Pic) (fs : List Fetch) (k row col c : Nat) : Option Nat :=
  let n := sampleBytes p.fmt
  (fetched fs k row (p.addr k row col + c * n) n).map (fun v => if isTen p.fmt then v % 1024 else v * 4)

def clampTo (lo hi : Nat) (i : Int) : Nat := if i < lo then lo else if hi < i then hi else i.toNat

/-- Chroma of luma row `y` in chroma column `col`. -/
def Pic.chromaV (p : Pic) (fs : List Fetch) (y col c : Nat) : Option Nat :=
  if is420 p.fmt then
    let j := y / 2
    let o := clampTo (p.rowLo 1) (p.rowHi 1) (if y % 2 = 0 then (j : Int) - 1 else (j : Int) + 1)
    match p.sample fs 1 j col c, p.sample fs 1 o col c with
    | some a, some b => some ((3 * a + b + 2) / 4)
    | _, _ => none
  else p.sample fs 1 y col c
/-- Chroma at luma position (x, y). -/
def Pic.chromaAt (p : Pic) (fs : List Fetch) (x y c : Nat) : Option Nat :=
  if x % 2 = 0 then p.chromaV fs y (x / 2) c
  else match p.chromaV fs y (x / 2) c, p.chromaV fs y (min (x / 2 + 1) (p.colHi 1)) c with
    | some a, some b => some ((a + b + 1) / 2)
    | _, _ => none

/-- The pixel at column x and row y of the planes: three components (Y′CbCr or R′G′B′) and alpha, of 10 bits. -/
def Pic.pixel (p : Pic) (fs : List Fetch) (x y : Nat) : Option (List Nat) :=
  if p.fmt ≤ 3 then
    match p.sample fs 0 y x 0, p.chromaAt fs x y 0, p.chromaAt fs x y 1 with
    | some a, some b, some c => some [a, b, c, 1023]
    | _, _, _ => none
  else if isYuv p.fmt then
    match p.sample fs 0 y x 0, p.sample fs 1 y x 0, p.sample fs 2 y x 0 with
    | some a, some b, some c => some [a, b, c, 1023]
    | _, _, _ => none
  else
    (fetched fs 0 y (p.addr 0 y x) 4).map (fun v =>
      if p.fmt == 8 then
        let e (b : Nat) : Nat := b * 4 + b / 64
        [e (bits v 23 16), e (bits v 15 8), e (bits v 7 0), e (bits v 31 24)]
      else [bits v 29 20, bits v 19 10, bits v 9 0, bits v 31 30 * 341])

/-! ### Scaling (R258, R261) -/

def scaleStep (src dst : Nat) : Nat := src * 65536 / max 1 dst
/-- Integer part and phase of output pixel `i`. -/
def scalePos (step i : Nat) : Int × Nat :=
  let p : Int := (((2 * i + 1) * step : Nat) - 65536 : Int) / 2
  (p / 65536, (p % 65536).toNat / 1024)
/-- The source columns, or rows, that output pixel `i` reads: `n` taps, the first `before` ahead of the integer part. -/
def tapsOf (scaled : Bool) (src dst n before i : Nat) : List Nat :=
  if scaled then
    let ip := (scalePos (scaleStep src dst) i).1
    (List.range n).map (fun (k : Nat) => clampTo 0 (src - 1) (ip - (before : Int) + (k : Int)))
  else [i]
def hTaps (scaled : Bool) (src dst i : Nat) : List Nat := tapsOf scaled src dst 8 3 i
def vTaps (scaled : Bool) (src dst i : Nat) : List Nat := tapsOf scaled src dst 4 1 i

def allSome {α : Type} : List (Option α) → Option (List α)
  | [] => some []
  | none :: _ => none
  | some a :: l => (allSome l).map (a :: ·)

/-- Σ c × s, rounded, shifted and clamped to 10 bits. -/
def filterSum (cs : List Int) (ss : List Nat) : Nat :=
  let v : Int := ((cs.zip ss).foldl (fun (a : Int) p => a + p.1 * (p.2 : Int)) 0 + 128) / 256
  clampTo 0 1023 v
/-- Each of the four components filtered alike. -/
def filterPixels (cs : List Int) (ps : List (List Nat)) : List Nat :=
  (List.range 4).map (fun k => filterSum cs (ps.map (·.getD k 0)))

/-- A signed 10-bit coefficient pair register, tap `k` of the pair. -/
def coefOf (w : Word) (k : Nat) : Int := sext 10 (if k = 0 then bits w.toNat 9 0 else bits w.toNat 25 16)
def State.hCoef (s : State) (t p : Nat) : List Int :=
  (List.range 8).map (fun k => coefOf (s.reg (R.SCL_HCOEF t p (k / 2))) (k % 2))
def State.vCoef (s : State) (t p : Nat) : List Int :=
  (List.range 4).map (fun k => coefOf (s.reg (R.SCL_VCOEF t p (k / 2))) (k % 2))

/-- Output pixel (i, j) of a layer, counted from its destination rectangle's corner, before conversion. -/
def State.layerPixel (s : State) (d : List Byte) (p : Pic) (fs : List Fetch) (i j : Nat) : Option (List Nat) :=
  let dst := descDst d
  if descScaled d then
    let t := descTable d
    let hp := (scalePos (scaleStep p.src.w dst.w) i).2
    let vp := (scalePos (scaleStep p.src.h dst.h) j).2
    let cols := hTaps true p.src.w dst.w i
    let rows := vTaps true p.src.h dst.h j
    (allSome (cols.map (fun x =>
      (allSome (rows.map (fun y => p.pixel fs (p.src.x + x) (p.src.y + y)))).map (filterPixels (s.vCoef t vp))))).map
        (filterPixels (s.hCoef t hp))
  else p.pixel fs (p.src.x + i) (p.src.y + j)

/-! ### Conversion (R262), blending (R263), dither (R264) -/

/-- Round towards minus infinity after a shift, clamped to 12 bits. -/
def clamp12 (v : Int) : Nat := clampTo 0 4095 v
def convCoef (colour : Nat) : Int × Int × Int × Int × Int :=
  if colour % 2 = 0 then
    (if colour / 2 % 2 = 0 then (76591, 117921, 14027, 35053, 138947) else (65584, 103282, 12285, 30701, 121698))
  else (if colour / 2 % 2 = 0 then (76591, 110418, 12322, 42783, 140879) else (65584, 96710, 10792, 37472, 123390))
def yuvToRgb (colour y cb cr : Nat) : List Nat :=
  let c := convCoef colour
  let l : Int := c.1 * ((y : Int) - (if colour / 2 % 2 = 0 then 64 else 0))
  let u : Int := (cb : Int) - 512
  let v : Int := (cr : Int) - 512
  [clamp12 ((l + c.2.1 * v + 8192) / 16384), clamp12 ((l - c.2.2.1 * u - c.2.2.2.1 * v + 8192) / 16384),
    clamp12 ((l + c.2.2.2.2 * u + 8192) / 16384)]
def rgb12 (v : Nat) : Nat := v * 4 + v / 256
/-- A colour register: R [29:20], G [19:10], B [9:0], in 12 bits. -/
def colour12 (v : Nat) : List Nat := [rgb12 (bits v 29 20), rgb12 (bits v 19 10), rgb12 (bits v 9 0)]
/-- 12-bit R′G′B′ of a pixel of format `fmt`. -/
def toRgb12 (fmt colour : Nat) (px : List Nat) : List Nat :=
  if isYuv fmt then yuvToRgb colour (px.getD 0 0) (px.getD 1 0) (px.getD 2 0) else (px.take 3).map rgb12

/-- R263: source `sv` with alpha `al` and global alpha `g` over `c`, one component. -/
def blend1 (mode : Nat) (hasAlpha : Bool) (al g sv c : Nat) : Nat :=
  let mix (a : Nat) : Nat := (a * sv + (1023 - a) * c + 511) / 1023
  let a := (al * g + 511) / 1023
  if mode == 0 then mix g
  else if mode == 2 && hasAlpha then min 4095 ((g * sv + 511) / 1023 + ((1023 - a) * c + 511) / 1023)
  else mix a
def blendPx (mode : Nat) (hasAlpha : Bool) (al g : Nat) (sv c : List Nat) : List Nat :=
  (List.range 3).map (fun k => blend1 mode hasAlpha al g (sv.getD k 0) (c.getD k 0))

def depthBits (code : Nat) : Nat := if code == 1 then 8 else if code == 2 then 6 else 10
def ditherMat (r c : Nat) : Nat :=
  ([0, 8, 2, 10, 12, 4, 14, 6, 3, 11, 1, 9, 15, 7, 13, 5] : List Nat).getD (4 * (r % 4) + c % 4) 0
/-- R264: 12 bits to `d` bits, left-aligned in 10, at column x and row y of a frame with counter `f`. -/
def dither1 (on : Bool) (d f x y v : Nat) : Nat :=
  let s := 12 - d
  let o := f % 4
  let dx := if o == 1 || o == 3 then 2 else 0
  let dy := if o == 1 || o == 2 then 2 else 0
  let q := if on then (v + ditherMat (y + dy) (x + dx) * 2 ^ s / 16) / 2 ^ s else (v + 2 ^ (s - 1)) / 2 ^ s
  min (2 ^ d - 1) q * 2 ^ (10 - d)

/-- The 32-bit word of a pixel of three 10-bit components (R143, R293). -/
def pixelWord (px : List Nat) : Nat := px.getD 0 0 * 2 ^ 20 + px.getD 1 0 * 2 ^ 10 + px.getD 2 0

/-- R143: up to 256 pixels as a PIXELS payload, RGB30 or RGB24. -/
def packPixels (fmt : Nat) (px : List (List Nat)) : List Byte :=
  if fmt != 1 then
    (List.range (ceilDiv px.length 4)).flatMap (fun g =>
      leBytes 15 ((List.range 4).foldl (fun v k => v + pixelWord (px.getD (4 * g + k) []) * 2 ^ (30 * k)) 0))
  else px.flatMap (fun p => [2, 1, 0].map (fun k => BitVec.ofNat 8 (p.getD k 0 / 4)))

/-- R294: 12-bit R′G′B′ to 10-bit limited-range BT.709, as signed values clamped to 10 bits. -/
def rgbToYuv (px : List Nat) : List Nat :=
  let r : Int := px.getD 0 0
  let g : Int := px.getD 1 0
  let b : Int := px.getD 2 0
  [clampTo 0 1023 (64 + (2980 * r + 10027 * g + 1012 * b + 32768) / 65536),
    clampTo 0 1023 (512 + (-1643 * r - 5527 * g + 7170 * b + 32768) / 65536),
    clampTo 0 1023 (512 + (7170 * r - 6512 * g - 658 * b + 32768) / 65536)]

end Sys2Proof.Machine
end

