-- ==== Sys2Proof/Machine/HeadBase.lean ====
section
/-!
DEFINITION. The tick's nominal times (R40, R43, R46), a head's geometry and line times (R274 to R278), attached layers and what
they hold (R251, R260), and the register views of both.
Readings and choices beyond the spec's plain words: log entry 40.
-/
namespace Sys2Proof.Machine

/-! ### Nominal times (R40, R43) -/

def State.tickNum (s : State) : Nat := max 1 (s.fld F.TICK_RATE_NUM)
def State.tickDen (s : State) : Nat := s.fld F.TICK_RATE_DEN
def State.epochNs (s : State) : Nat := tripleNs (s.reg96 R.TICK_EPOCH_0)
/-- B(n) and M(n) in ns. -/
def State.tickB (s : State) (n : Nat) : Nat := s.epochNs + n * s.tickDen * 1000000000 / s.tickNum
def State.tickM (s : State) (n : Nat) : Nat := s.epochNs + (2 * n + 1) * s.tickDen * 1000000000 / (2 * s.tickNum)
/-- floor(DEN × 10^9 / NUM). -/
def State.tickNs (s : State) : Nat := s.tickDen * 1000000000 / s.tickNum
/-- A whole number of ns in the layout of R25. -/
def nsTriple (ns : Nat) : Nat := triple (ns * 65536)

/-! ### A head's geometry, from the active copies -/

def State.hact (s : State) (h : Nat) : Nat := s.lfld (F.HEAD_HTIMING_HACTIVE h)
def State.htot (s : State) (h : Nat) : Nat := s.lfld (F.HEAD_HTIMING_HTOTAL h)
def State.vact (s : State) (h : Nat) : Nat := s.lfld (F.HEAD_VTIMING_VACTIVE h)
def State.vtot (s : State) (h : Nat) : Nat := s.lfld (F.HEAD_VTIMING_VTOTAL h)
def State.vblank (s : State) (h : Nat) : Nat := s.vtot h - s.vact h
def State.dbl (s : State) (h : Nat) : Nat := if s.lfld (F.TICK_HPHASE_DOUBLE h) = 1 then 2 else 1
def State.tilesX (s : State) (h : Nat) : Nat := ceilDiv (s.hact h) 32
def State.tilesY (s : State) (h : Nat) : Nat := ceilDiv (s.vact h) 32

def State.hd (s : State) (h : Nat) : HeadSt := Tbl.get (fun _ => {}) s.heads h
def State.setHd (s : State) (h : Nat) (x : HeadSt) : State := { s with heads := Tbl.set (fun _ => {}) s.heads h x }
def State.updHd (s : State) (h : Nat) (f : HeadSt → HeadSt) : State := s.setHd h (f (s.hd h))

/-- Nominal first-active-line time, which is the presentation time (R43), of a frame in ns. -/
def State.presNs (s : State) (h tick : Nat) (second : Bool) : Nat :=
  (if second then s.tickM tick else s.tickB tick) + s.lfld (F.TICK_HPHASE_OFFSET h)
/-- The frame counter (R277). -/
def State.frameNo (s : State) (h tick : Nat) (second : Bool) : Nat :=
  (if s.dbl h = 2 then 2 * tick + second.toNat else tick) % 2 ^ 48
def State.curFrame (s : State) (h : Nat) : Nat := s.frameNo h (s.hd h).tick (s.hd h).second
def State.curPres (s : State) (h : Nat) : Nat := s.presNs h (s.hd h).tick (s.hd h).second

/-- The line time as a fraction of ns: numerator and denominator (R275). -/
def State.lineNum (s : State) (h : Nat) : Nat := 2 * s.tickDen * 1000000000 / s.dbl h
def State.lineDen (s : State) (h : Nat) : Nat := 2 * s.tickNum * max 1 (s.vtot h)
/-- The counter value, in 2^-40 ns, at which line `y` of the frame in hand begins. -/
def State.lineAt40 (s : State) (h : Nat) (y : Int) : Nat :=
  let x := s.hd h
  let d : Int := s.lineDen h
  let n : Int := ((s.curPres h : Int) * 2 ^ 40 + x.skewT) * d + (x.skewL + y) * (s.lineNum h : Int) * 2 ^ 40
  ((n + d - 1) / d).toNat
/-- Time runs until the counter reaches `t` in 2^-40 ns. -/
def State.advanceTo40 (s : State) (t : Nat) : State := s.advance (ceilDiv (t - s.time.now) s.timeInc)

/-- First line of the frame in hand, and its latch line (R274, R278). -/
def State.firstLine (s : State) (h : Nat) : Int := -((s.vblank h : Int) + (s.hd h).fp)
def State.latchLine (s : State) (h : Nat) : Int :=
  let l := s.lfld (F.HEAD_MODE_LATCH_LEAD h)
  if l = 0 then s.firstLine h else -(l : Int)

def State.headState (s : State) (h : Nat) : Nat := s.fld (F.HEAD_STATUS_STATE h)
def State.setHeadState (s : State) (h v : Nat) : State := s.setFld (F.HEAD_STATUS_STATE h) v
/-- SCANNING, RESYNC or STOPPING. -/
def State.headRuns (s : State) (h : Nat) : Bool := 2 ≤ s.headState h

/-- The counter is set to `t` (2^-40 ns). A load or a step moves the counter and not the instants at which a running head begins its
lines, so that its lines then lie off their nominal times by what was added (R26, R44, R275). -/
def State.setNow (s : State) (t : Nat) : State :=
  let d : Int := (t : Int) - s.time.now
  (List.range 32).foldl (fun s h =>
      if s.headState h = 0 then s
      else s.updHd h (fun x => { x with
        skewT := x.skewT + d, quietAt := (((x.quietAt * 2 ^ 40 : Nat) + d) / 2 ^ 40).toNat,
        startNs := (((x.startNs * 2 ^ 40 : Nat) + d) / 2 ^ 40).toNat }))
    { s with time := { s.time with now := t } }

/-- The largest front-porch change (R39); a value that is not listed acts as the reset value (R5). -/
def State.slewLines (s : State) : Nat := let v := s.fld F.TICK_CTRL_SLEW_LINES; if 1 ≤ v ∧ v ≤ 8 then v else 2
/-- HEAD_LINE shows the line in hand of the frame in hand. -/
def State.showLine (s : State) (h : Nat) : State :=
  let y := (s.hd h).line
  let blank := decide (y < 0)
  s.setFlds [(F.HEAD_LINE_VBLANK h, blank.toNat), (F.HEAD_LINE_LINE h, if blank then (y - s.firstLine h).toNat else y.toNat),
    (F.HEAD_STATUS_VBLANK h, blank.toNat)]

/-- The pixel clock in kHz, rounded (R275). -/
def State.pclkKhz (s : State) (h : Nat) : Nat :=
  (2 * s.htot h * s.vtot h * s.tickNum * s.dbl h / (max 1 s.tickDen * 1000) + 1) / 2

/-! ### Layers -/

def State.layerAt (s : State) (h slot : Nat) : Option Layer := s.layers.find? (fun l => l.head == h && l.slot == slot)
def State.layerOf (s : State) (lp : Nat) : Option Layer := s.layers.find? (fun l => l.lp == lp)
/-- The layers of a head from slot 0 up. -/
def State.stackOf (s : State) (h : Nat) : List Layer := (List.range 16).filterMap (s.layerAt h)

/-- COMP_LP_STAT and COMP_STACK show an attached layer. -/
def State.showLayer (s : State) (l : Layer) : State :=
  (s.setFlds [(F.COMP_LP_STAT_ATTACHED l.lp, 1), (F.COMP_LP_STAT_INVALID l.lp, (!l.valid).toNat), (F.COMP_LP_STAT_SCALER_WAIT l.lp, l.wait.toNat),
    (F.COMP_LP_STAT_NO_PICTURE l.lp, (l.pic.isNone && !l.fresh).toNat), (F.COMP_LP_STAT_HEAD l.lp, l.head),
    (F.COMP_LP_STAT_SLOT l.lp, l.slot), (F.COMP_LP_STAT_DESC l.lp, l.descIx)]).setFlds
    [(F.COMP_STACK_USED l.head l.slot, 1), (F.COMP_STACK_LP l.head l.slot, l.lp)]
/-- A layer changes, or is attached. -/
def State.putLayer (s : State) (l : Layer) : State :=
  ({ s with layers := s.layers.filter (fun (x : Layer) => x.lp != l.lp) ++ [l] }).showLayer l

/-- R260: the scalers a pipe holds become free. -/
def State.freeScalers (s : State) (lp : Nat) : State :=
  (List.range 128).foldl (fun s n =>
    if s.bit (F.SCL_STAT_HELD n) && s.fld (F.SCL_STAT_LP n) == lp then s.setReg (R.SCL_STAT n) 0 else s) s
/-- A pipe leaves its slot: what it held is released, and its status shows no slot. -/
def State.dropLayer (s : State) (lp : Nat) : State :=
  match s.layerOf lp with
  | none => s
  | some l =>
    let s := ({ s with layers := s.layers.filter (fun (x : Layer) => x.lp != lp) }).freeScalers lp
    (((s.setReg (R.COMP_LP_STAT lp) 0).setReg (R.COMP_STACK l.head l.slot) 0).setReg (R.FG_LP_STAT lp) 0).setReg (R.FG_LP_AGE lp) 0

/-- R251: decoder buffer `k` of context `i` is read by a layer on a scanning head. -/
def State.bufRead (s : State) (i k : Nat) : Bool := s.layers.any (fun l => l.held && l.buf == some (i, k))
/-- R251, R255: slot `k` of input `j` is held by a layer. -/
def State.slotHeld (s : State) (j k : Nat) : Bool := s.layers.any (fun l => l.held && l.inSlot == some (j, k))

/-- A COMP_ERR bit is set; the first event is logged (R269). -/
def State.compErr (s : State) (code head lp : Nat) : State :=
  let s := s.setReg R.COMP_ERR (BitVec.ofNat 32 ((s.reg R.COMP_ERR).toNat ||| 2 ^ code))
  if s.bit F.COMP_ERRLOG_VALID then s
  else s.setFlds [(F.COMP_ERRLOG_CODE, code), (F.COMP_ERRLOG_HEAD, head), (F.COMP_ERRLOG_LP, lp), (F.COMP_ERRLOG_VALID, 1)]

/-- The head stops scanning: what its layers hold is released; the stack stays (R251, R260, R284). -/
def State.releaseHead (s : State) (h : Nat) : State :=
  (s.stackOf h).foldl (fun s l => (s.freeScalers l.lp).putLayer { l with held := false, scalers := false, wait := false, uflow := false, tiles := [] }) s

end Sys2Proof.Machine
end

