-- ==== Sys2Proof/Machine/Power.lean ====
section
/-!
DEFINITION. Power, resets and the keeper's registers (chapter 19): rails, dip episodes, DVFS, temperature, the reset
commands, RETAIN and DEEP, and the KEEP block.
Readings and choices beyond the spec's plain words: log entries 1, 5, 67 and 69.
-/
namespace Sys2Proof.Machine

/-! ### Resets and rails -/

/-- What wakes the device from DEEP (R514, R525), by its PWR_WAKE.CAUSE: WAKE_N and the timer where EN enables them, a timer that runs, and
nRESET. -/
def State.deepWakes (s : State) (c : Nat) : Bool :=
  (c == 1 && s.bitAt F.PWR_WAKE_EN 0) || (c == 2 && s.bitAt F.PWR_WAKE_EN 1 && s.fld F.PWR_WAKE_TIMER_SEC != 0) || c == 4
/-- RESET_POR (R489, R505, R509, R514): a core POR or an AON POR from any powered phase, a DEEP wake from DEEP. A core POR
after a thermal trip records THERMAL. -/
def execResetPor (src : PorSource) (s : State) : Out :=
  .next <| match src with
    | .aon =>
      let s := s.coreReset .aonPor 0 0
      { s with pwr := { s.pwr with railEn := true, vid := 1 } }
    | .coreLow =>
      if s.pwr.phase = .deep then s
      else s.coreReset .por (if !s.pwr.thermN then 3 else 1) 0
    | .deepWake c =>
      if s.pwr.phase = .deep && s.deepWakes c.val then
        let s := (s.coreReset .por 2 0).setFld F.PWR_WAKE_CAUSE c.val
        { s with pwr := { s.pwr with railEn := true } }
      else s

/-- RAIL_GOOD (R491): the sequencer continues to the release. -/
def execRailGood (s : State) : Out :=
  .next (if s.pwr.phase = .rails then { s with pwr := { s.pwr with phase := .reset } } else s)

/-- RAIL_BRINGUP_FAIL (R491): RAIL_EN is low for 1 s, FAILS counts the attempt, and the sequencer tries again. -/
def execRailBringupFail (s : State) : Out :=
  .next (if s.pwr.phase = .rails then s.bump F.PWR_AON_STAT_FAILS else s)

/-- RESET_DIP (R498): an episode in progress gets no DIP_END record. -/
def execResetDip (s : State) : Out := .next (s.takeReset .dip 0 0)

/-- RESET_PIN (R506, R512, R514): in RETAIN a PIN reset that loses DRAM; in DEEP a wake. -/
def execResetPin (s : State) : Out :=
  .next <|
    if s.pwr.phase = .deep then
      let s := (s.coreReset .por 2 0).setFld F.PWR_WAKE_CAUSE 4
      { s with pwr := { s.pwr with railEn := true } }
    else s.takeReset .pin 0 0

/-- The µs left in the keeper watchdog (R526); the ROM of a failed boot kicks it all the time (R520). -/
def State.kwRemain (s : State) : Nat :=
  if s.bit F.KEEP_BOOT_HALT then max 1 (s.fld F.KEEP_WDOG_CTL_TIMEOUT) else
  max 1 (s.fld F.KEEP_WDOG_CTL_TIMEOUT) - (s.time.clk - s.pwr.kwLoad) / 500

/-- KEEPER_WDOG_EXPIRE (R526): when the count reaches zero. After a failed boot the ROM kicks for ever (R520). -/
def execKeeperWdogExpire (s : State) : Out :=
  .next <| s.ifRun fun s =>
    if s.bit F.KEEP_BOOT_HALT then s
    else
      let due := s.pwr.kwLoad + 500 * max 1 (s.fld F.KEEP_WDOG_CTL_TIMEOUT)
      (s.advance (due - s.time.clk)).takeReset .wdt 0 0

/-- KEEPER_MISMATCH (R79). -/
def execKeeperMismatch (s : State) : Out := .next (s.ifRun fun s => s.takeReset .wdt 1 0)

/-- REFCLK_LOSS (R494). -/
def execRefclkLoss (s : State) : Out := .next (s.takeReset .wdt 3 0)

/-- RESET_RELEASE (R507, R516). -/
def execResetRelease (role : BitVec 2) (pair ok0 ok1 : Bool) (s : State) : Out :=
  .next (if s.pwr.phase = .reset then s.release role.toNat pair ok0 ok1 else s)

/-! ### Dip episodes and rails in operation -/

/-- VDD_CORE in mV at a DVFS point (R500). -/
def coreMv (p : Nat) : Nat := if p == 0 then 850 else if p == 1 then 750 else if p == 2 then 700 else 650
/-- The nominal of R495: during a change the lower of the old and new targets. -/
def State.nominalMv (s : State) : Nat :=
  let c := coreMv (s.fld F.PWR_DVFS_CURRENT)
  if s.bit F.PWR_STATUS_DVFS_BUSY then min c (coreMv s.pwr.dvfsTo) else c

/-- PWR_VCORE: the latest sample (R495). DESIGN CHOICE: the sample that began a dip is known for its 100 ns; every other one is a free value
(log entry 69). -/
def State.vcoreMv (s : State) : Nat :=
  if s.pwr.vSlot = some (s.time.clk / 50) then s.fld F.PWR_VCORE_MV else 2 * (Config.vcoreSteps (s.time.clk / 50)).toNat
/-- DIP_BEGIN (R496). -/
def execDipBegin (mv : BitVec 16) (s : State) : Out :=
  .next <| s.ifRun fun s =>
    let s := { s.setFld F.PWR_VCORE_MV mv.toNat with pwr := { s.pwr with vSlot := some (s.time.clk / 50) } }
    if s.bit F.PWR_STATUS_DIP_ACTIVE then s
    else
      let s := ((s.setBit F.PWR_STATUS_DIP_ACTIVE true).orFld F.PWR_STATUS_RAIL_LOW 1).orFld F.PWR_ERR_ERR 1
      let s := (List.range 32).foldl (fun s h =>
        if 2 ≤ s.fld (F.HEAD_STATUS_STATE h) then
          { s with heads := Tbl.set (fun _ => {}) s.heads h { Tbl.get (fun _ => ({} : HeadSt)) s.heads h with dip := true } }
        else s) s
      (s.bump F.PWR_DIP_CNT_COUNT).logHw 0x10 0xFF
        (leBytes 2 s.nominalMv ++ leBytes 2 mv.toNat ++ leBytes 4 0 ++ leBytes 8 s.tickNo) false

/-- DIP_END (R497, R454): a full-state compare becomes due; more than 2 ms is LONG. -/
def execDipEnd (ns : Nat) (mv : BitVec 16) (s : State) : Out :=
  .next <| s.ifRun fun s =>
    if !s.bit F.PWR_STATUS_DIP_ACTIVE then s
    else
      let long := decide (2000000 < ns)
      let s := s.setFlds [(F.PWR_STATUS_DIP_ACTIVE, 0), (F.PWR_DIP_DUR_NS, min ns (2 ^ 32 - 1)), (F.PWR_DIP_MIN_MV, mv.toNat)]
      let s := s.putBitAt F.PWR_STATUS_RAIL_LOW 0 false
      let s := s.logHw 0x11 0xFF (leBytes 4 (min ns (2 ^ 32 - 1)) ++ leBytes 2 mv.toNat ++ leBytes 1 long.toNat) false
      let s := { s with pair := { s.pair with fullDue := true } }
      if long then ((s.orFld F.PWR_ERR_ERR 2).orFld F.STEP_ERR_ERR 0x200).setBit F.STEP_HEALTH_DEG_FLOOR true else s

/-- RAIL_WARN (R488, R499, R524): a rail falls below its warning level. VDD_AON's shows in RAIL_LOW and sets no error; VDD_CORE's begins a dip
episode instead (R496). -/
def execRailWarn (rail : Fin 7) (s : State) : Out :=
  .next <| s.ifRun fun s =>
    if rail.val = 0 then s
    else (if rail.val = 1 then s else s.orFld F.PWR_ERR_ERR 4).putBitAt F.PWR_STATUS_RAIL_LOW rail.val true

/-- RAIL_LOW_CLEAR (R488). -/
def execRailLowClear (rail : Fin 7) (s : State) : Out :=
  .next <| s.ifRun fun s => s.putBitAt F.PWR_STATUS_RAIL_LOW rail.val false

/-- TEMP_SAMPLE (R504): the alarm level, and the trip at 125 °C. -/
def execTempSample (k : Fin 8) (t : BitVec 16) (s : State) : Out :=
  .next <| s.ifRun fun s =>
    let s := s.setFld (F.PWR_TEMP_TEMP k.val) t.toNat
    let s := if sext 16 (s.fld F.PWR_TEMP_ALARM_TEMP) ≤ t.toInt then s.orFld F.PWR_ERR_ERR 8 else s
    if 500 ≤ t.toInt then { s.setBit F.PWR_AON_STAT_TRIPPED true with pwr := { s.pwr with thermN := false } } else s

/-! ### DVFS (R500 to R503) -/

/-- A write to PWR_DVFS (R502). A GO written while a change is in progress starts nothing. -/
def State.dvfsWrite (a : Admit) : State :=
  let s := a.plain R.PWR_DVFS
  if !a.one F.PWR_DVFS_GO then s
  else if s.bit F.PWR_STATUS_DVFS_BUSY then s
  else
    let t := a.get F.PWR_DVFS_TARGET
    if s.bit F.DDR_FC_STAT_BUSY || decide (s.fld (F.DDR_STATUS_POINT 0) < t) then
      (s.orFld F.PWR_ERR_ERR 0x10).setBit F.PWR_DVFS_GO false
    else
      let down := decide (s.fld F.PWR_DVFS_CURRENT < t)
      let s := s.setBit F.PWR_STATUS_DVFS_BUSY true
      { s with pwr := { s.pwr with dvfsTo := t, vid := t, clkPoint := if down then t else s.pwr.clkPoint } }
def execDvfsGo (m : Mst) (w : Word) (s : State) : Out := .next (s.runReg m.toNat R.PWR_DVFS w.toNat State.dvfsWrite)

/-- DVFS_DONE (R502). -/
def execDvfsDone (s : State) : Out :=
  .next <| s.ifRun fun s =>
    if !s.bit F.PWR_STATUS_DVFS_BUSY then s
    else
      let s := s.setFlds [(F.PWR_DVFS_CURRENT, s.pwr.dvfsTo), (F.PWR_DVFS_GO, 0), (F.PWR_STATUS_DVFS_BUSY, 0)]
      { s.orFld F.PWR_ERR_ERR 0x40 with pwr := { s.pwr with clkPoint := s.pwr.dvfsTo } }

/-! ### RETAIN and DEEP (R510 to R514) -/

/-- R510: the conditions an entry must meet. -/
def State.mayLeaveRun (s : State) (target : Nat) : Bool :=
  (s.pwr.rolePins == 3 || s.pwr.rolePins == 0) && !s.bit F.TICK_STATUS_RUNNING &&
    (List.range 32).all (fun h => s.fld (F.HEAD_STATUS_STATE h) == 0) &&
    !s.bit F.PWR_STATUS_DVFS_BUSY && !s.bit F.DDR_FC_STAT_BUSY &&
    (target == 2 || !s.bit F.DDR_GCTL_READY || s.fld (F.DDR_STATUS_POINT 0) == 3)

/-- A write to PWR_STATE (R510, R511, R514). -/
def State.pwrStateWrite (a : Admit) : State :=
  let s := a.plain R.PWR_STATE
  if !a.one F.PWR_STATE_GO then s
  else
    let t := a.get F.PWR_STATE_TARGET
    let s := s.setBit F.PWR_STATE_GO false
    if (t != 1 && t != 2) || !s.mayLeaveRun t then s.orFld F.PWR_ERR_ERR 0x20
    else if t == 1 then
      let s := s.setFlds [(F.DDR_GCTL_READY, 0), (F.DDR_TOP_GIB, 0)]
      let s := (List.range 8).foldl (fun s c => s.setFld (F.DDR_STATUS_STATE c) 4) s
      { s with pwr := { s.pwr with phase := .retain, vid := 3 } }
    else { s with pwr := { s.pwr with phase := .deep, railEn := false } }
def execRetainEnter (m : Mst) (w : Word) (s : State) : Out := .next (s.runReg m.toNat R.PWR_STATE w.toNat State.pwrStateWrite)
def execDeepEnter (m : Mst) (w : Word) (s : State) : Out := .next (s.runReg m.toNat R.PWR_STATE w.toNat State.pwrStateWrite)

/-- Registers in retention (R511, R515): those no SYS reset restores, and the DDR configuration, timing and delay sets. -/
def retained (off : Nat) : Bool :=
  match rowAt off with
  | none => false
  | some r => !r.restored .sys || off == R.KEEP_CAUSE ||
      (0x10 ≤ off / 0x10000 && off / 0x10000 ≤ 0x17 &&
        (off % 0x10000 == 8 || (0x100 ≤ off % 0x10000 && off % 0x10000 < 0x140) || (0x400 ≤ off % 0x10000 && off % 0x10000 < 0xC00)))

/-- RETAIN_WAKE (R512, R516, R521): the state outside retention is reset, general and sequencer SRAM are zeroed, and the
Keeper starts at its warm entry. -/
def execRetainWake (src : Fin 3) (role : BitVec 2) (ok0 ok1 : Bool) (s : State) : Out :=
  .next <|
    let pins := if src.val = 2 then role.toNat else s.pwr.rolePins
    if s.pwr.phase ≠ .retain || !s.bitAt F.PWR_WAKE_EN src.val || (src.val = 2 && (pins == 3 || pins == 0)) ||
        (src.val = 1 && s.fld F.PWR_WAKE_TIMER_SEC == 0) then s
    else
      let keepMem (a : Nat) : Bool := decide (a < 0x1000000000) || (0x4100000000 ≤ a && a < 0x4300000000)
      let w : State :=
        { regs := s.regs.filter (fun e => retained e.1)
          live := s.live.filter (fun e => retained e.1)
          mem := s.mem.filter (fun e => keepMem e.1)
          chk := s.chk.filter (fun e => keepMem e.1)
          flash := s.flash
          time := { clk := s.time.clk, ppsLevel := s.time.ppsLevel }
          log := s.log
          pwr := { s.pwr with phase := .run, vid := 3, clkPoint := 3, dvfsTo := 3, woke := true, xop := none,
                              kwLoad := s.time.clk, vSlot := none, released := s.time.clk }
          gpio := s.gpio
          tap := s.tap
          resp := s.resp
          pending := s.pending }
      let w := w.setFlds [(F.PWR_DVFS_CURRENT, 3), (F.PWR_DVFS_TARGET, 3), (F.PWR_WAKE_CAUSE, src.val + 1)]
      let w := w.setReg R.KEEP_CAUSE (BitVec.ofNat 32 (causeWord 4 1 0))
      let w := (w.samplePins pins s.pwr.pairSel false).resetRec 4 0 (causeWord 4 1 0)
      w.bootWarm ok0 ok1

/-- The usable GiB of a DENSITY; an unlisted value acts as the reset value (R5, R340). -/
def usableGib (d : Nat) : Nat := if d == 1 then 28 else if d == 2 then 56 else 14

def State.updDdr (s : State) (c : Nat) (f : DdrCh → DdrCh) : State := s.setDdrCh c (f (s.ddrCh c))
/-- REFCLK in ns. -/
def State.refNs (s : State) : Nat := 2 * s.time.clk

/-- The first refresh of channel `c` after now, at phase c × REFI_NS / 8 (R347). -/
def State.phaseRefresh (s : State) (c : Nat) : State :=
  let i := s.fld (F.DDR_REF_REFI_NS c)
  let t := s.refNs / i * i + c * i / 8
  s.updDdr c (fun ch => { ch with next := if s.refNs < t then t else t + i })

/-- A write to PWR_DDR_RESUME (R513): only after a wake from RETAIN. -/
def State.ddrResume (a : Admit) : State :=
  let s := a.plain R.PWR_DDR_RESUME
  if !a.one F.PWR_DDR_RESUME_GO then s
  else
    let s := s.setBit F.PWR_DDR_RESUME_GO false
    if !s.pwr.woke then s
    else
      let s := (List.range 8).foldl (fun s c => (s.setFlds [(F.DDR_STATUS_STATE c, 3), (F.DDR_STATUS_POINT c, 3)]).phaseRefresh c) s
      let s := s.setFlds [(F.DDR_GCTL_READY, 1), (F.DDR_TOP_GIB, usableGib (s.fld (F.DDR_CFG_DENSITY 0))), (F.PWR_DDR_RESUME_DONE, 1)]
      { s with pwr := { s.pwr with woke := false } }
def execPwrDdrResume (m : Mst) (w : Word) (s : State) : Out :=
  .next (s.runReg m.toNat R.PWR_DDR_RESUME w.toNat State.ddrResume)

/-! ### The KEEP block (R522, R526) -/

/-- KEEP_WDOG_KICK: writing 1 reloads the count. -/
def State.keepKick (a : Admit) : State :=
  if a.one F.KEEP_WDOG_KICK_KICK then { a.st with pwr := { a.st.pwr with kwLoad := a.st.time.clk } } else a.st
def execKeepWdogKick (m : Mst) (w : Word) (s : State) : Out :=
  .next (s.runReg m.toNat R.KEEP_WDOG_KICK w.toNat State.keepKick)

/-- KEEP_APP_RELEASE (R522): refused before the freshness policy is locked and DRAM is ready. -/
def State.appRelease (a : Admit) : State :=
  let bitsSet := a.w &&& a.mask &&& 0xFF
  if bitsSet = 0 then a.st
  else if !(a.st.bit F.FG_LOCK_LOCK && a.st.bit F.DDR_GCTL_READY) then a.st.orFld F.KEEP_ERR_ERR 1
  else
    let s := a.plain R.KEEP_APP_RELEASE
    let entry := s.fld F.KEEP_APP_ENTRY_LO_ADDR * 4 + s.fld F.KEEP_APP_ENTRY_HI_ADDR * 2 ^ 32
    (List.range 8).foldl (fun s c =>
      if bitsSet / 2 ^ c % 2 == 1 && decide ((s.core c).run = .held) then
        s.setCore c { s.core c with run := .running, pc := BitVec.ofNat 64 entry, wdLoad := s.time.clk }
      else s) s
def execKeepAppRelease (m : Mst) (w : Word) (s : State) : Out :=
  .next (s.runReg m.toNat R.KEEP_APP_RELEASE w.toNat State.appRelease)

/-- KEEP_FUSE_BURN (R526). -/
def State.fuseBurn (a : Admit) : State :=
  let s := a.st
  if !a.one F.KEEP_FUSE_BURN_BURN then s
  else if s.pwr.fuses < s.fld F.KEEP_BOOT_VER_VERSION && s.pwr.fuses < 32 then
    { s with pwr := { s.pwr with fuses := s.pwr.fuses + 1 } }
  else s.orFld F.KEEP_ERR_ERR 2
def execKeepFuseBurn (m : Mst) (w : Word) (s : State) : Out :=
  .next (s.runReg m.toNat R.KEEP_FUSE_BURN w.toNat State.fuseBurn)

/-- LOCK bits of this chapter: a write of 0 is discarded. -/
def State.stickyLock (a : Admit) (off : Nat) (f : Fld) : State :=
  let was := a.st.bit f
  let s := a.plain off
  if was then s.setBit f true else s

end Sys2Proof.Machine
end

