-- ==== Sys2Proof/Machine/Ddr.lean ====
section
/-!
DEFINITION. The memory controller (chapter 12): the read queues and write batches, refresh, the training assist, bring-up and
the frequency change. What data a read or write moves is in Ops.lean.
Readings and choices beyond the spec's plain words: log entries 21, 37, 56 and 57.
-/
namespace Sys2Proof.Machine

def ddrChans : List Nat := List.range 8

/-! ### Reads and writes at the controller (R343 to R346) -/

/-- R343: the display class. -/
def RdReq.display (r : RdReq) : Bool := r.m == 0x70 || r.promoted

/-- The next read of a queue of 64: the oldest of the display class, else the oldest. -/
def nextRead (q : List RdReq) : Option RdReq :=
  match (q.take 64).find? (·.display) with
  | some r => some r
  | none => q.head?

/-- Channel `c` serves the reads it holds, each `lat` ns after the present instant. -/
def State.serveReads (c lat : Nat) : Nat → State → List (Nat × Nat × List Byte × List Bool) → State × List (Nat × Nat × List Byte × List Bool)
  | 0, s, out => (s, out)
  | f + 1, s, out =>
    match nextRead (s.ddrCh c).rq with
    | none => (s, out)
    | some r =>
      let v := 2 * (s.time.clk - r.clk) + lat
      let x := s.serve r.m r.a r.n
      let s := x.st.updDdr c (fun ch => { ch with rq := ch.rq.erase r })
      let s := s.sample (if r.display then 1 else 2) c v
      let s := if r.display then s.setFld (F.DDR_LAT_MAX_NS c) (max (s.fld (F.DDR_LAT_MAX_NS c)) (min v 0xFFFF)) else s
      State.serveReads c lat f s (out ++ [(r.m, r.a, x.data, x.bad)])

/-- The bytes of a read at `a` with those in words that failed parity marked as poison (R370). -/
def parityBad (e : RowErrs) (bad : List Bool) : List Bool :=
  (bad.zip (List.range bad.length)).map (fun p => p.1 || e.lasting.contains (p.2 / 4))
/-- DRAM_READ. A request for no DRAM below the usable top ends in a bus error (R17). During a frequency change it waits (R355). -/
def execDramRead (m : Mst) (a : BitVec 40) (n : BitVec 9) (hold : Bool) (r : ReadRun) (s : State) : Out :=
  .next <| s.ifRun fun s =>
    if s.regionN a.toNat n.toNat ≠ .dram then { s with resp := .busError }
    else
      let c := dramChan a.toNat
      let s := s.askUnits a.toNat n.toNat
      let s := s.updDdr c (fun ch => { ch with rq := ch.rq ++ [⟨m.toNat, a.toNat, n.toNat, false, s.time.clk⟩] })
      if hold || s.fc.stage = .change then { s with resp := .stalled }
      else
        let p := State.serveReads c r.ns (s.ddrCh c).rq.length s []
        { p.1.parity m.toNat a.toNat r.par with resp := .reads (p.2.map (fun e =>
            if e.1 == m.toNat && e.2.1 == a.toNat then (e.1, e.2.1, e.2.2.1, parityBad r.par e.2.2.2) else e)) }

/-- Code word `k` of write data is stored in poison form: marked so by its master (R367), or failed by parity (R370). -/
def wordBad (d : WrData) (k : Nat) : Bool := d.marks.contains k || d.par.lasting.any (fun i => i / 8 == k)
/-- A write of one or two code words at the controller; it completes when it enters the write queue (R345). An A core's is checked after its
store has retired, and a refusal raises WRITE_NOTICE (R86, R395). -/
def State.ddrWrite (s : State) (m a : Nat) (d : WrData) : State :=
  let n := d.bytes.length
  if s.regionN a n ≠ .dram then { s with resp := .busError }
  else
    let s := s.parity m a d.par
    let w : State × WrEnd :=
      if n ≤ 32 || wordBad d 0 == wordBad d 1 then s.write m a d.bytes (wordBad d 0) (isCore m && !isA m)
      else
        let w := s.write m a (d.bytes.take 32) (wordBad d 0) (isCore m && !isA m)
        if w.2 = .done then w.1.land m (a + 32) (d.bytes.drop 32) (wordBad d 1) else w
    let t := if isA m && decide (w.2 = .refused) then w.1.coreNotice m (BitVec.ofNat 64 a) else w.1
    { t with resp := match w.2 with
        | .done => if s.fc.stage = .change && !s.retired a then .stalled else .ok
        | .bus => .busError
        | .refused => .refused }
/-- DRAM_WRITE. During a frequency change it waits at its port once it is permitted (R355). -/
def execDramWrite (m : Mst) (a : BitVec 40) (d : WrData) (s : State) : Out :=
  .next <| s.ifRun fun s => s.ddrWrite m.toNat a.toNat d

/-- DDR_READ_PROMOTE (R343): 2,000 clocks after the read came. -/
def execDdrReadPromote (c : Fin 8) (s : State) : Out :=
  .next <| s.ifRun fun s =>
    match (s.ddrCh c.val).rq.find? (fun r => !r.display) with
    | none => s
    | some r =>
      let s := s.advance (r.clk + 2000 - s.time.clk)
      s.updDdr c.val (fun ch => { ch with rq := ch.rq.map (fun x => if x == r then { x with promoted := true } else x) })

/-- DDR_IDLE_DRAIN (R344): no read has waited for DDR_WQ.IDLE × 10 ns since the last one was served. -/
def execDdrIdleDrain (c : Fin 8) (n : Nat) (s : State) : Out :=
  .next <| s.ifRun fun s =>
    if (s.ddrCh c.val).rq.isEmpty && decide (s.fc.stage ≠ .change) then
      (s.advance ((s.ddrCh c.val).lastRd + 5 * s.fld (F.DDR_WQ_IDLE c.val) - s.time.clk)).drain c.val n
    else s

/-! ### Delay sets, refresh and training (R347 to R352) -/

/-- The registers of the delay set of point `p` on channel `c` (R360). -/
def delayRegs (c p : Nat) : List Nat :=
  (List.range 36).map (R.DDR_RDQ c p) ++ (List.range 4).map (R.DDR_RDQS c p) ++ (List.range 36).map (R.DDR_WDQ c p) ++
    (List.range 2).map (R.DDR_WCK c p) ++ (List.range 16).map (fun j => R.DDR_CA c p (j / 8) (j % 8))

def State.ddrState (s : State) (c : Nat) : Nat := s.fld (F.DDR_STATUS_STATE c)
def State.setDdrState (s : State) (c v : Nat) : State := s.setFld (F.DDR_STATUS_STATE c) v
def State.ddrPoint (s : State) (c : Nat) : Nat := s.fld (F.DDR_STATUS_POINT c)

/-- DDR_REFRESH (R347, R350, R352): the delay set waiting becomes live, and a waiting operation starts. -/
def execDdrRefresh (c : Fin 8) (s : State) : Out :=
  .next <| s.ifRun fun s =>
    let c := c.val
    if s.fc.stage = .change || (s.ddrState c != 2 && s.ddrState c != 3) then s
    else
      let due := (s.ddrCh c).next
      let s := s.advance (ceilDiv (due - s.refNs) 2)
      let s := if s.bit (F.DDR_CTL_APPLY c) then (s.goLive (delayRegs c (s.ddrPoint c))).setBit (F.DDR_CTL_APPLY c) false else s
      s.updDdr c (fun ch => { ch with
        next := due + s.fld (F.DDR_REF_REFI_NS c)
        trn := ch.trn.map (fun t => (t.1, t.2.1, true)) })

/-- R351: whether channel `c` allows operation `op` in its state. -/
def State.trnAllowed (s : State) (c op : Nat) : Bool :=
  if op == 1 || op == 2 || op == 4 then s.ddrState c == 2
  else if op == 3 || op == 5 || op == 6 then s.ddrState c == 2 || s.ddrState c == 3
  else false

/-- A write to DDR_TRN_CTL (R351, R352): in IDLE the operation runs at once, in RUN it waits for the next refresh. -/
def State.trnCtl (c : Nat) (a : Admit) : State :=
  let s := a.plain (R.DDR_TRN_CTL c)
  if !a.one (F.DDR_TRN_CTL_GO c) || (s.ddrCh c).trn.isSome then s
  else
    let op := s.fld (F.DDR_TRN_CTL_OP c)
    if s.trnAllowed c op then
      s.updDdr c (fun ch => { ch with trn := some (op, s.fld (F.DDR_TRN_ROW_ROW c), s.ddrState c == 2) })
    else s.setFlds [(F.DDR_TRN_CTL_GO c, 0), (F.DDR_TRN_STAT_REFUSED c, 1), (F.DDR_ERR_TRN c, 1)]
def trnWrite (m : Mst) (c : Fin 8) (w : Word) (s : State) : Out :=
  .next (s.runReg m.toNat (R.DDR_TRN_CTL c.val) w.toNat (State.trnCtl c.val))
def execTrnCa (m : Mst) (c : Fin 8) (w : Word) (s : State) : Out := trnWrite m c w s
def execTrnWckLevel (m : Mst) (c : Fin 8) (w : Word) (s : State) : Out := trnWrite m c w s
def execTrnReadDq (m : Mst) (c : Fin 8) (w : Word) (s : State) : Out := trnWrite m c w s
def execTrnWriteDq (m : Mst) (c : Fin 8) (w : Word) (s : State) : Out := trnWrite m c w s
def execTrnOsc (m : Mst) (c : Fin 8) (w : Word) (s : State) : Out := trnWrite m c w s
def execTrnMrr (m : Mst) (c : Fin 8) (w : Word) (s : State) : Out := trnWrite m c w s

/-- The code words of row `row` of bank 0 of both subchannels of channel `c` (R342). -/
def rowWords (c row : Nat) : List Nat :=
  let l := row * 2 ^ 16 + row / 4 % 4 * 2 ^ 14 + row % 4 * 2 ^ 12
  (List.range 128).map (fun k =>
    let x := l + 32 * k
    let u := x / 256
    u * 2 ^ 11 + (c ^^^ (u % 8) ^^^ (u / 8 % 8)) * 2 ^ 8 + x % 256)

/-- Rows of a bank that hold data (R342): those below the upper eighth. -/
def State.dataRows (s : State) (c : Nat) : Nat := usableGib (s.fld (F.DDR_CFG_DENSITY c)) * 2 ^ 11
/-- WRITE_DQ destroys its row: the data there, or in the upper eighth the check bytes there; a bank has no row beyond that. -/
def State.destroyRow (s : State) (c row : Nat) : State :=
  let k := s.dataRows c
  if row < k then
    (rowWords c row).foldl (fun s u =>
      (s.putBytes u ((span u 32).map (fun a => Config.trained a s.time.clk))).setDelta u (Config.trainedCheck u s.time.clk).toNat) s
  else if row < k / 7 * 8 then
    ((Config.guarded c row).filter (fun u => u % 32 == 0 && dramChan u == c && decide (u < k * 2 ^ 19))).foldl (fun s u =>
      s.setDelta u (Config.trainedCheck u s.time.clk).toNat) s
  else s

/-- DDR_TRN_DONE (R351, R358). -/
def execDdrTrnDone (c : Fin 8) (dq : Word) (dmi : BitVec 4) (ca count : BitVec 16) (s : State) : Out :=
  .next <| s.ifRun fun s =>
    let c := c.val
    match (s.ddrCh c).trn with
    | some (op, row, true) =>
      let s := s.updDdr c (fun ch => { ch with trn := none })
      let s := s.setFlds [(F.DDR_TRN_CTL_GO c, 0), (F.DDR_TRN_STAT_DONE c, 1)]
      let s := if op == 4 then s.destroyRow c row else s
      if op == 1 then s.setFld (F.DDR_TRN_PASS1_CA c) ca.toNat
      else if op == 3 || op == 4 then s.setFlds [(F.DDR_TRN_PASS0_DQ c, dq.toNat), (F.DDR_TRN_PASS1_DMI c, dmi.toNat)]
      else if op == 5 then s.setFld (F.DDR_TRN_STAT_COUNT c) count.toNat
      else if op == 6 then s.setFld (F.DDR_TRN_STAT_COUNT c) (putBits (s.fld (F.DDR_TRN_STAT_COUNT c)) 7 0 count.toNat)
      else s
    | _ => s

/-! ### Bring-up (R353, R357) -/

/-- A write to DDR_CTL. -/
def State.ddrCtl (c : Nat) (a : Admit) : State :=
  let s := a.plain (R.DDR_CTL c)
  if !a.took (F.DDR_CTL_EN c) then s
  else if !s.bit (F.DDR_CTL_EN c) then (s.setDdrState c 0).updDdr c (fun ch => { ch with trn := none })
  else if a.one (F.DDR_CTL_INIT c) then
    (s.setFlds [(F.DDR_STATUS_STATE c, 1), (F.DDR_STATUS_POINT c, 3)]).updDdr c (fun ch => { ch with trn := none })
  else s
def execDdrInit (m : Mst) (c : Fin 8) (w : Word) (s : State) : Out :=
  .next (s.runReg m.toNat (R.DDR_CTL c.val) w.toNat (State.ddrCtl c.val))
def execDdrApply (m : Mst) (c : Fin 8) (w : Word) (s : State) : Out :=
  .next (s.runReg m.toNat (R.DDR_CTL c.val) w.toNat (State.ddrCtl c.val))

/-- DDR_INIT_DONE (R357). -/
def execDdrInitDone (c : Fin 8) (s : State) : Out :=
  .next <| s.ifRun fun s =>
    if s.ddrState c.val == 1 then (s.setDdrState c.val 2).phaseRefresh c.val else s

/-- A write to DDR_GCTL (R353, R361). -/
def State.ddrGctl (a : Admit) : State :=
  let s := a.st
  if !a.one F.DDR_GCTL_READY then s
  else
    let d := s.fld (F.DDR_CFG_DENSITY 0)
    if ddrChans.all (fun c => s.fld (F.DDR_CFG_DENSITY c) == d && s.ddrState c == 2) then
      ddrChans.foldl (fun s c => s.setDdrState c 3) (s.setFlds [(F.DDR_GCTL_READY, 1), (F.DDR_TOP_GIB, usableGib d)])
    else s.setBit (F.DDR_ERR_CFG 0) true
def execDdrReady (m : Mst) (w : Word) (s : State) : Out := .next (s.runReg m.toNat R.DDR_GCTL w.toNat State.ddrGctl)

/-! ### The guarded registers (R357 to R359) -/

/-- R344: a batch starts where the write queue of channel `c` holds HIGH code words or more, a HIGH written below what it holds among them. -/
def State.queueRoom (s : State) (c : Nat) : State :=
  let n := (s.queue c).length
  if decide (s.fc.stage ≠ .change) && decide (0 < n) && decide (s.fld (F.DDR_WQ_HIGH c) ≤ n) then s.drain c (n - s.fld (F.DDR_WQ_LOW c)) else s
/-- A write to another register of channel `c`, at `off`. -/
def State.ddrCfg (c off : Nat) (a : Admit) : State :=
  let p := off % 0x10000
  let no := a.st.setBit (F.DDR_ERR_CFG c) true
  if off = R.DDR_CFG c then
    if a.took (F.DDR_CFG_DENSITY c) && a.st.ddrState c != 0 then no else a.plain off
  else if off = R.DDR_WQ c then
    if a.took (F.DDR_WQ_LOW c) && (a.get (F.DDR_WQ_HIGH c) ≤ a.get (F.DDR_WQ_LOW c) || 128 < a.get (F.DDR_WQ_HIGH c)) then no
    else (a.plain off).queueRoom c
  else if 0x100 ≤ p && p < 0x140 then
    if (a.took (F.DDR_TIM0_RL c 0) && (p - 0x100) / 0x10 == a.st.ddrPoint c) && (a.st.ddrState c == 3 || a.st.ddrState c == 4) then no
    else a.plain off
  else if off = R.DDR_PEAK50 c then (a.st.setReg off 0).updDdr c (fun ch => { ch with asked := [] })
  else if 0x20 ≤ p && p < 0x30 then a.st.setReg off 0
  else a.plain off

/-! ### The frequency change (R354 to R356, R503) -/

/-- A write to DDR_FC_CTL. While a change is pending or running only FORCE takes the value written: the write of TARGET, NEED and TIMEOUT
is discarded and sets CFG. -/
def State.fcCtl (a : Admit) : State :=
  if !a.took F.DDR_FC_CTL_TARGET then a.st
  else if a.st.bit F.DDR_FC_STAT_BUSY then
    (a.st.setFld F.DDR_FC_CTL_FORCE (a.get F.DDR_FC_CTL_FORCE)).setBit (F.DDR_ERR_CFG 0) true
  else
    let s := (a.plain R.DDR_FC_CTL).setBit F.DDR_FC_CTL_GO false
    if !a.one F.DDR_FC_CTL_GO then s
    else if s.bit F.PWR_STATUS_DVFS_BUSY || s.fld F.DDR_FC_CTL_TARGET < s.fld F.PWR_DVFS_CURRENT then s.setBit (F.DDR_ERR_CFG 0) true
    else
      { s.setFlds [(F.DDR_FC_STAT_BUSY, 1), (F.DDR_FC_STAT_PREP, 0)] with fc := { s.fc with stage := .lock, clk := s.time.clk } }
def execDdrFcGo (m : Mst) (w : Word) (s : State) : Out := .next (s.runReg m.toNat R.DDR_FC_CTL w.toNat State.fcCtl)

/-- DDR_FC_PREP. -/
def execDdrFcPrep (s : State) : Out :=
  .next <| s.ifRun fun s =>
    if s.fc.stage = .lock then
      { s.setBit F.DDR_FC_STAT_PREP true with fc := { s.fc with stage := .search, clk := s.time.clk } }
    else s

/-- The counter value at which line −2 of the frame to come, or of the frame in its blanking, begins. -/
def State.quietEnd40 (s : State) (h : Nat) : Nat :=
  let x := s.hd h
  if x.ended then
    let n := if s.dbl h = 2 && !x.second then (x.tick, true) else (x.tick + 1, false)
    (s.setHd h { x with tick := n.1, second := n.2 }).lineAt40 h (-2)
  else s.lineAt40 h (-2)
/-- R289: the memory-quiet interval of a head. -/
def State.quiet (s : State) (h : Nat) : Bool :=
  let x := s.hd h
  s.headRuns h && ((x.ended && x.line == (s.vact h : Int) - 1) || decide (x.line < -2)) && decide (x.quietAt ≤ s.nowNs) &&
    decide (s.time.now < s.quietEnd40 h)

/-- R355: every head in SCANNING or RESYNC is quiet with NEED µs left. -/
def State.windowOpen (s : State) : Bool :=
  (List.range 32).all (fun h =>
    (s.headState h != 2 && s.headState h != 3) ||
      (s.quiet h && decide (s.time.now + max 20 (s.fld F.DDR_FC_CTL_NEED) * 1000 * 2 ^ 40 ≤ s.quietEnd40 h)))

/-- The change begins: an APPLY that waits clears (R350); 1.3 µs later TARGET is the current point and its delay sets are live (R355). -/
def State.changeStart (s : State) : State :=
  let s := ddrChans.foldl (fun s c => s.setBit (F.DDR_CTL_APPLY c) false) s
  let s := ({ s with fc := { s.fc with stage := .change, clk := s.time.clk } }).advance 650
  let p := s.fld F.DDR_FC_CTL_TARGET
  ddrChans.foldl (fun s c => (s.setFld (F.DDR_STATUS_POINT c) p).goLive (delayRegs c p)) s

/-- DDR_FC_WINDOW: nothing happens where no window is open. -/
def execDdrFcWindow (s : State) : Out :=
  .next <| s.ifRun fun s => if s.fc.stage = .search && s.windowOpen then s.changeStart else s

/-- DDR_FC_TIMEOUT (R356). -/
def execDdrFcTimeout (s : State) : Out :=
  .next <| s.ifRun fun s =>
    if s.fc.stage ≠ .search then s
    else
      let s := s.advance (s.fc.clk + 500000 * max 1 (s.fld F.DDR_FC_CTL_TIMEOUT) - s.time.clk)
      if s.bit F.DDR_FC_CTL_FORCE then (s.changeStart).setBit F.DDR_FC_STAT_FORCED true
      else
        { s.setFlds [(F.DDR_FC_STAT_BUSY, 0), (F.DDR_FC_STAT_PREP, 0), (F.DDR_FC_STAT_NOWIN, 1)] with fc := { s.fc with stage := .idle } }

end Sys2Proof.Machine
end

