-- ==== Sys2Proof/Machine/DecBase.lean ====
section
/-!
DEFINITION. Stream contexts and decode engines at rest (R184 to R200, R206 to R208): registers, display entries, free buffers, and
the choice of the access unit an engine takes next.
Readings and choices beyond the spec's plain words: log entries 13, 48 and 49.
-/
namespace Sys2Proof.Machine

def State.dc (s : State) (i : Nat) : DecCtx := Tbl.get (fun _ => {}) s.dctx i
def State.setDc (s : State) (i : Nat) (c : DecCtx) : State := { s with dctx := Tbl.set (fun _ => {}) s.dctx i c }
def State.updDc (s : State) (i : Nat) (f : DecCtx → DecCtx) : State := s.setDc i (f (s.dc i))
def State.de (s : State) (n : Nat) : DecEng := Tbl.get (fun _ => {}) s.deng n
def State.setDe (s : State) (n : Nat) (e : DecEng) : State :=
  { s with deng := Tbl.set (fun _ => {}) s.deng n e }.setFld (F.DEC_ENG_STATUS_QLEVEL n) e.queue.length
def State.updDe (s : State) (n : Nat) (f : DecEng → DecEng) : State := s.setDe n (f (s.de n))

/-! ### Registers of a context -/

def State.ctxState (s : State) (i : Nat) : Nat := s.fld (F.DEC_CTX_STATUS_STATE i)
def State.setCtxState (s : State) (i v : Nat) : State := s.setFld (F.DEC_CTX_STATUS_STATE i) v
def State.ctxDone (s : State) (i : Nat) : Nat := s.reg64 (R.DEC_CTX_DONE_LO i) (R.DEC_CTX_DONE_HI i)
def State.ctxNext (s : State) (i : Nat) : Nat := s.reg64 (R.DEC_CTX_NEXT_LO i) (R.DEC_CTX_NEXT_HI i)
/-- A new number is next: what is held under that number or a later one belongs to no access unit any more. -/
def State.forgetFrom (s : State) (i v : Nat) : State := s.updDc i (fun c => { c with aus := c.aus.filter (fun r => decide (r.num < v)) })
def State.setCtxNext (s : State) (i v : Nat) : State := (s.setReg64 (R.DEC_CTX_NEXT_LO i) (R.DEC_CTX_NEXT_HI i) v).forgetFrom i v
def State.bsBase (s : State) (i : Nat) : Nat := s.fld (F.DEC_CTX_BS_LO_ADDR i) * 2 ^ 12 + s.fld (F.DEC_CTX_BS_HI_ADDR i) * 2 ^ 32
def State.bsSize (s : State) (i : Nat) : Nat := s.fld (F.DEC_CTX_BS_SIZE_SIZE i) * 4096
def State.idxEntry (s : State) (i a : Nat) : Nat :=
  s.fld (F.DEC_CTX_IDX_LO_ADDR i) * 2 ^ 5 + s.fld (F.DEC_CTX_IDX_HI_ADDR i) * 2 ^ 32 + 32 * (a % 256)
def State.dtEntry (s : State) (i a : Nat) : Nat :=
  s.fld (F.DEC_CTX_DT_LO_ADDR i) * 2 ^ 5 + s.fld (F.DEC_CTX_DT_HI_ADDR i) * 2 ^ 32 + 32 * (a % 64)
def State.ctxEngine (s : State) (i : Nat) : Nat := s.fld (F.DEC_CTX_CTL_ENGINE i)

/-! ### The picture pool (R197, R200) -/

def State.poolCount (s : State) (i : Nat) : Nat := min 32 (s.fld (F.DEC_CTX_POOL_CFG_COUNT i))
def State.poolHold (s : State) (i : Nat) : Nat := max 1 (s.fld (F.DEC_CTX_POOL_CFG_HOLD i))
def State.poolPitch (s : State) (i : Nat) : Nat := s.fld (F.DEC_CTX_POOL_CFG_PITCH i) * 256
def State.poolLuma (s : State) (i : Nat) : Nat := s.fld (F.DEC_CTX_POOL_LUMA_SIZE i) * 4096
def State.poolStride (s : State) (i : Nat) : Nat := s.fld (F.DEC_CTX_POOL_STRIDE_SIZE i) * 4096
def State.poolBuf (s : State) (i k : Nat) : Nat :=
  s.fld (F.DEC_CTX_POOL_LO_ADDR i) * 2 ^ 12 + s.fld (F.DEC_CTX_POOL_HI_ADDR i) * 2 ^ 32 + k * s.poolStride i
/-- Buffer `k` of context `i` is neither in the decoded picture buffer nor named by a recent display entry (R200). -/
def State.bufLeft (s : State) (i k : Nat) : Bool :=
  decide (k < s.poolCount i) && !(s.dc i).pics.any (·.buf == k) && !(s.dc i).shown.contains k
/-- R200: buffer `k` of context `i` may be used. -/
def State.bufFree (s : State) (i k : Nat) : Bool := s.bufLeft i k && !s.bufRead i k
/-- The buffer of access unit `a`: it depends on the context's own history alone, so that its display entry does not depend on when heads read
(R184); while a head reads it, or none is left, the job waits (DESIGN CHOICE, log entry 49). -/
def State.bufPick (s : State) (i a : Nat) : Option Nat :=
  let left := (List.range (s.poolCount i)).filter (s.bufLeft i)
  left[Config.pickBuf left.length a % max 1 left.length]?
def State.bufReady (s : State) (i a : Nat) : Bool :=
  match s.bufPick i a with
  | some k => !s.bufRead i k
  | none => false

/-! ### A display entry (R199) -/

def dtArrival (e : List Byte) : Nat := leNat (slice e 0 6)
def dtLeft (e : List Byte) : Nat := leNat (slice e 6 2)
def dtTime (e : List Byte) : Nat := leNat (slice e 8 12)
def dtTick (e : List Byte) : Nat := leNat (slice e 8 8)
def dtCrc (e : List Byte) : Nat := leNat (slice e 20 4)
def dtBuf (e : List Byte) : Nat := leNat (slice e 24 1)
def dtFlag (e : List Byte) (k : Nat) : Bool := leNat (slice e 25 1) / 2 ^ k % 2 == 1
def dtTop (e : List Byte) : Nat := leNat (slice e 26 2)
def dtWidth (e : List Byte) : Nat := leNat (slice e 28 2)
def dtHeight (e : List Byte) : Nat := leNat (slice e 30 2)

/-! ### What an engine takes next (R185, R191, R192, R197, R552) -/

/-- A DEC_CTX_ERR bit is set; a change from 0 to 1 shows on the bound engine (R211). -/
def State.ctxErr (s : State) (i bit : Nat) : State :=
  if s.bitAt (F.DEC_CTX_ERR_ERR i) bit then s
  else (s.putBitAt (F.DEC_CTX_ERR_ERR i) bit true).setBit (F.DEC_ENG_ERR_CTX (s.ctxEngine i)) true

/-- How access unit `a` of context `i` stands: not here yet, to be handled as LOST, or COMPLETE with its index entry. -/
inductive AuState where
  | waiting | lost | here (entry : List Byte)
  deriving DecidableEq, Repr

/-- Before buffer `k` is used again, every display entry that names it loses PICTURE; a poisoned entry names nothing. -/
def State.reuseBuf (s : State) (n i k : Nat) : State :=
  (List.range 64).foldl (fun s t =>
    let a := s.dtEntry i t
    let r := s.read (0x10 + n) a 32
    let e := r.data
    let s := r.noted (0x10 + n) a 4
    if !r.bus && !r.poisoned && dtFlag e 0 && dtBuf e == k then
      (s.write (0x10 + n) a (e.set 25 (e.getD 25 0 - 1)) false false).1
    else s) s
/-- Whether one of a context's rings, tables or buffers lies where accesses wait (R355). -/
def State.ctxWaits (s : State) (i : Nat) : Bool :=
  [s.bsBase i, s.idxEntry i 0, s.dtEntry i 0, s.poolBuf i 0].any (fun a => s.waits (s.region a))

/-- The index entry as the engine sees it: no bytes where it is poisoned or lies on a retired page (R379). -/
def State.seenEntry (s : State) (a : Nat) : List Byte :=
  let r := s.regionN a 32
  if r = .dram || r.sram then
    let d := (span a 32).map (s.seenByte r)
    if d.any (·.2) || !(s.gonePages r a 32).isEmpty then [] else d.map (·.1)
  else []
def State.auState (s : State) (i a : Nat) : AuState :=
  if s.ctxNext i ≤ a || [20, 21].any (fun q => ((Tbl.get (fun _ => ({} : LinkSt)) s.links q).aus).any (fun u => u.ctx == i && u.num == some a)) then .waiting
  else
    let e := s.seenEntry (s.idxEntry i a)
    if e.length = 32 && leNat (e.take 8) == a && leNat (slice e 28 1) % 2 == 1 then .here e else .lost

/-- R552, R181: access unit with FLAGS `fl` is decoded, and does not only pass through. -/
def DecCtx.decodes (c : DecCtx) (fl : Nat) : Bool := (c.started && !c.unsup) || fl / 4 % 4 ≠ 0

/-- The next access unit of a job's context: in a replay the next one replayed. -/
def State.nextAu (s : State) (i : Nat) : Nat := ((s.dc i).replay).getD (s.ctxDone i + 1)

/-- Whether job `j` can take a turn, into which buffer if it needs one: 0 it waits, 1 it waits for a buffer, 2 it can. -/
def State.jobReady (s : State) (j : DecJob) : Nat × Option Nat :=
  if s.ctxWaits j.ctx then (0, none)
  else match s.auState j.ctx (s.nextAu j.ctx) with
  | .waiting => (0, none)
  | .lost => (2, none)
  | .here e =>
    if !(s.dc j.ctx).decodes (leNat (slice e 28 1)) then (2, none)
    else if s.bufReady j.ctx (s.nextAu j.ctx) then (2, s.bufPick j.ctx (s.nextAu j.ctx)) else (1, none)

/-- A job leaves the queue of engine `n`: the rotation stays in place, the context's state follows. -/
def State.jobGone (s : State) (n ix : Nat) : State :=
  match (s.de n).queue[ix]? with
  | none => s
  | some j =>
    let s := s.updDe n (fun e => { e with queue := e.queue.eraseIdx ix, turn := if ix < e.turn then e.turn - 1 else e.turn })
    let s := s.sample 3 n ((s.time.clk - j.clk) * 2)
    let s := s.setFld (F.DEC_CTX_STATUS_POOL_WAIT j.ctx) 0
    if s.ctxState j.ctx ≤ 1 || s.ctxState j.ctx = 5 then s
    else s.setCtxState j.ctx (if (s.de n).queue.any (fun x => x.ctx == j.ctx) then 3 else 2)

/-- Engine `n` takes the next access unit of context `i`, job `ix` of its queue, into buffer `k` if it is to be decoded. -/
def State.decTake (s : State) (n ix i : Nat) (k : Option Nat) : State :=
  let s := match k with
    | some b => s.reuseBuf n i b
    | none => s
  let s := s.updDe n (fun e => { e with turn := ix, cur := some i, since := s.time.clk, buf := k.getD 0 })
  let s := s.setFlds [(F.DEC_ENG_STATUS_STATE n, 2), (F.DEC_ENG_STATUS_CTX n, i), (F.DEC_ENG_STATUS_CTX_VALID n, 1)]
  if s.ctxState i = 3 then s.setCtxState i 4 else s

/-- The first job in rotation of each context that can take a turn; finished and malformed jobs leave first (R194, R196). -/
def State.decPick (s : State) (n : Nat) : Nat → Nat → State
  | 0, _ => s
  | f + 1, k =>
    let e := s.de n
    let len := e.queue.length
    if len ≤ k then s
    else
      let ix := (e.turn + k) % len
      match e.queue[ix]? with
      | none => s
      | some j =>
        if (e.queue.take ix).any (fun x => x.ctx == j.ctx) then s.decPick n f (k + 1)
        else if !s.bit (F.DEC_CTX_CTL_EN j.ctx) then (s.jobGone n ix).decPick n f k
        else if !j.ok then ((s.ctxErr j.ctx 7).jobGone n ix).decPick n f k
        else if (s.dc j.ctx).replay.isNone && decide (j.upto ≤ s.ctxDone j.ctx) then (s.jobGone n ix).decPick n f k
        else
          let r := s.jobReady j
          let s := s.setFld (F.DEC_CTX_STATUS_POOL_WAIT j.ctx) (if r.1 = 1 then 1 else 0)
          if r.1 = 2 then
            s.decTake n ix j.ctx r.2
          else s.decPick n f (k + 1)

/-- Engine `n` takes its next access unit, if it takes jobs and has none in hand (R185, R211). -/
def State.decSched (s : State) (n : Nat) : State :=
  if s.fld (F.DEC_ENG_STATUS_STATE n) = 1 && s.bit (F.DEC_ENG_CTL_EN n) && (s.de n).cur.isNone then s.decPick n 40 0 else s

end Sys2Proof.Machine
end

