-- ==== Sys2Proof/Machine/LinkBase.lean ====
section
/-!
DEFINITION. Barge Link (R122 to R141): what a barge is on the wire, block rows and the scrambler, and forming a barge for a
quad. Quads are numbered 0 to 23.
Readings and choices beyond the spec's plain words: log entry 43.
-/
namespace Sys2Proof.Machine

def State.link (s : State) (q : Nat) : LinkSt := Tbl.get (fun _ => {}) s.links q
def State.setLink (s : State) (q : Nat) (l : LinkSt) : State := { s with links := Tbl.set (fun _ => {}) s.links q l }
def State.updLink (s : State) (q : Nat) (f : LinkSt → LinkSt) : State := s.setLink q (f (s.link q))

/-! ### Barges and rows (R125 to R132) -/

/-- Header, payload, trailer and padding of a barge. -/
def Barge.bytes (b : Barge) (seq : Nat) (rpl : Bool) : List Byte :=
  let h := b.typ + b.vc * 2 ^ 8 + rpl.toNat * 2 ^ 10 + b.data.length * 2 ^ 11 + (if b.vc == 3 then 0 else seq) * 2 ^ 24 +
    b.spec % 2 ^ 28 * 2 ^ 36
  let body := leBytes 8 h ++ b.data
  let t := body ++ leBytes 4 (crc32c body)
  slice t 0 (ceilDiv t.length 8 * 8)
/-- Wire size of a barge with `len` payload bytes (R130), and its cost in credits (R139). -/
def wireSize (len : Nat) : Nat := ceilDiv (12 + len) 8 * 8
def bargeCost (len : Nat) : Nat := ceilDiv (wireSize len) 64

/-- One bit through the scrambler x^58 + x^39 + 1 (R126): the state, newest bit lowest, and the output bit. -/
def scrambleBit (p : Nat × Nat) (d : Nat) : Nat × Nat :=
  let o := (d + p.1 / 2 ^ 38 % 2 + p.1 / 2 ^ 57 % 2) % 2
  ((2 * p.1 + o) % 2 ^ 58, o)
def scrambleByte (st : Nat) (b : Byte) : Nat × Byte :=
  let r := (List.range 8).foldl (fun (p : Nat × Nat) i =>
    let x := scrambleBit (p.1, 0) (b.toNat / 2 ^ i % 2)
    (x.1, p.2 + x.2 * 2 ^ i)) (st, 0)
  (r.1, BitVec.ofNat 8 r.2)
def scrambleBlock (st : Nat) (d : List Byte) : Nat × List Byte :=
  d.foldl (fun p b => let x := scrambleByte p.1 b; (x.1, p.2 ++ [x.2])) (st, [])

/-- The self-synchronising descrambler of a receive lane (R126): its state is the last 58 received bits. -/
def descrambleBit (p : Nat × Nat) (d : Nat) : Nat × Nat :=
  ((2 * p.1 + d) % 2 ^ 58, (d + p.1 / 2 ^ 38 % 2 + p.1 / 2 ^ 57 % 2) % 2)
def descrambleByte (st : Nat) (b : Byte) : Nat × Byte :=
  let r := (List.range 8).foldl (fun (p : Nat × Nat) i =>
    let x := descrambleBit (p.1, 0) (b.toNat / 2 ^ i % 2)
    (x.1, p.2 + x.2 * 2 ^ i)) (st, 0)
  (r.1, BitVec.ofNat 8 r.2)
def descrambleBlock (st : Nat) (d : List Byte) : Nat × List Byte :=
  d.foldl (fun p b => let x := descrambleByte p.1 b; (x.1, p.2 ++ [x.2])) (st, [])

/-- R127: byte j of a row travels on lane j mod 4. -/
def stripe (row : List Byte) : List (List Byte) :=
  (List.range 4).map (fun l => (List.range 16).map (fun k => row.getD (4 * k + l) 0))

/-- The four lanes' ordered-set blocks (R128). -/
def tsRow (rate role id : Nat) (confAck fresh : Bool) : Row :=
  ⟨false, (List.range 4).map (fun l => [0x1E, BitVec.ofNat 8 l, BitVec.ofNat 8 rate, BitVec.ofNat 8 role] ++ leBytes 4 id ++
    [BitVec.ofNat 8 (confAck.toNat + 2 * fresh.toNat)] ++ List.replicate 7 0x4A)⟩
def alignRow (start : Bool) : Row :=
  ⟨false, List.replicate 4 ([0x2D, BitVec.ofNat 8 start.toNat] ++ List.replicate 14 0x2D)⟩
def idleRow (code : Nat) : Row :=
  ⟨false, List.replicate 4 ([0x66, BitVec.ofNat 8 code] ++ List.replicate 14 0x66)⟩

/-- Training rows set every lane's scrambler to all ones; the byte stream pauses and keeps what has not filled a row (R126, R127). -/
def LinkSt.trainRows (l : LinkSt) (n : Nat) (r : Row) : LinkSt :=
  { l with wire := l.wire ++ List.replicate n r, scr := List.replicate 4 (2 ^ 58 - 1), rows := 0 }

/-- A training row received sets every lane's descrambler to all ones (R126). What arrives after it reaches the model as commands that
name barges, already descrambled (DESIGN CHOICE, log entry 43). -/
def LinkSt.trainedRx (l : LinkSt) : LinkSt := { l with dscr := List.replicate 4 (2 ^ 58 - 1) }

/-- One data row leaves, with one bit inverted on each lane for which `inject` counts an inversion (R173); after 1,024 of them an ALIGN row follows, START telling whether the next row begins a barge (R129). -/
def LinkSt.sendRow (l : LinkSt) : LinkSt :=
  let x := ((stripe (l.rowBuf.take 64)).zip (l.scr ++ List.replicate 4 (2 ^ 58 - 1))).map (fun p => scrambleBlock p.2 p.1)
  let rest := l.rowBuf.drop 64
  let out := (x.zip (List.range 4)).map (fun p => if 0 < l.inject.getD p.2 0 then p.1.2.set 0 (p.1.2.getD 0 0 ^^^ 1) else p.1.2)
  let l : LinkSt := { l with rowBuf := rest, scr := x.map (·.1), wire := l.wire ++ [⟨true, out⟩], rows := l.rows + 1, inject := l.inject.map (· - 1) }
  if l.rows < 1024 then l else { l with wire := l.wire ++ [alignRow rest.isEmpty], rows := 0 }

/-- FILL words end the row that a barge left unfinished. -/
def LinkSt.fillRow (l : LinkSt) : LinkSt :=
  if l.rowBuf.isEmpty then l else ({ l with rowBuf := slice l.rowBuf 0 64 } : LinkSt).sendRow
/-- An ALIGN row with START at 1, after FILL words up to the next row (R137). The 1,024 data rows of R129 are counted afresh after it
(DESIGN CHOICE, log entry 43). -/
def LinkSt.alignStart (l : LinkSt) : LinkSt :=
  let l := l.fillRow
  { l with wire := l.wire ++ [alignRow true], rows := 0, alignDue := false }

/-- Bytes enter the direction's byte stream. -/
def LinkSt.emit (l : LinkSt) (d : List Byte) : LinkSt :=
  let l : LinkSt := { l with rowBuf := l.rowBuf ++ d }
  (List.range (l.rowBuf.length / 64)).foldl (fun l _ => l.sendRow) l

/-! ### Forming barges -/

def State.txState (s : State) (q : Nat) : Nat := s.fld (F.BL_STATUS_TX_STATE q)
def State.rxState (s : State) (q : Nat) : Nat := s.fld (F.BL_STATUS_RX_STATE q)
def State.up (s : State) (q : Nat) : Bool := s.bit (F.BL_STATUS_UP q)
def linkLive (st : Nat) : Bool := 4 ≤ st && st ≤ 6
/-- UP and the pair block's copies follow the states (R163, R472). -/
def State.setStates (s : State) (q tx rx : Nat) : State :=
  let up := linkLive tx && linkLive rx
  let s := s.setFlds [(F.BL_STATUS_TX_STATE q, tx), (F.BL_STATUS_RX_STATE q, rx), (F.BL_STATUS_UP q, up.toNat)]
  if q == 22 then s.setBit F.STEP_STATUS_Q22_UP up else if q == 23 then s.setBit F.STEP_STATUS_Q23_UP up else s

/-- A barge is formed for quad `q` and waits. -/
def State.pushBarge (s : State) (q : Nat) (b : Barge) : State :=
  s.updLink q (fun l => { l with waiting := l.waiting ++ [b], idleClk := s.time.clk })

/-- The CREDIT barge with the counts now released (R140). -/
def LinkSt.creditBarge (l : LinkSt) : Barge := ⟨0x03, 3, 0, (l.rel.flatMap (fun c => leBytes 2 c)) ++ [0, 0], none⟩
/-- The first CREDIT after a FRESH bring-up gives the buffer sizes of R141. -/
def initCredit : Barge := ⟨0x03, 3, 1, leBytes 2 512 ++ leBytes 2 128 ++ leBytes 2 32 ++ [0, 0], none⟩

/-- A CREDIT is due: one already waiting takes the new counts. -/
def State.queueCredit (s : State) (q : Nat) : State :=
  s.updLink q (fun l =>
    let b := l.creditBarge
    let others := l.waiting.filter (fun x => !(x.typ == 3 && x.vc == 3 && x.spec == 0))
    if others.length == l.waiting.length then { l with waiting := l.waiting ++ [b], idleClk := s.time.clk }
    else { l with waiting := l.waiting.map (fun x => if x.typ == 3 && x.vc == 3 && x.spec == 0 then b else x) })

/-- ACK and NAK carry the SEQ of the last barge accepted (R136). -/
def State.sendAck (s : State) (q : Nat) : State :=
  let l := s.link q
  if l.unacked = 0 then s
  else (s.updLink q (fun l => { l with unacked := 0 })).pushBarge q ⟨0x01, 3, l.lastAcc, [], none⟩

def State.role (s : State) : Nat := s.fld F.STEP_STATUS_ROLE

/-- A Step Link message barge leaves on both quads that are up; in STANDALONE none does (R445, R447). -/
def State.stepSend (s : State) (b : Barge) : State :=
  if s.role = 0 then s
  else [22, 23].foldl (fun s q => if s.up q then s.pushBarge q b else s) s
/-- Snapshots and baselines travel on Q23, or on Q22 while Q23 is not up (R447). -/
def State.stepSendOne (s : State) (b : Barge) : State :=
  if s.role = 0 then s
  else if s.up 23 then s.pushBarge 23 b else if s.up 22 then s.pushBarge 22 b else s

/-- A protocol error (R7, R134): counted and flagged. -/
def State.protoErr (s : State) (q : Nat) : State := (s.bump (F.BL_CNT_PROTO_COUNT q)).setBit (F.BL_ERR_PROTO q) true
def State.linkDrop (s : State) (q : Nat) (n : Nat := 1) : State := s.bump (F.BL_CNT_DROP_COUNT q) n

end Sys2Proof.Machine
end

