-- ==== Sys2Proof/Machine/Arrive.lean ====
section
/-!
DEFINITION. Arrival of access units (R150, R151, R182, R187 to R192), the marks the chips of a pair exchange about them (R463)
and join assist (R468).
Readings and choices beyond the spec's plain words: log entry 48.
-/
namespace Sys2Proof.Machine

/-- R191: the newest COMPLETE classified access unit no later than DONE + 1, or DONE + 1. -/
def State.retain (s : State) (i : Nat) : Nat :=
  let d := s.ctxDone i + 1
  ((s.dc i).aus.filter (fun r => r.cls && r.complete && decide (r.num ≤ d))).foldl
    (fun (b : Option Nat) r => some (max r.num (b.getD 0))) none |>.getD d

/-- The RETAIN register follows, and records before the retain point are forgotten. -/
def State.updRetain (s : State) (i : Nat) : State :=
  let r := s.retain i
  (s.updDc i (fun c => { c with aus := c.aus.filter (fun x => decide (r ≤ x.num)) })).setReg64
    (R.DEC_CTX_RETAIN_LO i) (R.DEC_CTX_RETAIN_HI i) r

/-- R187: `d` is written into the ring from offset `o`, wrapping at its end, in whole code words. -/
def State.ringWrite (s : State) (m base size o : Nat) (d : List Byte) : State :=
  let d := slice d 0 (ceilDiv d.length 32 * 32)
  (List.range (d.length / 32)).foldl (fun s k =>
    (s.write m (base + (o + 32 * k) % max 1 size) (slice d (32 * k) 32) false false).1) s

/-! ### Classification (R182) -/

/-- The NAL units of an Annex B byte stream: the bytes between start codes. -/
def nalUnits : List Byte → Nat → List Byte → List (List Byte)
  | [], _, cur => [cur.reverse]
  | b :: bs, z, cur =>
    if b == 1 && 2 ≤ z then cur.reverse :: nalUnits bs 0 []
    else nalUnits bs (if b == 0 then z + 1 else 0) (b :: cur)

/-- The payload with emulation-prevention bytes taken out. -/
def unescape : List Byte → Nat → List Byte
  | [], _ => []
  | b :: bs, z => if b == 3 && 2 ≤ z then unescape bs 0 else b :: unescape bs (if b == 0 then z + 1 else 0)

/-- A run of 0xFF bytes and its last byte, summed, and what follows. -/
def seiNum : List Byte → Option (Nat × List Byte)
  | [] => none
  | b :: bs => if b == 0xFF then (seiNum bs).map (fun p => (p.1 + 255, p.2)) else some (b.toNat, bs)

/-- Whether an SEI payload holds a message of type 6, with `fuel` messages at most. -/
def seiRecovery : Nat → List Byte → Bool
  | 0, _ => false
  | f + 1, d =>
    match seiNum d with
    | none => false
    | some (t, r) =>
      match seiNum r with
      | none => false
      | some (n, r) => t == 6 || seiRecovery f (r.drop n)

/-- What R182 finds in an access unit so far: random-access point, recovery point, and whether a VCL NAL unit was seen. -/
structure AuClass where
  rap : Bool
  recov : Bool
  vcl : Bool

def classify (h264 : Bool) (d : List Byte) : AuClass :=
  ((nalUnits d 0 []).drop 1).foldl (fun c n =>
    match n with
    | [] => c
    | b :: rest =>
      let t := if h264 then b.toNat % 32 else b.toNat / 2 % 64
      if h264 then
        if 1 ≤ t && t ≤ 5 then { c with rap := c.rap || t == 5, vcl := true }
        else if t == 6 && !c.vcl then { c with recov := c.recov || seiRecovery rest.length (unescape rest 0) }
        else c
      else if t < 32 then { c with rap := c.rap || (!c.vcl && 16 ≤ t && t ≤ 21), vcl := true }
      else if t == 39 && !c.vcl then { c with recov := c.recov || seiRecovery rest.length (unescape (rest.drop 1) 0) }
      else c) ⟨false, false, false⟩

/-! ### Marks (R463) -/

/-- A mark is compared with the local index entry, where that holds its number, read as master 0x5F; a poisoned entry is compared with
nothing. -/
def State.markCompare (s : State) (i : Nat) (k : Mark) : State :=
  if s.role = 0 || s.role = 4 then s
  else
    let r := s.read 0x5F (s.idxEntry i k.num) 32
    let e := r.data
    if r.poisoned then r.noted 0x5F (s.idxEntry i k.num) 7
    else if r.bus || leNat (e.take 8) ≠ k.num then r.st
    else if slice e 16 12 == k.capture && (leNat (slice e 28 1) / 32 % 2 == 1) == k.noTime && leNat (slice e 12 4) == k.len then r.st
    else r.st.orFld F.STEP_ERR_ERR 8

/-- The comparison of a mark; it waits for a frequency change to end where the index lies in DRAM (R355). -/
def State.markCheck (s : State) (i : Nat) (k : Mark) : State :=
  if s.region (s.idxEntry i k.num) = .dram ∧ s.fc.stage = .change then s.defer (.mark i k) else s.markCompare i k

/-- The chip's own mark of an access unit classified under R182. -/
def State.markSend (s : State) (i a : Nat) (u : AuRx) : State :=
  s.stepSend ⟨0x64, 1, 0, leBytes 1 i ++ leBytes 1 (u.flags / 4 % 2) ++ leBytes 6 0 ++ leBytes 8 a ++ u.capture ++ leBytes 4 u.len, none⟩

/-! ### Join assist (R468) -/

def State.joinArmed (s : State) (i : Nat) : Bool := s.bitAt (F.STEP_JOIN_ARM (i / 32)) (i % 32)

/-- The STEP block sets DEC_CTX_NEXT and EN in one clock. -/
def State.joinAlign (s : State) (i next : Nat) : State :=
  (((s.setCtxNext i next).setBit (F.DEC_CTX_CTL_EN i) true).updDc i
    (fun c => { c with joining := true, newest := 0, started := false })).setCtxState i 1

/-- An AU_START of an armed context: counted, kept, and aligned when a held mark of an ACTIVE partner carries its time. -/
def State.joinStart (s : State) (i : Nat) (capture : List Byte) (noTime : Bool) : State :=
  if !s.joinArmed i then s
  else
    let s := s.updDc i (fun c =>
      { c with joinJ := c.joinJ + 1
               joinKept := (c.joinKept ++ [(if noTime then [] else capture, c.joinJ + 1)]).drop (c.joinKept.length + 1 - 8) })
    if noTime || s.ctxState i ≠ 0 then s
    else match (s.dc i).marks.find? (fun k => k.fromActive && !k.noTime && k.capture == capture) with
      | some k => s.joinAlign i k.num
      | none => s

/-- The context of an armed join starts at arrival number `a`. -/
def State.joinDone (s : State) (i a : Nat) : State :=
  if !s.joinArmed i then s
  else
    let s := (s.setReg64 (R.DEC_CTX_DONE_LO i) (R.DEC_CTX_DONE_HI i) (a - 1)).putBitAt (F.STEP_JOIN_ARM (i / 32)) (i % 32) false
    (s.setBit F.STEP_STATUS_JOIN_PENDING ((List.range 4).any (fun k => s.fld (F.STEP_JOIN_ARM k) ≠ 0))).updRetain i

/-- R189, R468: an access unit that a JOINING context discards; while the join is armed, DEC_CTX_NEXT counts it. It was the next access
unit after a cut (R151). -/
def State.joinSkip (s : State) (i : Nat) : State :=
  let s := s.updDc i (fun c => { c with discont := false })
  if s.joinArmed i then s.setCtxNext i (s.ctxNext i + 1) else s

/-! ### Arrival (R187 to R192) -/

/-- The access unit takes its arrival number, and its room in the ring and its index slot are judged against what is retained (R187, R192). -/
def State.auNumber (s : State) (i : Nat) (u : AuRx) : State × AuRx :=
  let a := s.ctxNext i
  let s := s.setCtxNext i (a + 1)
  let c := s.dc i
  let used := (c.aus.map (·.size)).foldl (· + ·) 0
  let need := ceilDiv u.len 32 * 32
  let slot := !(c.aus.any (fun r => decide (r.num < a) && (a - r.num) % 256 == 0))
  let fits := decide (used + need ≤ s.bsSize i) && slot
  let s := if fits then s else (s.bump (F.DEC_CTX_DROP_COUNT i)).ctxErr i 4
  let u := { u with num := some a, off := c.wr, room := fits, slot := slot, flags := if c.discont then u.flags ||| 2 else u.flags }
  (s.updDc i (fun c => { c with discont := false, wr := if fits then (c.wr + need) % max 1 (s.bsSize i) else c.wr,
                                aus := if fits then c.aus ++ [⟨a, need, false, false⟩] else c.aus }), u)

/-- R187: the bytes that have arrived go into the ring in whole code words, at the end the last of them padded with zeros. -/
def State.auStore (s : State) (q : Nat) (u : AuRx) (last : Bool) : State × AuRx :=
  if u.num.isNone || !u.room then (s, u)
  else
    let d := u.data.take (ceilDiv u.len 32 * 32)
    let k := if last then ceilDiv d.length 32 * 32 else d.length / 32 * 32
    (s.ringWrite (0x30 + q) (s.bsBase u.ctx) (s.bsSize u.ctx) (u.off + u.put) (slice (d.drop u.put) 0 (k - u.put)), { u with put := max u.put k })

/-- R188: the index entry of a finished access unit. -/
def AuRx.entry (u : AuRx) (a : Nat) (complete : Bool) : List Byte :=
  leBytes 8 a ++ leBytes 4 u.off ++ leBytes 4 u.len ++ u.capture ++
    leBytes 1 (complete.toNat + 2 * (!complete).toNat + 4 * u.rap.toNat + 8 * u.recov.toNat + 16 * (u.flags / 2 % 2) +
      32 * (u.flags / 4 % 2) + 64 * (u.flags % 2)) ++ leBytes 3 0

/-- The access unit completes or fails (R151, R187 step 3, R192). One that a JOINING context discards counts as no drop, and one cut off
before it was classified is discarded too (R189, R468). -/
def State.auEnd (s : State) (q : Nat) (u : AuRx) (good : Bool) : State :=
  let i := u.ctx
  let s := if good || u.num.isNone then s else s.linkDrop q
  let s := if u.num.isNone && !u.dropped then s.joinSkip i else s
  let s := if good then s else s.updDc i (fun c => { c with discont := true })
  match u.num with
  | none => s
  | some a =>
    let complete := good && u.room
    let need := ceilDiv u.len 32 * 32
    let s := (s.auStore q u true).1
    let s := if u.slot then (s.write (0x30 + q) (s.idxEntry i a) (u.entry a complete) false false).1 else s
    let s := s.updDc i (fun c =>
      if complete then
        { c with aus := c.aus.map (fun r => if r.num == a then { r with cls := u.rap || u.recov, complete := true } else r),
                 newest := max c.newest a }
      else { c with wr := if u.room then (c.wr + s.bsSize i - need % max 1 (s.bsSize i)) % max 1 (s.bsSize i) else c.wr,
                    aus := c.aus.filter (fun r => r.num != a) ++ (if u.slot then [⟨a, 0, false, false⟩] else []) })
    let s := ((s.dc i).marks.filter (fun k => k.num == a)).foldl (fun s k => s.markCheck i k) s
    (s.updRetain i).decSched (s.ctxEngine i)

/-- AU_START of context `i` on quad `q` (R151, R187, R189). An AU_LEN outside the range of R150 is taken as it stands (DESIGN CHOICE, log
entry 48). -/
def State.auStart (s : State) (q i len flags : Nat) (capture : List Byte) : State :=
  if 127 < i then s.protoErr q
  else
    let s := match (s.link q).aus.find? (fun u => u.ctx == i) with
      | some u => (s.updLink q (fun l => { l with aus := l.aus.filter (fun x => x.ctx != i) })).auEnd q u false
      | none => s
    let s := s.joinStart i capture (flags / 4 % 2 == 1)
    if !s.bit (F.DEC_CTX_CTL_EN i) then s
    else
      let u : AuRx := { ctx := i, num := none, len := len, flags := flags, capture := capture, off := 0, room := false, slot := false,
                        data := [], put := 0, rap := false, recov := false, decided := false, dropped := false }
      let p := if (s.dc i).joining then (s, u) else s.auNumber i u
      p.1.updLink q (fun l => { l with aus := l.aus ++ [p.2] })

/-- A joining context meets an access unit that R182 classifies, or discards it (R189, R206, R468). -/
def State.joinDecide (s : State) (i : Nat) (u : AuRx) : State × AuRx :=
  if u.rap || u.recov then
    let a := s.ctxNext i
    let p := s.auNumber i u
    let t := p.1.updDc i (fun c => { c with joining := false })
    let t := if t.ctxState i = 1 then t.setCtxState i (if (t.de (t.ctxEngine i)).queue.any (fun j => j.ctx == i) then 3 else 2) else t
    (t.joinDone i a, p.2)
  else (s.joinSkip i, { u with dropped := true })

/-- AU_DATA of context `i` (R150, R151, R182, R187): the class is settled by the first VCL NAL unit, but that an H.264 access unit may still
show one of type 5. -/
def State.auData (s : State) (q i : Nat) (final : Bool) (d : List Byte) : State :=
  match (s.link q).aus.find? (fun u => u.ctx == i) with
  | none => s.linkDrop q
  | some u =>
    let u := { u with data := u.data ++ d }
    let h264 := s.bit (F.DEC_CTX_CTL_CODEC i)
    let k := classify h264 u.data
    let sure := k.vcl && (k.rap || k.recov || !h264)
    let first := (sure || final) && !u.decided && !u.dropped
    let u := if u.dropped then u else { u with rap := k.rap, recov := k.recov, decided := u.decided || sure }
    let p := if first && u.num.isNone then s.joinDecide i u else (s, u)
    let s := p.1
    let u := p.2
    let s := if first && (u.rap || u.recov) then (match u.num with
        | some a => s.markSend i a u
        | none => s) else s
    if final then
      (s.updLink q (fun l => { l with aus := l.aus.filter (fun x => x.ctx != i) })).auEnd q u
        (u.data.length == u.len)
    else
      let p := s.auStore q u false
      let s := p.1
      let u := p.2
      s.updLink q (fun l => { l with aus := l.aus.map (fun x => if x.ctx == i then u else x) })

/-- A partner's mark is kept, compared with the entry it names, and may align an armed context (R463, R468). -/
def State.markReceived (s : State) (i : Nat) (k : Mark) : State :=
  let s := s.updDc i (fun c => { c with marks := (c.marks ++ [k]).drop (c.marks.length + 1 - 4) })
  let s := s.markCheck i k
  if s.joinArmed i && s.ctxState i = 0 && k.fromActive && !k.noTime then
    match (s.dc i).joinKept.reverse.find? (fun p => p.1 == k.capture) with
    | some p => s.joinAlign i (k.num + (s.dc i).joinJ - p.2)
    | none => s
  else s

end Sys2Proof.Machine
end

