-- ==== Sys2Proof/Machine/DecEngine.lean ====
section
/-!
DEFINITION. Decode engines at work (R179 to R186, R193 to R212, R552): what becomes of an access unit, taint and recovery, display
entries, retirement, rebinding, and the engine and context registers.
Readings and choices beyond the spec's plain words: log entries 13, 49 and 50.
-/
namespace Sys2Proof.Machine

/-! ### The sequence (R179, R180, R197) -/

/-- R179 but for the pool rule. -/
def spsSupported (h264 : Bool) (p : DecSps) : Bool :=
  (if h264 then p.profile == 100 || p.profile == 110 || p.profile == 77 || (p.profile == 66 && p.compat)
   else p.profile == 1 || p.profile == 2 || p.compat) &&
    (if h264 then p.level ≤ 52 else p.level ≤ 153) && p.chroma == 1 && 8 ≤ p.depthL && p.depthL ≤ 10 && 8 ≤ p.depthC && p.depthC ≤ 10 && p.frames
def spsTen (p : DecSps) : Bool := decide (8 < p.depthL) || decide (8 < p.depthC)
def spsBps (p : DecSps) : Nat := if spsTen p then 2 else 1
/-- R197. -/
def State.poolOk (s : State) (i : Nat) (p : DecSps) : Bool :=
  decide (p.w * spsBps p ≤ s.poolPitch i) && decide (p.h * s.poolPitch i ≤ s.poolLuma i) &&
    decide (s.poolLuma i + ceilDiv p.h 2 * s.poolPitch i ≤ s.poolStride i) && decide (p.dpb + s.poolHold i + 1 ≤ s.poolCount i)

/-! ### The decoded picture buffer (R198, R202) -/

/-- How a reference picture is named: by POC in H.265, by frame_num in H.264. -/
def picKey (h264 : Bool) (poc : Int) (frameNum : Nat) : Int := if h264 then frameNum else poc
def PicInfo.key (x : PicInfo) (h264 : Bool) : Int := picKey h264 x.poc x.frameNum

/-- A substitute picture has the sequence's size, every sample of it mid-grey (R202). -/
def substitute (p : DecSps) (key : Int) : SubPic := ⟨key, p.w, p.h, if spsTen p then 512 else 128, false⟩

/-- The pictures held, the substitutes held, and the pictures output, in order. -/
structure Dpb where
  pics : List PicInfo
  subs : List SubPic
  out : List PicInfo

/-- The first picture in output order of those that wait. -/
def nextOut (l : List PicInfo) : Option PicInfo :=
  (l.filter (·.wait)).foldl (fun (b : Option PicInfo) x => match b with
    | none => some x
    | some y => if x.poc < y.poc then some x else b) none
/-- Pictures that are neither waiting nor used for reference leave. -/
def Dpb.tidy (d : Dpb) : Dpb := { d with pics := d.pics.filter (fun x => x.ref || x.wait) }
/-- The bumping process: the first picture in output order is output. -/
def Dpb.bump (d : Dpb) : Dpb :=
  match nextOut d.pics with
  | none => d
  | some x => ({ d with pics := d.pics.map (fun y => if y.num == x.num then { y with wait := false } else y), out := d.out ++ [x] } : Dpb).tidy
/-- Bumping while `c` holds and a picture waits. -/
def Dpb.bumpWhile (c : Dpb → Bool) : Nat → Dpb → Dpb
  | 0, d => d
  | f + 1, d => if c d && d.pics.any (·.wait) then bumpWhile c f d.bump else d

/-- H.265's limits on the pictures that wait. -/
def tooMany (p : DecSps) (d : Dpb) : Bool :=
  decide (p.reorder < (d.pics.filter (·.wait)).length) ||
    (decide (p.latency ≠ 0) && d.pics.any (fun x => x.wait && decide (p.latency ≤ x.late)))
def dpbFull (p : DecSps) (d : Dpb) : Bool := decide (p.dpb ≤ d.pics.length + d.subs.length)

/-- What the headers `x` of a picture do to the buffer before the picture enters it (R198): a sequence that begins empties it, with output of what
waits unless the stream says otherwise; else references no longer needed are unmarked, required ones that are not held are replaced by
substitutes, and pictures are bumped until there is room. `start` that the picture begins a sequence. -/
def dpbBefore (h264 start : Bool) (p : DecSps) (x : AuHeads) (pics : List PicInfo) (subs : List SubPic) : Dpb :=
  let d : Dpb := ⟨pics, subs, []⟩
  if start then
    if x.dropPrior || (!h264 && !x.idr) then ⟨[], [], []⟩
    else ⟨[], [], (d.bumpWhile (fun _ => true) pics.length).out⟩
  else
    let kept (k : Int) : Bool := x.needs.contains k || x.keep.contains k
    let pics := pics.map (fun y => { y with ref := y.ref && kept (y.key h264) })
    let subs := subs.filter (fun y => kept y.key)
    let lost := (x.needs.filter (fun k => !pics.any (fun y => y.ref && y.key h264 == k) && !subs.any (·.key == k))).eraseDups
    let d := (⟨pics, subs ++ lost.map (substitute p), []⟩ : Dpb).tidy
    if h264 then d else d.bumpWhile (fun d => tooMany p d || dpbFull p d) pics.length

/-- memory_management_control_operation 5 empties the buffer after the picture's references have been used: what waits is output (R198). -/
def dpbClear (x : AuHeads) (d : Dpb) : Dpb :=
  if x.memReset then ⟨[], [], (d.bumpWhile (fun _ => true) d.pics.length).out⟩ else d

/-- Picture `n` enters the buffer: in H.264 after bumping for room, unless it is output at once. -/
def dpbEnter (h264 : Bool) (p : DecSps) (n : PicInfo) (d : Dpb) : Dpb :=
  if h264 then
    let last (d : Dpb) : Bool := !n.ref && n.wait && d.pics.all (fun x => !x.wait || decide (n.poc < x.poc))
    let d := d.bumpWhile (fun d => dpbFull p d && !last d) d.pics.length
    if !n.ref && !n.wait then d
    else if dpbFull p d && last d then { d with out := d.out ++ [n] }
    else { d with pics := d.pics ++ [n] }
  else
    let pics := if n.wait then d.pics.map (fun x => if x.wait && decide (n.poc < x.poc) then { x with late := x.late + 1 } else x) else d.pics
    ({ d with pics := pics ++ [n] } : Dpb).bumpWhile (tooMany p) (pics.length + 1)

/-! ### Samples (R180, R197, R203) -/

/-- `n` values of a list from `o`, zeros beyond its end. -/
def slice0 (l : List Nat) (o n : Nat) : List Nat := ((l.drop o).take n) ++ List.replicate (n - (l.drop o).length) 0

/-- Row `y` of a plane as it is stored: the coded samples shifted left by `sh`; those in `holes` taken from the row at `prev`, or mid-grey. The
result tells whether the row fetched for them met poison. -/
def State.decRow (s : State) (m : Nat) (p : DecSps) (src : List Nat) (chroma : Bool) (sh : Nat) (holes : List Rect) (prev : Option Nat) (y : Nat) :
    State × List Nat × Bool :=
  let hole (x : Nat) : Bool := holes.any (fun r => if chroma then r.has (x / 2 * 2) (2 * y) else r.has x y)
  let xs := List.range p.w
  let own := (slice0 src (y * p.w) p.w).map (· * 2 ^ sh)
  let fill (f : Nat → Nat) : List Nat := (own.zip xs).map (fun e => if hole e.2 then f e.2 else e.1)
  if !xs.any hole then (s, own, false)
  else match prev with
    | none => (s, fill (fun _ => if spsTen p then 512 else 128), false)
    | some a =>
      let n := p.w * spsBps p
      let r := s.read m a n
      let d := r.dmaBytes a n
      (r.noted m a 4, fill (fun x => leNat (slice d (x * spsBps p) (spsBps p))), r.poisoned)
/-- The rows of a plane, the previous picture's plane beginning at `prev` with rows `pitch` bytes apart. -/
def State.decPlane (s : State) (m : Nat) (p : DecSps) (src : List Nat) (chroma : Bool) (sh pitch : Nat) (holes : List Rect) (prev : Option Nat) :
    State × List (List Nat) × Bool :=
  (List.range (if chroma then ceilDiv p.h 2 else p.h)).foldl (fun (q : State × List (List Nat) × Bool) y =>
    let r := q.1.decRow m p src chroma sh holes (prev.map (· + y * pitch)) y
    (r.1, q.2.1 ++ [r.2.1], q.2.2 || r.2.2)) (s, [], false)

/-- Rows of samples written to a plane; a refused write keeps none of the others back (R395). -/
def State.writePlane (s : State) (m base pitch bps : Nat) (rows : List (List Nat)) : State :=
  (rows.zip (List.range rows.length)).foldl (fun s e =>
    let d := padWords (base + e.2 * pitch) (e.1.flatMap (leBytes bps))
    (s.writeEach m (d.length + 1) (base + e.2 * pitch) d).1) s

/-! ### Display entries (R198, R199, R200) -/

/-- Entry `a` from what it names. -/
def dtStamp (a : Nat) (rep disc : Bool) (e : List Byte) : List Byte :=
  let fl := leNat (slice e 25 1) % 16 + leNat (slice e 25 1) / 32 % 2 * 32 + leNat (slice e 25 1) / 128 * 128
  overlay (overlay e 0 (leBytes 6 a)) 25 (leBytes 1 (fl + disc.toNat * 16 + rep.toNat * 64))
/-- An entry without a picture. -/
def noPicture (tainted : Bool) : List Byte := List.replicate 24 0 ++ [0xFF] ++ leBytes 1 (2 * tainted.toNat) ++ List.replicate 6 0

/-- The engine writes display entry `a` and counts it. -/
def State.putEntry (s : State) (n i a : Nat) (e : List Byte) : State :=
  let s := (s.write (0x10 + n) (s.dtEntry i a) e false false).1
  let s := ((s.bump (F.DEC_CTX_PICS_COUNT i)).bump (F.DEC_ENG_PICS_COUNT n)).tele 0x0D n
  s.updDc i (fun c => { c with shown := (c.shown ++ [if dtFlag e 0 then dtBuf e else 0xFF]).drop (c.shown.length + 1 - s.poolHold i) })

/-! ### Decoding a picture (R201 to R205) -/

/-- The engine reads `n` bytes of a ring; the result tells whether a code word of them was poisoned or did not answer. -/
def State.ringRead (s : State) (m base size o n : Nat) : State × List Byte × Bool :=
  let k := min n (size - o)
  let r := s.read m (base + o) k
  let s := r.noted m (base + o) 4
  if n = k then (s, r.data, r.poisoned || r.bus)
  else
    let t := s.read m base (n - k)
    (t.noted m base 4, r.data ++ t.data, r.poisoned || r.bus || t.poisoned || t.bus)

/-- The fetches of the references `refs` (picture, offset, bytes) from their buffers; which of them meet poison. -/
def State.refsRead (s : State) (m i : Nat) (h264 : Bool) (pics : List PicInfo) (refs : List (Int × Nat × Nat)) : State × List Nat :=
  (refs.zip (List.range refs.length)).foldl (fun p f =>
    match pics.find? (fun x => x.ref && x.key h264 == f.1.1) with
    | none => p
    | some x =>
      let a := p.1.poolBuf i x.buf + f.1.2.1
      let r := p.1.read m a f.1.2.2
      (r.noted m a 4, if r.poisoned then p.2 ++ [f.2] else p.2)) (s, [])

/-- R205: the recovery points awaited after access unit `a` with headers `x`; with it, the earliest SEI picture whose recovery point `a` is, with
no damage on the way. Of several H.264 pictures with the frame_num named, the first in decode order is the recovery point, also one not used
for reference (DESIGN CHOICE, log entry 50). `fresh` that the picture begins a sequence, or is an undamaged random-access point. -/
def recoverStep (h264 : Bool) (l : List Recovery) (a : Nat) (x : AuHeads) (fresh recov damaged : Bool) : List Recovery × Option Nat :=
  let l := (if fresh then [] else l) ++
    (if recov then [⟨a, if h264 then ((x.frameNum : Int) + x.recovery) % max 1 x.maxFrameNum else x.poc + x.recovery, true⟩] else [])
  let l := if damaged then l.map (fun r => { r with clean := false }) else l
  let here (r : Recovery) : Bool := r.target == picKey h264 x.poc x.frameNum
  (l.filter (fun r => !here r), ((l.filter (fun r => here r && r.clean)).map (·.num)).min?)

/-- The access units from the latest random-access point on; for a RASL picture, from the one before it. -/
def auSpan (l : List AuIn) (before : Bool) : List AuIn :=
  let raps := ((l.zip (List.range l.length)).filter (fun p => p.1.rap)).map (·.2)
  l.drop ((raps.drop (raps.length - (if before then 2 else 1))).headD 0)

/-- Access unit `a` with index entry `e` and headers `x`, the last of `hist`, is decoded on engine `n` by a job of tick `tick` with the sequence
`p`; `start` that it begins a sequence. Headers that do not parse mark and require nothing. Answers
whether a picture was output. -/
def State.decodePic (s : State) (n i a tick : Nat) (e : List Byte) (x : AuHeads) (p : DecSps) (hist : List AuIn) (start : Bool) : State × Bool :=
  let m := 0x10 + n
  let h264 := s.bit (F.DEC_CTX_CTL_CODEC i)
  let fl := leNat (slice e 28 1)
  let rap := bits fl 2 2 == 1
  let dead := (hist.getLast?.map (·.dead)).getD false
  let whole := dead || !x.parses
  let c := s.dc i
  let d := dpbBefore h264 start p x c.pics c.subs
  -- samples
  let span' := auSpan hist x.rasl
  let subs := d.subs.map (fun y => { y with used := false })
  let r0 := Config.auPicture h264 subs span'
  let rf := if whole then (s, []) else s.refsRead m i h264 d.pics r0.fetches
  let hist := if rf.2.isEmpty then hist else hist.dropLast ++ (hist.getLast?.map (fun u => { u with spoilt := rf.2 })).toList
  let r := if rf.2.isEmpty then r0 else Config.auPicture h264 subs (auSpan hist x.rasl)
  let s := rf.1
  let damaged := whole || !r.holes.isEmpty
  let prev := if rap then none else c.prev.map (s.poolBuf i)
  let holes : List Rect := if whole then [⟨0, 0, p.w, p.h⟩] else r.holes.map (fun h => ⟨h.1, h.2.1, h.2.2.1, h.2.2.2⟩)
  let pitch := s.poolPitch i
  let lum := s.decPlane m p r.luma false (if spsTen p then 10 - p.depthL else 0) pitch holes prev
  let chr := lum.1.decPlane m p r.chroma true (if spsTen p then 10 - p.depthC else 0) pitch holes (prev.map (· + s.poolLuma i))
  let s := chr.1
  let struck := !rf.2.isEmpty || lum.2.2 || chr.2.2
  let buf := (s.de n).buf
  -- errors
  let s := if damaged then s.ctxErr i 0 else s
  let from' (k : Int) : Bool := !whole && r.sources.contains k
  let s := if d.subs.any (fun y => !y.used && from' y.key) then s.ctxErr i 1 else s
  let d : Dpb := { d with subs := d.subs.map (fun (y : SubPic) => { y with used := y.used || from' y.key }) }
  let s := if dead || struck then s.ctxErr i 2 else s
  -- taint
  let poison := struck || (c.poison && !(rap && !damaged))
  let rec' := recoverStep h264 c.seis a x (start || (rap && !damaged)) (bits fl 3 3 == 1) damaged
  let excuse (y : PicInfo) : PicInfo := match rec'.2 with
    | some k => if k ≤ y.num then { y with excused := true } else y
    | none => y
  let pics := d.pics.map excuse
  let recPoc := if rec'.2.isSome then some x.poc else if start || x.memReset then none else c.recPoc
  let before := match recPoc with
    | some v => decide (x.poc < v)
    | none => false
  let dirty := r.sources.any (fun k => d.subs.any (·.key == k) ||
    pics.any (fun y => y.ref && y.key h264 == k && y.tainted && !(y.excused && !before)))
  let tainted := damaged || poison || (!whole && dirty)
  -- what is stored
  let s := s.writePlane m (s.poolBuf i buf) pitch (spsBps p) lum.2.1
  let s := s.writePlane m (s.poolBuf i buf + s.poolLuma i) pitch (spsBps p) chr.2.1
  let crc := crc32c (((lum.2.1.drop p.top).take p.ch).flatMap (fun row => ((row.drop p.left).take p.cw).flatMap (leBytes (spsBps p))))
  let timed := bits fl 5 5 == 1
  let flags := 1 + 2 * tainted.toNat + 4 * damaged.toNat + 8 * timed.toNat + 32 * poison.toNat + 128 * (spsTen p).toNat
  let entry := leBytes 6 0 ++ leBytes 2 p.left ++ (if timed then leBytes 12 tick else slice e 16 12) ++ leBytes 4 crc ++ leBytes 1 buf ++
    leBytes 1 flags ++ leBytes 2 p.top ++ leBytes 2 p.cw ++ leBytes 2 p.ch
  let new : PicInfo := { buf := buf, num := a, entry := entry, tainted := tainted, excused := false, poc := x.poc,
                         frameNum := if x.memReset then 0 else x.frameNum,
                         ref := x.ref || !h264, wait := x.output }
  let d := dpbEnter h264 p new (dpbClear x { d with pics := pics })
  let s := s.updDc i (fun c => { c with
    pics := d.pics, subs := d.subs, prev := some buf, poison := poison, seis := rec'.1, recPoc := recPoc, sps := some p, hist := hist,
    noRasl := if x.irap && !whole then start else c.noRasl,
    lastOut := match d.out.getLast? with
      | some y => some y.entry
      | none => c.lastOut })
  (s.setBit (F.DEC_CTX_STATUS_TAINT i) tainted, !d.out.isEmpty)

/-- R186: engine time of a picture of `l` luma samples and `bytes` bytes, in ns. -/
def engineNs (l bytes : Nat) : Nat := max (2 * l) (ceilDiv (80 * bytes) 3)
/-- Luma samples as R186 counts them: whole macroblocks in H.264. -/
def spsLuma (h264 : Bool) (p : DecSps) : Nat := if h264 then ceilDiv p.w 16 * 16 * (ceilDiv p.h 16 * 16) else p.w * p.h

/-- R501: codec engines take twice the time at D3. -/
def State.codecTime (s : State) (ns : Nat) : Nat := if s.pwr.clkPoint = 3 then 2 * ns else ns
/-- µs of an engine's time show in its BUSY register (R211). -/
def State.decBusy (s : State) (n ns : Nat) : State :=
  let t := (s.de n).busyNs + ns
  (s.updDe n (fun e => { e with busyNs := t })).setFld (F.DEC_ENG_BUSY_COUNT n) (min (2 ^ 32 - 1) (t / 1000))
/-- An engine's time runs on by `ns` for context `i` (R186, R211). -/
def State.decTime (s : State) (n i ns : Nat) : State :=
  let e := s.de n
  (s.decBusy n (s.codecTime (ns + (if e.last.isSome && e.last ≠ some i then 20000 else 0)))).updDe n (fun e => { e with last := some i })

/-- The state and error of its sequence where the headers of an access unit that is to be decoded say `x` (`parsed` that they parse), with `hist`
the units up to it: answers as `decHere`. A sequence that is not supported is left at the next random-access point whose headers name one that
is. -/
def State.decWith (s : State) (n i a tick : Nat) (e : List Byte) (hist : List AuIn) (parsed : Bool) (x : AuHeads) : State × Option Bool :=
  let h264 := s.bit (F.DEC_CTX_CTL_CODEC i)
  let c := s.dc i
  let first := !c.started || c.unsup
  let x := if parsed then x else { x with irap := false, idr := false, memReset := false, needs := [], keep := c.pics.map (·.key h264) }
  let ok := spsSupported h264 x.sps
  let pool := s.poolOk i x.sps
  let start := x.idr || (x.irap && (first || x.afterEnd))
  if parsed && !(ok && pool) then
    ((s.ctxErr i (if ok then 6 else 5)).updDc i (fun c => { c with unsup := true }), none)
  else if c.unsup && !parsed then (if (hist.getLast?.map (·.dead)).getD false then s.ctxErr i 2 else s, none)
  else
    let s := if first then
        s.updDc i (fun c => { c with unsup := false, started := true, prev := none, lastOut := none, seis := [], poison := false,
                                     pics := [], subs := [], recPoc := none, sps := none, noRasl := false })
      else s
    if parsed && x.rasl && (s.dc i).noRasl then (s.updDc i (fun c => { c with hist := hist }), some false)
    else
      let none' : DecSps := { x.sps with w := 0, h := 0, left := 0, top := 0, cw := 0, ch := 0 }
      let p := if parsed then x.sps else (s.dc i).sps.getD (if ok && pool then x.sps else none')
      let s := s.decTime n i (engineNs (spsLuma h264 p) (leNat (slice e 12 4)))
      let q := s.decodePic n i a tick e x p hist start
      (q.1, some q.2)

/-- What becomes of a COMPLETE access unit (R181, R552): `none` where it is not decoded, else whether a picture was output. -/
def State.decHere (s : State) (n i a tick : Nat) (e : List Byte) : State × Option Bool :=
  let fl := leNat (slice e 28 1)
  if !(s.dc i).decodes fl then (s, none)
  else
    let bs := s.ringRead (0x10 + n) (s.bsBase i) (s.bsSize i) (leNat (slice e 8 4)) (leNat (slice e 12 4))
    let c := s.dc i
    let unit : AuIn := ⟨if bs.2.2 then [] else bs.2.1, false, bs.2.2, [], bits fl 2 2 == 1⟩
    let hist := (if !c.started || c.unsup then [] else auSpan c.hist (bits fl 2 2 ≠ 1)) ++ [unit]
    let x := Config.auHeads (s.bit (F.DEC_CTX_CTL_CODEC i)) (auSpan hist false)
    bs.1.decWith n i a tick e hist (!bs.2.2 && x.parses) x

/-- What R194 writes for access unit `a`: its display entry, DONE, its fence. -/
def State.auWrites (s : State) (n i a fence : Nat) (entry : List Byte) : State :=
  let s := (s.putEntry n i a entry).setReg64 (R.DEC_CTX_DONE_LO i) (R.DEC_CTX_DONE_HI i) a
  (s.writeFence (0x10 + n) fence a).1

/-- Access unit `a` leaves the engine: what R194 writes, or in a replay nothing. -/
def State.auLeaves (s : State) (n i a tick fence : Nat) : State :=
  let replaying := (s.dc i).replay.isSome
  let u := s.auState i a
  let x := s.read (0x10 + n) (s.idxEntry i a) 32
  let s := x.noted (0x10 + n) (s.idxEntry i a) 4
  match u with
  | .here e =>
    let p := s.decHere n i a tick e
    let s := p.1
    if replaying then s
    else
      let c := s.dc i
      let disc := bits (leNat (slice e 28 1)) 4 4 == 1 || c.discDue
      let s := s.updDc i (fun c => { c with discDue := false })
      s.auWrites n i a fence (match p.2, c.lastOut with
        | none, _ => dtStamp a false disc (noPicture true)
        | some new, some x => dtStamp a (!new) disc x
        | some _, none => dtStamp a false disc (noPicture false))
  | _ =>
    let s := s.updDc i (fun c => { c with seis := c.seis.map (fun r => { r with clean := false }), hist := c.hist ++ [⟨[], true, false, [], false⟩] })
    if replaying then s
    else
      let entry := match (s.dc i).lastOut with
        | some x => dtStamp a true true x
        | none => dtStamp a false true (noPicture false)
      ((s.ctxErr i 3).updDc i (fun c => { c with discDue := true })).auWrites n i a fence entry

/-- The engine has no access unit in hand. -/
def State.decIdle (s : State) (n : Nat) : State :=
  (s.updDe n (fun e => { e with cur := none })).setFlds
    [(F.DEC_ENG_STATUS_STATE n, if s.bit (F.DEC_ENG_CTL_EN n) then 1 else 0), (F.DEC_ENG_STATUS_CTX_VALID n, 0)]

/-- The engine finishes the access unit in hand (R185, R194, R208). -/
def State.auDone (s : State) (n : Nat) : State :=
  let e := s.de n
  match e.cur with
  | none => s
  | some i =>
    let ix := (e.queue.findIdx? (fun j => j.ctx == i)).getD e.queue.length
    match e.queue[ix]? with
    | none => (s.decIdle n).decSched n
    | some j =>
      let a := s.nextAu i
      let s := s.auLeaves n i a j.tick j.fence
      let s := s.decIdle n
      let s := s.updDe n (fun e => { e with turn := ix + 1 })
      let done := s.ctxDone i
      let wait (s : State) : State := if s.ctxState i = 4 || s.ctxState i = 6 then s.setCtxState i 3 else s
      let s := match (s.dc i).replay with
        | some k =>
          let s := s.updDc i (fun c => { c with replay := if done ≤ k then none else some (k + 1) })
          if done ≤ k then wait s else s
        | none => wait s
      let s := if (s.dc i).replay.isNone && decide (j.upto ≤ s.ctxDone i) then s.jobGone n ix else s
      (s.updRetain i).decSched n
/-- DEC_AU_DONE (R194): not while an access of the access unit in hand waits. -/
def execDecAuDone (n : Fin 16) (e : EngRun) (s : State) : Out :=
  .next <| s.ifRun fun s =>
    match (s.de n).cur with
    | none => s
    | some i => if s.ctxWaits i then s else (s.engineErrs e).auDone n

/-- DEC_BUFFER_FREE (R200): the engine looks at its jobs again. -/
def execDecBufferFree (i : Fin 128) (s : State) : Out :=
  .next (s.ifRun fun s => if s.bufReady i (s.nextAu i) then s.decSched (s.ctxEngine i) else s)

/-! ### Job records (R193, R196, R206) -/

/-- A record as KDEC names it. -/
def State.decJob (s : State) (i : Nat) (d : List Byte) : DecJob :=
  let fence := leNat (slice d 8 6)
  { ctx := i, upto := leNat (slice d 0 8), fence := fence, tick := leNat (slice d 16 8),
    ok := s.fenceOk fence && (slice d 14 2).all (· == 0) && (slice d 24 40).all (· == 0), clk := s.time.clk }
/-- Jobs merge into one: the highest UPTO with its fence, the lowest tick; of two with one UPTO the later gives the fence, and the job whose
fence is kept also tells whether the record is well formed (DESIGN CHOICE, log entry 50). -/
def mergeJob (b : Option DecJob) (j : DecJob) : Option DecJob :=
  match b with
  | none => some j
  | some x =>
    let t := if j.upto < x.upto then x else j
    some { t with tick := min x.tick j.tick }

/-- A job joins the queue of the context's engine (R185, R194). -/
def State.decQueue (s : State) (n : Nat) (j : DecJob) : State :=
  let s := s.updDe n (fun e => { e with queue := e.queue ++ [j] })
  let s := if s.ctxState j.ctx = 2 then s.setCtxState j.ctx 3 else s
  s.decSched n

/-! ### Retirement (R206 to R210) -/

/-- Every context bound to engine `n` becomes ORPHANED, its jobs merged; an abandoned picture's time counts (R211). -/
def State.decOrphan (s : State) (n : Nat) : State :=
  let q := (s.de n).queue
  let s := if (s.de n).cur.isSome then s.decBusy n (2 * (s.time.clk - (s.de n).since)) else s
  let s := (List.range 128).foldl (fun s i =>
    if s.bit (F.DEC_CTX_CTL_EN i) && s.ctxEngine i = n && s.ctxState i ≠ 5 then
      let s := (s.setCtxState i 5).ctxErr i 9
      (s.setFld (F.DEC_CTX_STATUS_POOL_WAIT i) 0).updDc i (fun c =>
        { c with pend := (q.filter (fun j => j.ctx == i)).foldl mergeJob c.pend, replay := none })
    else s) s
  s.updDe n (fun e => { e with queue := [], cur := none, turn := 0 })

/-- Engine `n` retires for the cause of ERR bit `cause`, 0 for a write of RETIRE. -/
def State.decRetire (s : State) (n cause : Nat) : State :=
  if s.fld (F.DEC_ENG_STATUS_STATE n) = 3 then s
  else
    let cur := (s.de n).cur
    let s := s.setBit (F.DEC_ENG_ERR_RETIRED n) true
    let s := if cause = 1 then s.setBit (F.DEC_ENG_ERR_WDOG n) true
      else if cause = 2 then s.setBit (F.DEC_ENG_ERR_PARITY n) true
      else if cause = 3 then s.setBit (F.DEC_ENG_ERR_SECDED n) true else s
    let s := s.setFlds [(F.DEC_ENG_STATUS_STATE n, 3), (F.DEC_ENG_STATUS_CTX_VALID n, 0)]
    let s := s.logHw 0x40 (0x10 + n) (leBytes 1 n ++ leBytes 1 (s.reg (R.DEC_ENG_ERR n)).toNat ++ leBytes 1 (cur.getD 0) ++
      leBytes 1 cur.isSome.toNat ++ leBytes 4 0 ++ leBytes 8 s.tickNo) false
    s.decOrphan n

/-- DEC_ENGINE_FAULT (R206): a persistent parity error, or an uncorrectable word of the engine's caches or context state (R369). -/
def execDecEngineFault (n : Fin 16) (parity : Bool) (a : BitVec 48) (s : State) : Out :=
  .next (s.ifRun fun s => if parity then (s.parity (0x10 + n) a.toNat ⟨[0], 0⟩).decRetire n 2 else s.storeUe.decRetire n 3)
/-- DEC_WDOG_EXPIRE: the picture in hand has taken LIMIT µs. -/
def execDecWdogExpire (n : Fin 16) (s : State) : Out :=
  .next <| s.ifRun fun s =>
    let l := s.fld (F.DEC_ENG_WDOG_LIMIT n)
    if l = 0 || (s.de n).cur.isNone then s
    else (s.advance ((s.de n).since + 500 * l - s.time.clk)).decRetire n 1

/-- DEC_ENG_CTL (R211). -/
def State.decEngCtl (n : Nat) (a : Admit) : State :=
  if a.st.fld (F.DEC_ENG_STATUS_STATE n) = 3 then a.st
  else
    let s := (a.plain (R.DEC_ENG_CTL n)).setFld (F.DEC_ENG_CTL_RETIRE n) 0
    if a.one (F.DEC_ENG_CTL_RETIRE n) then s.decRetire n 0
    else if s.fld (F.DEC_ENG_STATUS_STATE n) = 2 then s
    else if s.bit (F.DEC_ENG_CTL_EN n) then (s.setFld (F.DEC_ENG_STATUS_STATE n) 1).decSched n
    else s.setFld (F.DEC_ENG_STATUS_STATE n) 0
def execDecRetire (m : Mst) (n : Fin 16) (w : Word) (s : State) : Out :=
  .next (s.runReg m.toNat (R.DEC_ENG_CTL n) w.toNat (State.decEngCtl n))
def execDecEngEnable (m : Mst) (n : Fin 16) (w : Word) (s : State) : Out :=
  .next (s.runReg m.toNat (R.DEC_ENG_CTL n) w.toNat (State.decEngCtl n))

/-- The block part of an ENGINE reset (R210, R515). -/
def State.decReset (s : State) (n : Nat) : State :=
  let s := s.dropWrites (· == 0x10 + n)
  let s := if s.fld (F.DEC_ENG_STATUS_STATE n) = 3 then s else s.decOrphan n
  let regs := [R.DEC_ENG_CTL n, R.DEC_ENG_STATUS n, R.DEC_ENG_ERR n, R.DEC_ENG_IRQ_EN n, R.DEC_ENG_WDOG n, R.DEC_ENG_PICS n, R.DEC_ENG_BUSY n]
  { s with regs := s.regs.filter (fun e => !regs.contains e.1), deng := Tbl.del s.deng n }

/-! ### Context registers (R189, R208, R212) -/

/-- Enabling: the stream starts afresh; what the ring holds from the retain point on, and what the display table names, stay (R191, R200). -/
def State.ctxStart (s : State) (i : Nat) : State :=
  let join := s.bit (F.DEC_CTX_CTL_JOIN i)
  let c := s.dc i
  let s := s.setDc i { joining := join, joinJ := c.joinJ, joinKept := c.joinKept, marks := c.marks, wr := c.wr, aus := c.aus, shown := c.shown }
  ((s.setFlds [(F.DEC_CTX_STATUS_TAINT i, 0), (F.DEC_CTX_STATUS_POOL_WAIT i, 0)]).setCtxState i (if join then 1 else 2)).updRetain i
/-- Disabling: jobs go without writes; the access unit in hand is the last, and one still arriving takes no number. -/
def State.ctxStop (s : State) (i : Nat) : State :=
  let s := (List.range 16).foldl (fun s n =>
    let e := s.de n
    if e.queue.any (fun j => j.ctx == i) then
      let cur := e.cur == some i
      let first := (e.queue.findIdx? (fun j => j.ctx == i)).getD 0
      let q := (e.queue.zip (List.range e.queue.length)).filter (fun p => p.1.ctx != i || (cur && p.2 == first))
      let q := q.map (fun p => if p.1.ctx == i then { p.1 with upto := min p.1.upto (s.nextAu i) } else p.1)
      s.setDe n { e with queue := q, turn := ((e.queue.zip (List.range e.turn)).filter
        (fun p => p.1.ctx != i || (cur && p.2 == first))).length }
    else s) s
  let s := [20, 21].foldl (fun s q => s.updLink q (fun l =>
    { l with aus := l.aus.map (fun u => if u.ctx == i && u.num.isNone then { u with dropped := true } else u) })) s
  ((s.setFld (F.DEC_CTX_STATUS_POOL_WAIT i) 0).setCtxState i 0).updDc i (fun c => { c with pend := none, joining := false, newest := 0 })

/-- R208: whether a new binding to engine `n` takes effect. -/
def State.canBind (s : State) (i n : Nat) : Bool :=
  let st := s.ctxState i
  let es := s.fld (F.DEC_ENG_STATUS_STATE n)
  if st = 0 then true
  else if st = 2 then es ≠ 3
  else if st = 1 then es ≠ 3 && !(List.range 16).any (fun k => (s.de k).queue.any (fun j => j.ctx == i))
  else if st = 5 then (es = 1 || es = 2) && decide ((s.de n).queue.length < 16)
  else false

/-- An orphan takes up its work on engine `n` (R208). The job made for one without a pending job has tick 0 (DESIGN CHOICE, log entry 50). -/
def State.orphanBind (s : State) (i n : Nat) : State :=
  let c := s.dc i
  let s := s.updDc i (fun c => { c with pend := none })
  if c.joining then
    let s := s.setCtxState i 1
    match c.pend with
    | some j => s.decQueue n { j with clk := s.time.clk }
    | none => s
  else
    let done := s.ctxDone i
    let from' := s.retain i
    let j := c.pend.getD { ctx := i, upto := done, fence := 0, tick := 0, ok := true, clk := s.time.clk }
    let again := decide (from' ≤ done)
    let s := if again then
        (s.updDc i (fun c => { c with replay := some from', pics := [], subs := [], prev := none, started := false, unsup := false, poison := false,
                                      seis := [], recPoc := none, sps := none, noRasl := false, hist := [], lastOut := none })).setCtxState i 6
      else s.setCtxState i 3
    s.decQueue n { j with clk := s.time.clk }

/-- DEC_CTX_CTL_i (R208, R212). While EN is 1, a write that changes JOIN or CODEC is discarded, and a binding that the context's state does not
allow is left as it was; a refused EN stays 0, and the word's other fields are taken. -/
def State.decCtxCtl (i : Nat) (a : Admit) : State :=
  let old := a.st
  let t := a.plain (R.DEC_CTX_CTL i)
  let was := old.bit (F.DEC_CTX_CTL_EN i)
  let now := t.bit (F.DEC_CTX_CTL_EN i)
  let n := t.ctxEngine i
  let n0 := old.ctxEngine i
  if was then
    if decide (old.fld (F.DEC_CTX_CTL_JOIN i) ≠ t.fld (F.DEC_CTX_CTL_JOIN i)) || decide (old.fld (F.DEC_CTX_CTL_CODEC i) ≠ t.fld (F.DEC_CTX_CTL_CODEC i)) then
      old.ctxErr i 8
    else
      let held := n ≠ n0 && !old.canBind i n
      let t := if held then (t.setFld (F.DEC_CTX_CTL_ENGINE i) n0).ctxErr i 8 else t
      if !now then t.ctxStop i
      else if old.ctxState i = 5 && old.canBind i n then t.orphanBind i n
      else t
  else if now && (t.fld (F.DEC_CTX_BS_SIZE_SIZE i) < 16 || t.fld (F.DEC_CTX_POOL_CFG_COUNT i) < 2 || t.fld (F.DEC_ENG_STATUS_STATE n) = 3) then
    (t.setFld (F.DEC_CTX_CTL_EN i) 0).ctxErr i 8
  else if now then t.ctxStart i
  else t
def execDecCtxEnable (m : Mst) (i : Fin 128) (w : Word) (s : State) : Out :=
  .next (s.runReg m.toNat (R.DEC_CTX_CTL i) w.toNat (State.decCtxCtl i))
def execDecCtxDisable (m : Mst) (i : Fin 128) (w : Word) (s : State) : Out :=
  .next (s.runReg m.toNat (R.DEC_CTX_CTL i) w.toNat (State.decCtxCtl i))
def execDecCtxRebind (m : Mst) (i : Fin 128) (w : Word) (s : State) : Out :=
  .next (s.runReg m.toNat (R.DEC_CTX_CTL i) w.toNat (State.decCtxCtl i))
/-- The other registers of a context, which no write changes while EN is 1 (R212). A new ring holds nothing yet, and numbers given again name
nothing held. -/
def State.decCfg (i off : Nat) (a : Admit) : State :=
  let t := a.plain off
  if t.reg off = a.st.reg off then t
  else if a.st.bit (F.DEC_CTX_CTL_EN i) then a.st.ctxErr i 8
  else if off = R.DEC_CTX_BS_LO i || off = R.DEC_CTX_BS_HI i || off = R.DEC_CTX_BS_SIZE i then
    t.updDc i (fun c => { c with aus := [], wr := 0 })
  else if off = R.DEC_CTX_NEXT_LO i || off = R.DEC_CTX_NEXT_HI i then t.forgetFrom i (t.ctxNext i)
  else t

end Sys2Proof.Machine
end

