-- ==== Sys2Proof/Machine/EncSearch.lean ====
section
/-!
DEFINITION. Samples and motion search of the encode engines (R221, R224, R225): conversion of the source, the candidate list, refinement in
three stages, and the choice of a mode.
Readings and choices beyond the spec's plain words: log entries 13 and 51.
-/
namespace Sys2Proof.Machine

/-- A vector in quarter-pel luma units. -/
abbrev Vec := Int × Int
/-- The vectors of a picture's 16×16 blocks by column and row; none where a block is intra. -/
abbrev VecMap := List ((Nat × Nat) × Option Vec)

/-- The vector of a block; none where it is intra, not coded yet or outside the picture. -/
def VecMap.at (l : VecMap) (bx by' : Int) : Option Vec :=
  if bx < 0 || by' < 0 then none else (l.find? (fun e => e.1 == (bx.toNat, by'.toNat))).bind (·.2)

/-- The vectors left of, above, above and to the right of, and above and to the left of a square of `n` by `n` blocks. -/
def VecMap.near (l : VecMap) (n bx by' : Nat) : List (Option Vec) :=
  [l.at ((bx : Int) - 1) by', l.at bx ((by' : Int) - 1), l.at ((bx : Int) + n) ((by' : Int) - 1), l.at ((bx : Int) - 1) ((by' : Int) - 1)]

/-- R221: a source sample as it is coded. -/
def encSample (h264 ten : Bool) (v : Nat) : Nat :=
  if h264 then (if ten then min 255 ((v + 2) / 4) else v) else if ten then v else v * 4

/-- Whole pixels of a quarter-pel value, halves towards zero. -/
def wholePel (v : Int) : Int := v.sign * ((v.natAbs + 1) / 4 : Nat)
/-- A candidate as it is evaluated: rounded to integer-pel and clamped to ±256 by ±128 pixels. -/
def Vec.start (v : Vec) : Vec :=
  (4 * max (-256) (min 256 (wholePel v.1)), 4 * max (-128) (min 128 (wholePel v.2)))

def median3 (a b c : Int) : Int := max (min a b) (min (max a b) c)

/-- R224: the candidates of block (bx, by') in order, without those unavailable or equal to an earlier one; `prev` holds the vectors of the
previous coded picture, where an intra block counts as zero, and `g` is the job's global vector. -/
def candidates (cur prev : VecMap) (bx by' : Nat) (g : Vec) : List Vec :=
  let x : Int := bx
  let y : Int := by'
  let left := cur.at (x - 1) y
  let up := cur.at x (y - 1)
  let right := cur.at (x + 1) (y - 1)
  let corner := cur.at (x - 1) (y - 1)
  let med := match left, up, right with
    | some a, some b, some c => some (median3 a.1 b.1 c.1, median3 a.2 b.2 c.2)
    | _, _, _ => none
  let before := (prev.find? (fun e => e.1 == (bx, by'))).map (fun e => e.2.getD (0, 0))
  ([left, up, right, corner, med, before, some g, some (0, 0)].filterMap id).foldl (fun l v => if l.contains v then l else l ++ [v]) []

/-- A 16×16 block of the source: its place in the picture, the size that lies inside the picture, and its samples. -/
structure SrcBlock where
  x : Nat
  y : Nat
  w : Nat
  h : Nat
  sample : Nat → Nat → Nat

/-- The reference picture's sample at quarter-pel place (x, y), the edges repeated outwards. -/
def refSample (h264 : Bool) (ref : List Nat) (w h : Nat) (x y : Int) : Nat :=
  if x % 4 = 0 && y % 4 = 0 then
    ref.getD ((max 0 (min ((h : Int) - 1) (y / 4))).toNat * w + (max 0 (min ((w : Int) - 1) (x / 4))).toNat) 0
  else Config.subPel h264 ref w x y

/-- The sum of absolute differences of a block and the reference displaced by `v`. -/
def SrcBlock.sad (b : SrcBlock) (h264 : Bool) (ref : List Nat) (w h : Nat) (v : Vec) : Nat :=
  ((List.range b.h).flatMap (fun (j : Nat) => (List.range b.w).map (fun (i : Nat) =>
    ((b.sample i j : Int) - refSample h264 ref w h (4 * ((b.x + i : Nat) : Int) + v.1) (4 * ((b.y + j : Nat) : Int) + v.2)).natAbs))).foldl (· + ·) 0

/-- R224: SAD plus λ(QP) times the bits of the vector difference. -/
def SrcBlock.cost (b : SrcBlock) (h264 : Bool) (qp : Nat) (near : List (Option Vec)) (ref : List Nat) (w h : Nat) (v : Vec) : Nat :=
  b.sad h264 ref w h v + Config.lambda h264 qp * Config.vecBits h264 near v

/-- The earliest of the cheapest. -/
def cheapest {α : Type} (f : α → Nat) (a : α) (l : List α) : α := l.foldl (fun b x => if f x < f b then x else b) a
/-- The places around `v` at `d` quarter-pels, in raster order, without `v` itself. -/
def around (v : Vec) (d : Int) : List Vec :=
  ([(-1, -1), (0, -1), (1, -1), (-1, 0), (1, 0), (-1, 1), (0, 1), (1, 1)] : List Vec).map (fun o => (v.1 + d * o.1, v.2 + d * o.2))

/-- R225: the integer positions within ±8, then half-pels, then quarter-pels. -/
def refine (cost : Vec → Nat) (v : Vec) : Vec :=
  let all := (List.range 17).flatMap (fun (j : Nat) => (List.range 17).map (fun (i : Nat) => (v.1 + 4 * ((i : Int) - 8), v.2 + 4 * ((j : Int) - 8))))
  let whole := cheapest cost (v.1 - 32, v.2 - 32) all
  let half := cheapest cost whole (around whole 2)
  cheapest cost half (around half 1)

/-- R224, R225: the vector found for a block: of the two cheapest candidates, the earlier one winning a tie, each refined, the better. -/
def searchVec (cost : Vec → Nat) (cands : List Vec) : Vec :=
  let l := cands.map Vec.start
  let ix := List.range l.length
  let f (k : Nat) : Nat := cost (l.getD k (0, 0))
  let a := cheapest f 0 ix
  let b := match ix.filter (· != a) with
    | [] => a
    | k :: ks => cheapest f k ks
  let first := refine cost (l.getD a (0, 0))
  let second := refine cost (l.getD b (0, 0))
  if cost second < cost first then second else first

/-- A tile of the source: where it lies, its size, its samples as coded. -/
structure SrcTile where
  x : Nat
  y : Nat
  w : Nat
  h : Nat
  luma : List Nat
  chroma : List Nat

/-- R224, R225: the four 16×16 blocks of a tile in raster order: mode (0 inter, 1 skip or merge, 2 intra 16×16, 3 intra 8×8) and vector of each,
and the vectors of the frame after them. -/
def searchTile (h264 : Bool) (qp : Nat) (g : Vec) (ref : List Nat) (w h : Nat) (prev : VecMap) (coder : List Nat) (done : List EncTileOut) (t : SrcTile)
    (cur : VecMap) :
    List (Nat × Vec) × VecMap :=
  (List.range 4).foldl (fun (q : List (Nat × Vec) × VecMap) k =>
    let x := t.x + 16 * (k % 2)
    let y := t.y + 16 * (k / 2)
    if t.x + t.w ≤ x || t.y + t.h ≤ y then q
    else
      let bx := x / 16
      let by' := y / 16
      let b : SrcBlock := ⟨x, y, min 16 (t.x + t.w - x), min 16 (t.y + t.h - y), fun i j => t.luma.getD ((y - t.y + j) * t.w + (x - t.x + i)) 0⟩
      let near := q.2.near 1 bx by'
      let v := searchVec (b.cost h264 qp near ref w h) (candidates q.2 prev bx by' g)
      let modes : List (Nat × Vec) := [(0, v), (1, (Config.mergeVecs h264 16 near).headD (0, 0)), (2, (0, 0)), (3, (0, 0))]
      let src := (List.range b.h).flatMap (fun (j : Nat) => (List.range b.w).map (fun (i : Nat) => b.sample i j))
      let m := cheapest (fun m => Config.rdCost ⟨h264, qp, x, y, src, ref, done, q.1, coder, m.1, m.2⟩) (0, v) modes
      (q.1 ++ [m], q.2 ++ [((bx, by'), if m.1 ≤ 1 then some m.2 else none)])) ([], cur)

/-- R226: how a tile is coded with vector zero and no residual: the first merge candidate whose vector is zero, else inter with a difference
that gives zero; in H.264 each macroblock P_Skip where its predicted vector is zero, else P_L0_16x16. -/
def zeroModes (h264 : Bool) (t : SrcTile) (cur : VecMap) : List (Nat × Vec) :=
  let bx := t.x / 16
  let by' := t.y / 16
  if h264 then
    ((List.range 4).foldl (fun (q : List (Nat × Vec) × VecMap) k =>
      let x := bx + k % 2
      let y := by' + k / 2
      if t.w ≤ 16 * (k % 2) || t.h ≤ 16 * (k / 2) then q
      else
        let skip := ((Config.mergeVecs true 16 (q.2.near 1 x y)).headD (0, 0) == (0, 0))
        (q.1 ++ [(if skip then 1 else 0, (0, 0))], q.2 ++ [((x, y), some (0, 0))])) ([], cur)).1
  else match (Config.mergeVecs false 32 (cur.near 2 bx by')).findIdx? (· == (0, 0)) with
    | some k => [(16 + k, (0, 0))]
    | none => [(0, (0, 0))]

/-- The vectors of the blocks of a tile that is not searched: `v`, or none where it is intra. -/
def tileVecs (t : SrcTile) (v : Option Vec) : VecMap :=
  ((List.range 4).filter (fun k => decide (16 * (k % 2) < t.w) && decide (16 * (k / 2) < t.h))).map (fun k => ((t.x / 16 + k % 2, t.y / 16 + k / 2), v))

end Sys2Proof.Machine
end

