-- ==== Sys2Proof/Machine/Time.lean ====
section
/-!
DEFINITION. The time counter and its discipline (R25 to R38): loads, steps, the rate word, holdover, the timestamp FIFO and
PPS captures.
Readings and choices beyond the spec's plain words: log entries 20 and 41.
-/
namespace Sys2Proof.Machine

/-- A time, or what the device makes of one below zero. -/
def toTime (i : Int) : Nat := if 0 ≤ i then i.toNat else Config.timeBelowZero i

/-- The latch of master `m` for the register at `off`. -/
def latchKey (m off : Nat) : Nat := m * 2 ^ 32 + off
def State.setLatch (s : State) (m off : Nat) (v : Word) : State := { s with latch := Tbl.set (fun _ => 0) s.latch (latchKey m off) v }
def State.getLatch (s : State) (m off : Nat) : Word := Tbl.get (fun _ => 0) s.latch (latchKey m off)

/-- The reference point of R31. -/
def State.holdPoint (s : State) : State :=
  ({ s with time := { s.time with holdRef := s.time.clk } }).setFld F.TIME_STATUS_STATE 1

/-- TIME_LOAD (R34). -/
def State.timeLoad (a : Admit) : State :=
  let s := a.st
  if !a.one F.TIME_LOAD_LOAD then s
  else
    let v := s.reg96 R.TIME_SET_0
    if s.fld F.TIME_STATUS_STATE = 0 && v / 65536 % 2 ^ 32 ≤ 999999999 then
      (s.setNow (tripleNs v * 2 ^ 40)).setBit F.TIME_STATUS_STEP_DONE true
    else s.setBit F.TIME_STATUS_STEP_REFUSED true
def execTimeLoad (m : Mst) (w : Word) (s : State) : Out := .next (s.runReg m.toNat R.TIME_LOAD w.toNat State.timeLoad)

/-- A step, in 2^-16 ns, is added to the counter; GO clears and STEP_DONE is set (R35). -/
def State.stepAdd (s : State) (d : Int) : State :=
  ((({ s with time := { s.time with armed := none } }).setNow (toTime (s.time.now + d * 2 ^ 24)))).setFlds
    [(F.TIME_STEP_CTL_GO, 0), (F.TIME_STATUS_STEP_DONE, 1)]

/-- A write of TIME_STEP_CTL (R35). -/
def State.stepCtl (a : Admit) : State :=
  let s := a.plain R.TIME_STEP_CTL
  if !a.took F.TIME_STEP_CTL_GO then s
  else if a.one F.TIME_STEP_CTL_GO then
    let d : Int := s.stepOf (s.reg R.TIME_STEP_CTL).toNat
    if s.fld F.TIME_STATUS_STATE = 0 then s.stepAdd d
    else if s.stepTooLarge d then
      ({ s with time := { s.time with armed := none } }).setFlds [(F.TIME_STEP_CTL_GO, 0), (F.TIME_STATUS_STEP_REFUSED, 1)]
    else if s.bit F.TICK_STATUS_RUNNING then { s with time := { s.time with armed := some d } }
    else s.stepAdd d
  else { s with time := { s.time with armed := none } }
def execTimeStepArm (m : Mst) (frac : BitVec 16) (s : State) : Out :=
  .next (s.runReg m.toNat R.TIME_STEP_CTL (2 ^ 31 + frac.toNat) State.stepCtl)
def execTimeStepDisarm (m : Mst) (frac : BitVec 16) (s : State) : Out :=
  .next (s.runReg m.toNat R.TIME_STEP_CTL frac.toNat State.stepCtl)

/-- A step that waits when RUNNING becomes 0, or at the midpoint, is added (R35). -/
def State.stepDue (s : State) : State :=
  match s.time.armed with
  | some d => s.stepAdd d
  | none => s

/-- TIME_RATE (R31). -/
def State.rateWrite (a : Admit) : State :=
  let s := a.plain R.TIME_RATE
  if !a.took F.TIME_RATE_RATE then s
  else if s.bit F.TIME_CTRL_TRACK then s.holdPoint
  else { s with time := { s.time with holdRef := s.time.clk } }
def execTimeRateWrite (m : Mst) (w : Word) (s : State) : Out := .next (s.runReg m.toNat R.TIME_RATE w.toNat State.rateWrite)

/-- Whether HOLD_TIMEOUT has elapsed since the hold reference point; with 0 it never does (R29, R31). -/
def State.holdElapsed (s : State) : Bool :=
  let t := s.fld F.TIME_CTRL_HOLD_TIMEOUT
  t ≠ 0 && decide (s.time.holdRef + t * 500000 ≤ s.time.clk)
/-- R31: a HOLD_TIMEOUT that has not elapsed is TRACK, so a longer one ends HOLDOVER. -/
def State.endHoldover (s : State) : State :=
  if s.fld F.TIME_STATUS_STATE = 2 then s.setFld F.TIME_STATUS_STATE 1 else s
/-- TIME_CTRL (R29, R31). -/
def State.timeCtrl (a : Admit) : State :=
  let was := a.st.bit F.TIME_CTRL_TRACK
  let s := a.plain R.TIME_CTRL
  if !a.took F.TIME_CTRL_TRACK then s
  else if a.one F.TIME_CTRL_TRACK && !was then s.holdPoint
  else if !a.one F.TIME_CTRL_TRACK && !(was && s.bit F.TICK_CTRL_RUN) then s.setFld F.TIME_STATUS_STATE 0
  else
    let s := if a.one F.TIME_CTRL_TRACK then s else s.setFlds [(F.TIME_CTRL_TRACK, 1), (F.TICK_STATUS_CFG_REFUSED, 1)]
    if s.holdElapsed then s else s.endHoldover
def execTimeTrackWrite (m : Mst) (w : Word) (s : State) : Out := .next (s.runReg m.toNat R.TIME_CTRL w.toNat State.timeCtrl)

/-- HOLDOVER_ENTER (R31): the instant is the hold reference point plus HOLD_TIMEOUT, in REFCLK time. -/
def execHoldoverEnter (s : State) : Out :=
  .next <| s.ifRun fun s =>
    let t := s.fld F.TIME_CTRL_HOLD_TIMEOUT
    if s.fld F.TIME_STATUS_STATE = 1 && t ≠ 0 then
      (s.advance (s.time.holdRef + t * 500000 - s.time.clk)).setFld F.TIME_STATUS_STATE 2
    else s

/-- TIME_TS_POP (R32). -/
def State.tsPop (a : Admit) : State :=
  let s := a.st
  if !a.one F.TIME_TS_POP_POP then s
  else match s.time.tsFifo with
    | [] => s.setBit F.TIME_TS_INFO_VALID false
    | e :: q =>
      let s := { s with time := { s.time with tsFifo := q } }
      let s := s.setFlds [(F.TIME_STATUS_TS_LEVEL, q.length), (F.TIME_TS_INFO_SEQ_ID, e.seqId), (F.TIME_TS_INFO_MSG_TYPE, e.msgType),
        (F.TIME_TS_INFO_QUAD, e.quad), (F.TIME_TS_INFO_VALID, 1)]
      (s.setReg96 R.TIME_TS_EV_0 (triple e.ev)).setReg96 R.TIME_TS_ORG_0 (e.orgSec * 2 ^ 48 + e.orgNs * 65536)
def execTsPop (m : Mst) (w : Word) (s : State) : Out := .next (s.runReg m.toNat R.TIME_TS_POP w.toNat State.tsPop)

/-- R37: an accepted timestamp enters the FIFO; `lat` is the stated interval in 1/16 ns, the counter is the arrival sample. -/
def State.tsArrive (s : State) (quad msgType seqId lat orgSec orgNs : Nat) : State :=
  if 64 ≤ s.time.tsFifo.length then s.setBit F.TIME_STATUS_TS_OVF true
  else
    let ev := toTime ((s.time.now / 2 ^ 24 : Nat) - ((s.fld F.TIME_LINK_LAT_LAT + lat) * 4096 : Nat) : Int)
    let q := s.time.tsFifo ++ [⟨ev, seqId, msgType, quad, orgSec, orgNs⟩]
    ({ s with time := { s.time with tsFifo := q } }).setFld F.TIME_STATUS_TS_LEVEL q.length

/-- TIME_PPS_CTL: a write of 1 to EN starts the spacing rule afresh (R38). -/
def State.ppsCtl (a : Admit) : State :=
  let s := a.plain R.TIME_PPS_CTL
  if a.one F.TIME_PPS_CTL_EN then { s with time := { s.time with ppsLast := none } } else s

/-- The counter `half` half-clocks (0 or 1 ns) after the present clock, in whole ns. -/
def State.nsAfter (s : State) (half : Nat) : Nat := (s.time.now + half * s.timeInc / 2) / 2 ^ 40

/-- PPS_EDGE (R38): after `wait` ns of REFCLK time the level of PPS_IN changes. DESIGN CHOICE: the capture is the counter cut to whole ns,
the rule's resolution; LAT is subtracted from that. -/
def execPpsEdge (wait : Nat) (s : State) : Out :=
  .next <|
    let at' := max (2 * s.time.clk + wait) s.time.ppsSince
    let s := s.advance (at' / 2 - s.time.clk)
    let held := decide (100 ≤ at' - s.time.ppsSince)
    let spaced := match s.time.ppsLast with
      | none => true
      | some t => decide (500000000 ≤ at' - t)
    let rise := !s.time.ppsLevel
    let s := { s with time := { s.time with ppsLevel := rise, ppsSince := at' } }
    s.ifRun fun s =>
      if s.bit F.TIME_PPS_CTL_EN && (s.bit F.TIME_PPS_CTL_EDGE != rise) && held && spaced then
        let v := toTime ((s.nsAfter (at' % 2) * 65536 : Nat) - (s.fld F.TIME_PPS_CTL_LAT * 4096 : Nat) : Int)
        ((({ s with time := { s.time with ppsLast := some at' } }).setReg96 R.TIME_PPS_0 (triple v))).setBit F.TIME_STATUS_PPS_SEEN true
      else s

end Sys2Proof.Machine
end

