-- ==== Sys2Proof/Machine/Link.lean ====
section
/-!
DEFINITION. Barge Link in operation (R122 to R166, R550, R551): bring-up, sequence and replay, credits, idle states, and the
barges of companion, bridge and command traffic.
Readings and choices beyond the spec's plain words: log entries 43, 44 and 45.
-/
namespace Sys2Proof.Machine

/-! ### Heads mapped to a quad (R142, R166) -/

/-- The head and format in slot `k` of quad `q`: FMT 2 and 3, which no output has, act as RGB30 (R5, R143). -/
def State.slotHead (s : State) (q k : Nat) : Option (Nat × Nat) :=
  let w := (s.reg (R.BL_HEADMAP q)).toNat / 2 ^ (8 * k)
  if q < 12 && bits w 7 7 == 1 then some (bits w 4 0, if bits w 6 5 = 1 then 1 else 0) else none
/-- A head is scanning from its first latch line until it is OFF (R283, R301). -/
def State.scanning (s : State) (h : Nat) : Bool := 2 ≤ s.fld (F.HEAD_STATUS_STATE h)
def State.quadScans (s : State) (q : Nat) : Bool :=
  (List.range 3).any (fun k => match s.slotHead q k with
    | some (h, _) => s.scanning h
    | none => false)

/-! ### Discarding at FRESH (R551) -/

/-- The offset after unit `u` in its output ring. -/
def State.unitEnd (s : State) (u : EsSend) : Nat :=
  (u.off + ceilDiv u.len 32 * 32) % max 1 (s.fld (F.ENC_CTX_OUT_SIZE_SIZE u.ctx) * 4096)
def State.setOutRd (s : State) (i off : Nat) : State := s.setFld (F.ENC_CTX_OUT_RD_OFF i) (off / 32)

/-- A snapshot being sent ends with FAIL (R466, R551). -/
def State.snapSendFail (s : State) : State :=
  if s.bit F.STEP_SNAP_STAT_BUSY then
    let s := [22, 23].foldl (fun s q => s.updLink q (fun l => { l with waiting := l.waiting.filter (fun b => !(0x65 ≤ b.typ && b.typ ≤ 0x67)) })) s
    (s.setFlds [(F.STEP_SNAP_STAT_BUSY, 0), (F.STEP_SNAP_STAT_FAIL, 1)]).orFld F.STEP_ERR_ERR 32
  else s

/-- Formed barges of quad `q` are lost: the output ring moves past each unit that loses its end, the unit being sent is abandoned whole, as
is a reply, and a snapshot fails (R551). -/
def State.txLose (s : State) (q : Nat) (lost : List Barge) : State :=
  let s := lost.foldl (fun s b => match b.tag with
    | some (i, off) => if b.typ == 0x51 && 128 ≤ b.spec then s.setOutRd i off else s
    | none => s) s
  let cutUnit := lost.any (fun b => b.typ == 0x50 || b.typ == 0x51)
  let s := match (s.link q).units with
    | u :: us =>
      if cutUnit && u.started then (s.setOutRd u.ctx (s.unitEnd u)).updLink q (fun (l : LinkSt) => { l with units := us }) else s
    | [] => s
  let s := s.updLink q (fun (l : LinkSt) => { l with replyCut := l.replyCut || (l.replyOpen && lost.any (fun b => b.typ == 0x41)) })
  if lost.any (fun b => 0x65 ≤ b.typ && b.typ ≤ 0x67) then s.snapSendFail else s

/-- At a bring-up with FRESH at 1: every formed barge not acknowledged is discarded and counted, the output ring moves past each unit that
loses one, sequence and credit state start
afresh, access units and messages being received are abandoned. -/
def State.linkFresh (s : State) (q : Nat) : State :=
  let l := s.link q
  let lost := l.replay.map (·.barge) ++ l.waiting.filter (fun b => b.vc != 3) ++ l.feed.map (·.2)
  let s := (s.linkDrop q lost.length).txLose q lost
  let left := s.link q
  let s := l.aus.foldl (fun s u => s.auEnd q u false) s
  let s := s.setFlds [(F.BL_TXCRED_0_VC0 q, 0), (F.BL_TXCRED_0_VC1 q, 0), (F.BL_TXCRED_1_VC2 q, 0)]
  s.setLink q { fresh := true, txClk := l.txClk, rxClk := l.rxClk, units := left.units, slotCut := 7, idleClk := s.time.clk,
                ackClk := s.time.clk, credClk := s.time.clk, replyOpen := l.replyOpen, replyCut := left.replyCut }

/-! ### Eye scan (R175) -/

/-- A scan ends with its counts kept. -/
def State.eyeAbort (s : State) (q : Nat) : State :=
  if s.bit (F.BL_EYE_STAT_BUSY q) then
    (s.setFlds [(F.BL_EYE_STAT_BUSY q, 0), (F.BL_EYE_STAT_PAUSED q, 0), (F.BL_EYE_STAT_ABORTED q, 1)]).setTest q { s.test q with eye := none }
  else s
/-- PAUSED while the receive lane carries no data. -/
def State.eyePause (s : State) (q : Nat) (p : Bool) : State :=
  if s.bit (F.BL_EYE_STAT_BUSY q) then s.setBit (F.BL_EYE_STAT_PAUSED q) p else s

/-! ### Bring-up (R155 to R157) -/

/-- Bring-up with FRESH from CLOCK of the directions named. -/
def State.bringUp (s : State) (q : Nat) (tx rx : Bool) : State :=
  let s := (s.linkFresh q).updLink q (fun l =>
    { l with wire := [], txClk := if tx then s.time.clk else l.txClk, rxClk := if rx then s.time.clk else l.rxClk })
  s.setStates q (if tx then 1 else s.txState q) (if rx then 1 else s.rxState q)

/-- The role codes the device sends and expects on a quad (R156). -/
def roleSent (q : Nat) : Nat := if q < 12 then 8 else if q < 20 then 9 else if q < 22 then 0xA else 0xB
def roleWanted (q : Nat) : Nat := if q < 12 then 1 else if q < 20 then 2 else if q < 22 then 3 else 0xB
def State.deviceId (s : State) : Nat := (s.reg R.SYS_DEVICE_ID).toNat

/-- A retrain under R138: from the ALIGN step, whose TS rows carry CONFIG_ACK and FRESH at 0. A transmit direction that is itself in a
FRESH bring-up goes on with it. The count of consecutive replays goes on (DESIGN CHOICE, log entry 45). -/
def State.retrain (s : State) (q : Nat) : State :=
  let keep := (s.link q).fresh && decide (1 ≤ s.txState q ∧ s.txState q ≤ 3)
  let s := (s.eyeAbort q).updLink q (fun l =>
    let l : LinkSt := { l with wire := [], peerFresh := false, confGot := 0, resend := [], alignDue := false, rxClk := s.time.clk }
    if keep then l
    else
      let l : LinkSt := { l with fresh := false, confSent := 0, txClk := s.time.clk }
      if s.txState q = 0 then l else l.trainRows 1 (tsRow (s.blRate q) (roleSent q) s.deviceId false false))
  s.setStates q (if keep then s.txState q else if s.txState q = 0 then 0 else 2) (if s.rxState q = 0 then 0 else 2)

/-- A direction enters FAILED (R157). A scan samples a receive lane, so only the receive direction's entry ends it (DESIGN CHOICE, log
entry 46). -/
def State.linkFail (s : State) (q : Nat) (tx rx : Bool) : State :=
  let s := if rx then s.eyeAbort q else s
  (s.setStates q (if tx then 7 else s.txState q) (if rx then 7 else s.rxState q)).setBit (F.BL_ERR_TRAIN_FAIL q) true

/-- BL_CTRL (R155, R157, R162). A test mode applies to the directions enabled; one that is disabled ends its scan and its checkers'
lock (R167, R175), and one that is enabled lets a paused scan go on. There RETRAIN does nothing (DESIGN CHOICE, log entry 46). -/
def State.blCtrl (q : Nat) (a : Admit) : State :=
  let tx0 := a.st.bit (F.BL_CTRL_TX_EN q)
  let rx0 := a.st.bit (F.BL_CTRL_RX_EN q)
  let r0 := a.st.fld (F.BL_CTRL_RATE q)
  let s := a.plain (R.BL_CTRL q)
  let s := if (tx0 || rx0) && s.fld (F.BL_CTRL_RATE q) ≠ r0 then
      s.setFlds [(F.BL_CTRL_RATE q, r0), (F.BL_ERR_CFG q, 1)] else s
  let s := if a.one (F.BL_CTRL_CLR_CNT q) then
      s.setFlds [(F.BL_CNT_CRC_COUNT q, 0), (F.BL_CNT_REPLAY_COUNT q, 0), (F.BL_CNT_PROTO_COUNT q, 0), (F.BL_CNT_DROP_COUNT q, 0)] else s
  let tx := s.bit (F.BL_CTRL_TX_EN q)
  let rx := s.bit (F.BL_CTRL_RX_EN q)
  if s.inTest q then
    let s := (if rx0 && !rx then s.eyeAbort q else s).testSync q
    s.eyePause q (!s.eyeCounts q)
  else
    let s := if tx0 && !tx then
        ((s.txLose q ((s.link q).replay.map (·.barge))).updLink q (fun l => { l with replay := [], resend := [], wire := [] })).setStates
          q 0 (s.rxState q) else s
    let s := if rx0 && !rx then (s.eyeAbort q).setStates q (s.txState q) 0 else s
    if a.one (F.BL_CTRL_RETRAIN q) then (if tx || rx then (s.eyeAbort q).bringUp q tx rx else s)
    else if (tx && !tx0) || (rx && !rx0) then s.bringUp q (tx && !tx0) (rx && !rx0)
    else s
def execBlTxEn (m : Mst) (q : Fin 24) (w : Word) (s : State) : Out := .next (s.runReg m.toNat (R.BL_CTRL q) w.toNat (State.blCtrl q))
def execBlRxEn (m : Mst) (q : Fin 24) (w : Word) (s : State) : Out := .next (s.runReg m.toNat (R.BL_CTRL q) w.toNat (State.blCtrl q))
def execBlRateWrite (m : Mst) (q : Fin 24) (w : Word) (s : State) : Out := .next (s.runReg m.toNat (R.BL_CTRL q) w.toNat (State.blCtrl q))
def execBlRetrain (m : Mst) (q : Fin 24) (w : Word) (s : State) : Out := .next (s.runReg m.toNat (R.BL_CTRL q) w.toNat (State.blCtrl q))
def execBlClrCnt (m : Mst) (q : Fin 24) (w : Word) (s : State) : Out := .next (s.runReg m.toNat (R.BL_CTRL q) w.toNat (State.blCtrl q))

/-- BL_ALIGN_ENTER (R155 step 2): 2 µs after CLOCK. -/
def execBlAlignEnter (q : Fin 24) (s : State) : Out :=
  .next <| s.ifRun fun s =>
    let l := s.link q
    let due := (if s.txState q = 1 then [l.txClk + 1000] else []) ++ (if s.rxState q = 1 then [l.rxClk + 1000] else [])
    match due.min? with
    | none => s
    | some t =>
      let s := s.advance (t - s.time.clk)
      let tx := decide (s.txState q = 1 ∧ l.txClk + 1000 ≤ s.time.clk)
      let rx := decide (s.rxState q = 1 ∧ l.rxClk + 1000 ≤ s.time.clk)
      let s := if tx then
          s.updLink q (fun l => { l with wire := [] }.trainRows 1 (tsRow (s.blRate q) (roleSent q) s.deviceId false l.fresh)) else s
      s.setStates q (if tx then 2 else s.txState q) (if rx then 2 else s.rxState q)

/-- Both directions are ACTIVE: what is left of the byte stream's row, ALIGN with START, then the INIT CREDIT after a FRESH bring-up, or the
replay (R127, R138, R155). After a retrain the receiver discards until an ALIGN with START, after a FRESH bring-up it accepts at once
(DESIGN CHOICE, log entry 45). -/
def State.linkActive (s : State) (q : Nat) : State :=
  let s := (s.eyePause q false).updLink q (fun l =>
    let l := (l.alignStart)
    let l : LinkSt := { l with ackClk := s.time.clk, credClk := s.time.clk, idleClk := s.time.clk,
                               discard := !l.fresh, resend := l.replay.map (·.seq) }
    if l.fresh then { l with waiting := initCredit :: l.waiting, initSent := true } else l)
  s.setStates q 4 4

/-- TS rows that reach a receive direction in lock. In ACTIVE, rows with CONFIG_ACK and FRESH at 0 start a retrain without DESKEW, and in DOZE
or SLEEP they change nothing: how an end joins its peer's retrain the spec does not say (DESIGN CHOICE, log entry 45). -/
def State.tsRows (s : State) (q n lanes rate role id : Nat) (confAck fresh : Bool) : State :=
      let rx := s.rxState q
      let s := if linkLive rx then
          (if fresh then (if confAck && rx = 4 then s else (s.retrain q))
           else if rx = 4 && !confAck then s.retrain q else s)
        else s
      if linkLive (s.rxState q) then s
      else
        let s := if fresh && !(s.link q).fresh && !(s.link q).peerFresh then
            (s.linkFresh q).updLink q (fun l => { l with peerFresh := true }) else s
        if role ≠ roleWanted q || (22 ≤ q && id ≠ s.deviceId) then
          (s.setBit (F.BL_ERR_ROLE_MISMATCH q) true).linkFail q (s.txState q ≠ 0) true
        else if lanes ≠ 0x03020100 || rate ≠ s.blRate q then s
        else if !s.bit (F.BL_CTRL_TX_EN q) then s
        else
          let tx := decide (s.txState q = 2 ∨ s.txState q = 3)
          let s := s.setStates q (if tx then 3 else s.txState q) 3
          let s := s.updLink q (fun l =>
            let l : LinkSt := { l with wire := [] }
            let l := if tx then l.trainRows n (tsRow (s.blRate q) (roleSent q) s.deviceId true l.fresh) else l
            { l with confSent := if tx then l.confSent + n else l.confSent, confGot := if confAck then l.confGot + n else 0 })
          let l := s.link q
          if tx && 16 ≤ l.confSent && 16 ≤ l.confGot then s.linkActive q else s

/-- TS_ROW_RX (R124, R126, R155, R156, R551): `n` rows; `locked` that all four lanes are block-locked and deskewed; the lane numbers. -/
def execTsRowRx (q : Fin 24) (n : Nat) (locked : Bool) (lanes : BitVec 32) (rate role : Byte) (id : Word) (confAck fresh : Bool)
    (s : State) : Out :=
  .next <| s.ifRun fun s =>
    let rx := s.rxState q
    if n = 0 || !s.bit (F.BL_CTRL_RX_EN q) || !locked || rx = 0 || rx = 1 || rx = 7 then s
    else
      ((s.setFld (F.BL_STATUS_PEER_ROLE q) role.toNat).tsRows q n lanes.toNat rate.toNat role.toNat id.toNat confAck fresh).updLink q
        (·.trainedRx)

/-- BL_TRAIN_TIMEOUT (R157): 1,000 µs after CLOCK or the retrain began. -/
def execBlTrainTimeout (q : Fin 24) (tx : Bool) (s : State) : Out :=
  .next <| s.ifRun fun s =>
    let st := if tx then s.txState q else s.rxState q
    if 1 ≤ st && st ≤ 3 then
      let t := (if tx then (s.link q).txClk else (s.link q).rxClk) + 500000
      (s.advance (t - s.time.clk)).linkFail q tx (!tx)
    else s

/-- BL_TRAIN_RESTART (R157): 10 ms after the entry to CLOCK or the retrain, while TX_EN is 1. -/
def execBlTrainRestart (q : Fin 24) (tx : Bool) (s : State) : Out :=
  .next <| s.ifRun fun s =>
    let st := if tx then s.txState q else s.rxState q
    if st = 7 && s.bit (F.BL_CTRL_TX_EN q) then
      let t := (if tx then (s.link q).txClk else (s.link q).rxClk) + 5000000
      (s.advance (t - s.time.clk)).bringUp q tx (!tx)
    else s

/-- DESKEW_LOSS (R129, R138). -/
def State.deskewLoss (s : State) (q : Nat) : State := (s.setBit (F.BL_ERR_DESKEW q) true).retrain q
def execDeskewLoss (q : Fin 24) (s : State) : Out :=
  .next (s.ifRun fun s => if s.rxState q = 4 then s.deskewLoss q else s)

/-- ALIGN_ROW_RX (R129, R136, R160): `skewOk` that no lane's skew changed by more than one unit interval. -/
def execAlignRowRx (q : Fin 24) (start skewOk : Bool) (s : State) : Out :=
  .next <| s.ifRun fun s =>
    if !linkLive (s.rxState q) then s
    else if !skewOk then s.deskewLoss q
    else
      let s := if s.rxState q = 4 then s else (s.eyePause q false).setStates q (s.txState q) 4
      if start then s.updLink q (fun l => { l with discard := false }) else s

/-- ALIGN_ROW_SEND (R129, R137): after 1,024 data rows, FILL words making up what is missing, or where a replay needs it. -/
def execAlignRowSend (q : Fin 24) (s : State) : Out :=
  .next <| s.ifRun fun s =>
    if s.txState q = 4 then s.updLink q (fun l =>
      let l : LinkSt := { l with wire := [] }
      if l.alignDue then l.alignStart
      else (List.range (1024 - l.rows)).foldl (fun l _ => (l.emit (List.replicate (64 - l.rowBuf.length) 0))) l)
    else s

/-! ### Sequence, acknowledgement and replay (R135 to R138) -/

/-- What can go wrong with a received barge. -/
inductive RxFault where
  | bad | framing | seq
  deriving DecidableEq, Repr

/-- R136: the receiver discards until ALIGN with START, and sends one NAK. -/
def State.rxFault (s : State) (q : Nat) (k : RxFault) : State :=
  let l := s.link q
  if l.discard then s
  else
    let s := match k with
      | .bad => s.setBit (F.BL_ERR_CRC q) true
      | .seq => s.setBit (F.BL_ERR_SEQ q) true
      | .framing => s
    let s := s.updLink q (fun l => { l with discard := true })
    if l.nakSent then s
    else
      let s := if k = .seq then s else s.bump (F.BL_CNT_CRC_COUNT q)
      (s.updLink q (fun l => { l with nakSent := true })).pushBarge q ⟨0x02, 3, l.lastAcc, [], none⟩

/-- BAD_BARGE (R132, R136, R369): a bad barge, a framing error, or an uncorrectable word of a link buffer, which makes its barge a bad one. -/
def execBadBarge (q : Fin 24) (b : BadRun) (s : State) : Out :=
  .next <| s.ifRun fun s =>
    if linkLive (s.rxState q) then
      let s := s.storeCe b.mended
      match b.fault with
      | .check => s.rxFault q .bad
      | .framing => s.rxFault q .framing
      | .buffer => s.storeUe.rxFault q .bad
    else s

/-- A good barge of VC 0 to 2 with `len` payload bytes arrives (R136, R139): accepted in sequence, its credits released, and
handled by `f`. -/
def State.rxBarge (s : State) (q seq vc len : Nat) (f : State → State) : State :=
  s.ifRun fun s =>
    let l := s.link q
    if !s.up q || l.discard then s
    else if seq ≠ l.expect then s.rxFault q .seq
    else
      let s := s.updLink q (fun l =>
        { l with expect := (seq + 1) % 4096, lastAcc := seq, nakSent := false, unacked := l.unacked + 1,
                 rel := l.rel.set vc ((l.rel.getD vc 0 + bargeCost len) % 65536) })
      let s := if 16 ≤ (s.link q).unacked then s.sendAck q else s
      f ((s.queueCredit q).tele 0x11 q)

/-- A VC 3 barge arrives: neither numbered nor flow-controlled (R138). -/
def State.rxLink (s : State) (q : Nat) (f : State → State) : State :=
  s.ifRun fun s => if !linkLive (s.rxState q) || (s.link q).discard then s else f s

/-- PROTOCOL_ERROR (R134): accepted, acknowledged, discarded and counted. -/
def execProtocolError (q : Fin 24) (seq : BitVec 12) (vc : Fin 3) (_typ : Byte) (len : BitVec 11) (s : State) : Out :=
  .next (s.rxBarge q seq.toNat vc len.toNat (fun s => s.protoErr q))

/-- ACK_SEND (R136). -/
def execAckSend (q : Fin 24) (s : State) : Out := .next (s.ifRun fun s => if linkLive (s.rxState q) then s.sendAck q else s)

/-- SNAP_END acknowledged: the snapshot is DONE (R466). -/
def State.snapAcked (s : State) (l : List SentBarge) : State :=
  if l.any (fun b => b.barge.typ == 0x67) && s.bit F.STEP_SNAP_STAT_BUSY then
    s.setFlds [(F.STEP_SNAP_STAT_BUSY, 0), (F.STEP_SNAP_STAT_DONE, 1)]
  else s

/-- ACK (R137): every barge up to the SEQ named leaves the replay buffer. -/
def execAck (q : Fin 24) (seq : BitVec 12) (s : State) : Out :=
  .next <| s.rxLink q fun s =>
    let l := s.link q
    match l.replay.findIdx? (fun b => b.seq == seq.toNat) with
    | none => s
    | some i =>
      let gone := l.replay.take (i + 1)
      let s := gone.foldl (fun s b => s.sample 9 q (2 * (s.time.clk - b.clk))) s
      let s := s.updLink q (fun l =>
        { l with replay := l.replay.drop (i + 1), acked := seq.toNat, replays := 0, ackClk := s.time.clk, idleClk := s.time.clk,
                 resend := l.resend.filter (fun n => !(gone.any (fun b => b.seq == n))) })
      s.snapAcked gone

/-- A replay of the barges `again` begins, or the ninth in a row retrains (R137, R138). -/
def State.replay (s : State) (q : Nat) (again : List SentBarge) : State :=
  let l := s.link q
  if 8 ≤ l.replays then (s.setBit (F.BL_ERR_REPLAY_FAIL q) true).retrain q
  else
    let s := s.updLink q (fun l => { l with replays := l.replays + 1, resend := again.map (·.seq), alignDue := true, ackClk := s.time.clk })
    ((s.setBit (F.BL_ERR_REPLAY q) true).bump (F.BL_CNT_REPLAY_COUNT q)).tele 0x12 q

/-- NAK (R137). -/
def execNak (q : Fin 24) (seq : BitVec 12) (s : State) : Out :=
  .next <| s.rxLink q fun s =>
    let l := s.link q
    if !linkLive (s.txState q) then s
    else if seq.toNat = l.acked then s.replay q l.replay
    else match l.replay.findIdx? (fun b => b.seq == seq.toNat) with
      | none => s
      | some i => s.replay q (l.replay.drop (i + 1))

/-- REPLAY_TIMER_EXPIRE (R137): 8 µs without the acknowledged SEQ advancing. -/
def execReplayTimerExpire (q : Fin 24) (s : State) : Out :=
  .next <| s.ifRun fun s =>
    let l := s.link q
    if l.replay.isEmpty || !linkLive (s.txState q) then s
    else (s.advance (l.ackClk + 4000 - s.time.clk)).replay q l.replay

/-! ### Credits (R139 to R141, R550) -/

/-- Credits available on a VC. -/
def creditFld (q vc : Nat) : Fld :=
  if vc = 0 then F.BL_TXCRED_0_VC0 q else if vc = 1 then F.BL_TXCRED_0_VC1 q else F.BL_TXCRED_1_VC2 q

/-- The credits R141 requires a peer to advertise on each VC it receives. -/
def creditNeed (q vc : Nat) : Nat :=
  if q < 12 then (if vc = 0 then 1536 else 0)
  else if q < 20 then (if vc = 1 then 64 else 0)
  else if q = 21 then (if vc = 0 then 64 else 0)
  else if vc < 2 then 64 else 0

/-- CREDIT (R140, R550). One that arrives before any with INIT, and a second with INIT, count as updates (DESIGN CHOICE, log entry 44). -/
def execCredit (q : Fin 24) (init : Bool) (c0 c1 c2 : BitVec 16) (s : State) : Out :=
  .next <| s.rxLink q fun s =>
    let cs := [c0.toNat, c1.toNat, c2.toNat]
    if init && !(s.link q).initSeen then
      let s := s.updLink q (fun l => { l with initSeen := true, buf := cs, peerRel := [0, 0, 0] })
      (List.range 3).foldl (fun s v =>
        let s := s.setFld (creditFld q v) (cs.getD v 0)
        if cs.getD v 0 < creditNeed q v then s.setBit (F.BL_ERR_CREDIT_LOW q) true else s) s
    else
      let s' := (List.range 3).foldl (fun s v =>
        let l := s.link q
        let n := s.fld (creditFld q v) + (cs.getD v 0 + 65536 - l.peerRel.getD v 0) % 65536
        let s := if l.buf.getD v 0 < n then s.setBit (F.BL_ERR_CREDIT q) true else s
        s.setFld (creditFld q v) (min n (l.buf.getD v 0))) s
      s'.updLink q (fun l => { l with peerRel := cs })

/-- CREDIT_PERIODIC (R140, R161): every 100 µs, except while the transmit direction is idle. -/
def execCreditPeriodic (q : Fin 24) (s : State) : Out :=
  .next <| s.ifRun fun s =>
    if s.txState q = 4 then
      let s := s.advance ((s.link q).credClk + 50000 - s.time.clk)
      (s.updLink q (fun l => { ({ l with wire := [] } : LinkSt).emit (l.creditBarge.bytes 0 false) with credClk := s.time.clk })).tele 0x10 q
    else s

/-! ### Sending (R133, R135, R139, R154) -/

/-- The next barge of the unit that the transmit DMA of quad `q` sends, formed when its VC has none waiting and its ring can be read
(R154, R222, R355). -/
def State.esForm (s : State) (q : Nat) : State :=
  let l := s.link q
  match l.units with
  | [] => s
  | u :: us =>
    let base := s.fld (F.ENC_CTX_OUT_LO_ADDR u.ctx) * 2 ^ 12 + s.fld (F.ENC_CTX_OUT_HI_ADDR u.ctx) * 2 ^ 32
    if l.waiting.any (fun b => b.vc == 0) || s.waits (s.region base) then s
    else if !u.started then
      let d := leBytes 4 u.len ++ leBytes 1 u.ctx ++ leBytes 1 u.idr.toNat ++ leBytes 2 0 ++ leBytes 8 u.frame ++ u.pres ++ leBytes 4 0
      (s.updLink q (fun l => { l with units := { u with started := true } :: us })).pushBarge q ⟨0x50, 0, 0, d, some (u.ctx, u.off)⟩
    else
      let n := min 1024 (u.len - u.sent)
      let final := decide (u.len ≤ u.sent + n)
      let size := max 1 (s.fld (F.ENC_CTX_OUT_SIZE_SIZE u.ctx) * 4096)
      let o := (u.off + u.sent) % size
      let k := min n (size - o)
      let r := s.read (0x48 + q) (base + o) k
      let s := r.noted (0x48 + q) (base + o) 7
      let r2 := s.read (0x48 + q) base (n - k)
      let p := if n = k then (s, [])
        else (r2.noted (0x48 + q) base 7, r2.dmaBytes base (n - k))
      let d := r.dmaBytes (base + o) k ++ p.2
      let s := p.1
      let tag := if final then s.unitEnd u else (u.off + (u.sent + n) / 32 * 32) % size
      (s.updLink q (fun l => { l with units := if final then us else { u with sent := u.sent + n } :: us })).pushBarge q
        ⟨0x51, 0, u.ctx + 128 * final.toNat, d, some (u.ctx, tag)⟩

/-- Whether a waiting barge can start (R133, R135, R139). -/
def State.canStart (s : State) (q : Nat) (b : Barge) : Bool :=
  b.vc == 3 || (s.up q && decide (bargeCost b.data.length ≤ s.fld (creditFld q b.vc)))

/-- PIXELS barges of a line, and how many of them a slot's buffer holds (R143, R146). -/
def State.lineBarges (s : State) (h : Nat) : Nat := ceilDiv (s.hact h) 256
def slotPixels (l : LinkSt) (k : Nat) : Nat := (l.waiting.filter (fun b => b.typ == 0x10 && b.spec % 4 == k)).length
/-- Pixel barges enter the transmit buffer, which holds two lines for each slot (R146). -/
def State.refill (s : State) (q : Nat) : State :=
  (List.range 3).foldl (fun s k =>
    match s.slotHead q k with
    | none => s
    | some (h, _) =>
      let l := s.link q
      let mine := l.feed.filter (fun e => e.1 == k)
      let n := 2 * s.lineBarges h - slotPixels l k
      if mine.isEmpty || n = 0 then s
      else s.setLink q { l with waiting := l.waiting ++ (mine.take n).map (·.2), idleClk := s.time.clk,
                                feed := l.feed.filter (fun e => e.1 != k) ++ mine.drop n }) s

/-- BARGE_SEND (R133, R135): the oldest waiting barge of the highest VC that can start, a replayed one before new ones, or FILL. The replay
buffer is full when the wire bytes of the barges it holds already reach 16 KiB (DESIGN CHOICE, log entry 44). -/
def State.bargeSend (s : State) (q : Nat) : State :=
    if s.txState q ≠ 4 then s
    else
      let s := s.updLink q (fun l => { l with wire := [] })
      let s := s.updLink q (fun l => if l.alignDue then l.alignStart else l)
      let s := s.esForm q
      let l := s.link q
      let pick (v : Nat) : Option Nat :=
        match l.waiting.findIdx? (fun b => b.vc == v) with
        | some i => if s.canStart q (l.waiting.getD i ⟨0, 0, 0, [], none⟩) then some i else none
        | none => none
      match pick 3 with
      | some i =>
        (s.updLink q (fun l => { ({ l with waiting := l.waiting.eraseIdx i } : LinkSt).emit
          ((l.waiting.getD i ⟨0, 0, 0, [], none⟩).bytes 0 false) with idleClk := s.time.clk })).tele 0x10 q
      | none =>
        match (if s.up q then l.resend else []) with
        | n :: ns =>
          (match l.replay.find? (fun b => b.seq == n) with
           | some b => (s.updLink q (fun l => { ({ l with resend := ns } : LinkSt).emit (b.barge.bytes n true) with idleClk := s.time.clk })).tele 0x10 q
           | none => s.updLink q (fun l => { l with resend := ns }))
        | [] =>
          let held := (l.replay.map (fun b => wireSize b.barge.data.length)).foldl (· + ·) 0
          match (if 1024 ≤ l.replay.length || 16384 ≤ held then none
                 else ((pick 2).orElse (fun _ => (pick 1).orElse (fun _ => pick 0)))) with
          | none => s.updLink q (fun l => l.emit (List.replicate 8 0))
          | some i =>
            let b := l.waiting.getD i ⟨0, 0, 0, [], none⟩
            let s := s.setFld (creditFld q b.vc) (s.fld (creditFld q b.vc) - bargeCost b.data.length)
            let s := s.updLink q (fun l =>
              { ({ l with waiting := l.waiting.eraseIdx i } : LinkSt).emit (b.bytes l.seq false) with
                replay := l.replay ++ [⟨l.seq, s.time.clk, b⟩], seq := (l.seq + 1) % 4096, idleClk := s.time.clk,
                ackClk := if l.replay.isEmpty then s.time.clk else l.ackClk })
            let s := match b.tag with
              | some (i, off) => s.setOutRd i off
              | none => s
            s.tele 0x10 q
def execBargeSend (q : Fin 24) (s : State) : Out := .next (s.ifRun fun s => (s.bargeSend q).refill q)

/-! ### Idle states (R158 to R161) -/

/-- The REFCLK clock at which the direction has had nothing to send for IDLE_US µs. -/
def State.idleAt (s : State) (q : Nat) : Nat := (s.link q).idleClk + 500 * max 1 (s.fld (F.BL_PWR_IDLE_US q))
/-- R159: nothing waits, no ACK is owed and the replay buffer is empty, no mapped head scans, and TX_IDLE names a state. -/
def State.mayIdle (s : State) (q : Nat) : Bool :=
  let l := s.link q
  let k := s.fld (F.BL_PWR_TX_IDLE q)
  (k = 1 || k = 2) && l.waiting.isEmpty && l.feed.isEmpty && l.replay.isEmpty && l.units.isEmpty && l.unacked = 0 && !s.quadScans q &&
    (q < 22 || s.role = 0)
/-- The direction goes idle: a CREDIT, FILL up to the end of its row, four IDLE_ENTER rows (R159, R161). -/
def State.goIdle (s : State) (q : Nat) : State :=
  let k := s.fld (F.BL_PWR_TX_IDLE q)
  ((s.updLink q (fun l =>
    let l := (l.emit (l.creditBarge.bytes 0 false)).fillRow
    { l with wire := l.wire ++ List.replicate 4 (idleRow k), credClk := s.time.clk })).setStates q (4 + k) (s.rxState q)).tele 0x10 q

/-- BL_IDLE_ENTER (R159, R161): IDLE_US µs with nothing to send. -/
def execBlIdleEnter (q : Fin 24) (s : State) : Out :=
  .next <| s.ifRun fun s =>
    if s.txState q = 4 && s.mayIdle q then
      ((s.advance (s.idleAt q - s.time.clk)).updLink q (fun l => { l with wire := [] })).goIdle q
    else s

/-- IDLE_ENTER_RX (R159): the peer's transmit direction is idle. -/
def execIdleEnterRx (q : Fin 24) (sleep : Bool) (s : State) : Out :=
  .next <| s.ifRun fun s =>
    if s.rxState q = 4 then (s.eyePause q true).setStates q (s.txState q) (if sleep then 6 else 5) else s

/-- The rows of a wake (R160) and the CREDIT that is the first barge after it (R161). -/
def State.wakeRows (s : State) (q : Nat) : State :=
  (s.updLink q (fun l =>
    let l := (({ l with wire := [] } : LinkSt).trainRows 16 (tsRow (s.blRate q) (roleSent q) s.deviceId true false)).alignStart
    { l.emit (l.creditBarge.bytes 0 false) with credClk := s.time.clk })).tele 0x10 q

/-- BL_WAKE (R160). -/
def execBlWake (q : Fin 24) (s : State) : Out :=
  .next <| s.ifRun fun s =>
    let l := s.link q
    if (s.txState q = 5 || s.txState q = 6) && (!l.waiting.isEmpty || !l.resend.isEmpty || !l.units.isEmpty) then
      ((s.wakeRows q).setStates q 4 (s.rxState q)).updLink q (fun l => { l with idleClk := s.time.clk })
    else s

/-- IDLE_CREDIT (R161): every 10 ms the direction wakes, sends a CREDIT beside the one that is the first barge after the wake, and becomes
idle again when R159 lets it. -/
def execIdleCredit (q : Fin 24) (s : State) : Out :=
  .next <| s.ifRun fun s =>
    if s.txState q = 5 || s.txState q = 6 then
      let s := s.advance ((s.link q).credClk + 5000000 - s.time.clk)
      let s := (((s.wakeRows q).updLink q (fun l => l.emit (l.creditBarge.bytes 0 false))).tele 0x10 q).setStates q 4 (s.rxState q)
      if s.mayIdle q && s.idleAt q ≤ s.time.clk then s.goIdle q else s
    else s

/-! ### Registers (R165, R166) -/

/-- The barge of a BL_TXQ_CMD is read and formed; one whose reply or status was cut short goes no further. -/
def State.txqForm (s : State) (q t sp base n : Nat) : State :=
  let r : RdRes := if n = 0 then ⟨s, [], [], false⟩ else s.read (0x48 + q) base n
  let s := r.noted (0x48 + q) base 7
  let l := s.link q
  let cut := t == 0x41 && l.replyCut && sp % 2 == 0
  let s := if t == 0x41 then s.updLink q (fun l => { l with replyCut := cut && sp / 2 == 0, replyOpen := sp / 2 == 0 }) else s
  if cut then s else s.pushBarge q ⟨t, 1, sp, r.dmaBytes base n, none⟩
/-- BL_TXQ_CMD (R153, R165): one barge, whose bytes in DRAM wait for a frequency change to end (R355); a LEN the field does not list acts as its reset value, 0 (R5). -/
def State.txqCmd (q : Nat) (a : Admit) : State :=
  let s := a.plain (R.BL_TXQ_CMD q)
  if !a.one (F.BL_TXQ_CMD_GO q) then s
  else
    let s := s.setBit (F.BL_TXQ_CMD_GO q) false
    let t := s.fld (F.BL_TXQ_CMD_TYPE q)
    let sp := s.fld (F.BL_TXQ_CMD_SPEC q)
    let len := s.fld (F.BL_TXQ_CMD_LEN q)
    let n := if len ≤ 1024 then len else 0
    if !((q < 20 && t == 0x14) || (q == 20 && t == 0x41)) then s.setBit (F.BL_ERR_CFG q) true
    else
      let base := s.fld (F.BL_TXQ_ADDR_LO_ADDR q) * 8 + s.fld (F.BL_TXQ_ADDR_HI_ADDR q) * 2 ^ 32
      if n ≠ 0 && s.waits (s.regionN base n) then s.defer (.txq q t sp base n) else s.txqForm q t sp base n
def execBlTxqSend (m : Mst) (q : Fin 24) (w : Word) (s : State) : Out := .next (s.runReg m.toNat (R.BL_TXQ_CMD q) w.toNat (State.txqCmd q))

/-- Slot `k` of a BL_HEADMAP word. -/
def mapSlot (w k : Nat) : Nat := w / 2 ^ (8 * k) % 256

/-- BL_HEADMAP (R166). -/
def State.headMap (q : Nat) (a : Admit) : State :=
  let s := a.st
  let heads (w : Nat) : List Nat := ((List.range 3).map (mapSlot w)).filterMap (fun x => if 128 ≤ x then some (x % 32) else none)
  let changed := (List.range 3).any (fun k =>
    mapSlot a.old k ≠ mapSlot a.w k &&
      ((128 ≤ mapSlot a.old k && s.scanning (mapSlot a.old k % 32)) || (128 ≤ mapSlot a.w k && s.scanning (mapSlot a.w k % 32))))
  let others := (List.range 12).flatMap (fun p => if p = q then [] else heads (s.reg (R.BL_HEADMAP p)).toNat)
  let hs := heads a.w
  if changed || hs.eraseDups.length ≠ hs.length || hs.any (fun h => others.contains h) then s.setBit (F.BL_ERR_CFG q) true
  else a.plain (R.BL_HEADMAP q)
def execBlHeadmapWrite (m : Mst) (q : Fin 12) (w : Word) (s : State) : Out := .next (s.runReg m.toNat (R.BL_HEADMAP q) w.toNat (State.headMap q))

/-! ### Barges from bridges and companions -/

/-- BRIDGE_STATUS on Q0 to Q19 (R147). -/
def execBridgeStatus (q : Fin 20) (seq : BitVec 12) (d : DWord) (s : State) : Out :=
  .next (s.rxBarge q seq.toNat 1 8 (fun s =>
    s.setFlds [(F.BL_BSTAT_LO_DATA q, d.toNat), (F.BL_BSTAT_HI_DATA q, d.toNat / 2 ^ 32)]))

/-- AU_START on Q20 or Q21 (R150). -/
def execAuStart (k : Fin 2) (seq : BitVec 12) (len : Word) (ctx flags : Byte) (capture : BitVec 96) (s : State) : Out :=
  .next (s.rxBarge (20 + k) seq.toNat 0 32 (fun s =>
    s.auStart (20 + k) ctx.toNat len.toNat (flags.toNat % 8) (leBytes 12 capture.toNat)))

/-- AU_DATA on Q20 or Q21 (R150). -/
def execAuData (k : Fin 2) (seq : BitVec 12) (ctx : Fin 128) (final : Bool) (d : List Byte) (s : State) : Out :=
  .next (s.rxBarge (20 + k) seq.toNat 0 d.length (fun s => s.auData (20 + k) ctx final d))

/-- TIMESTAMP on Q20 or Q21 (R37, R152). -/
def execTimestamp (k : Fin 2) (seq : BitVec 12) (rpl : Bool) (seqId : BitVec 16) (msgType : BitVec 4) (interval : Word)
    (orgSec : BitVec 48) (orgNs : Word) (orgValid : Bool) (s : State) : Out :=
  .next (s.rxBarge (20 + k) seq.toNat 2 24 (fun s =>
    if rpl then s.setBit (F.BL_ERR_TS_REPLAY (20 + k)) true
    else s.tsArrive k msgType.toNat seqId.toNat interval.toNat (if orgValid then orgSec.toNat else 0) (if orgValid then orgNs.toNat else 0)))

/-- A whole operator command enters the carry buffer of 64 KiB (R153, R451). -/
def State.carryPut (s : State) (d : List Byte) : State :=
  let len := leNat (d.take 2)
  let body := slice d 0 (ceilDiv d.length 8 * 8)
  let used := (s.pair.carry.map (fun c => c.data.length)).foldl (· + ·) 0
  if d.length < 8 || d.length ≠ 8 + len || len = 0 || 4096 < len then s.protoErr 20
  else if 65536 < used + body.length then s.orFld F.STEP_ERR_ERR 256
  else { s with pair := { s.pair with carry := s.pair.carry ++ [⟨leNat (slice d 4 4), body, s.pair.releases⟩] } }

/-- CMD on Q20 (R153). A FIRST barge takes the place of a command still being assembled (DESIGN CHOICE, log entry 47). -/
def execCmd (seq : BitVec 12) (first final : Bool) (d : List Byte) (s : State) : Out :=
  .next (s.rxBarge 20 seq.toNat 1 d.length (fun s =>
    let so : Option (List Byte) := if first then some d else ((s.link 20).cmd).map (· ++ d)
    match so with
    | none => if final then s.protoErr 20 else s
    | some x =>
      if final then (s.updLink 20 (fun l => { l with cmd := none })).carryPut x
      else s.updLink 20 (fun l => { l with cmd := some x })))

end Sys2Proof.Machine
end

