-- ==== Sys2Proof/Machine/ParamSets.lean ====
section
/-!
DEFINITION. The parameter sets of a coded stream (R220), bit by bit: what the table of R220 names stands in its place of the standards' syntax,
an element that a present flag of 0 leaves out has the value the standard infers, and what neither fixes is a free string of bits.
Readings and choices beyond the spec's plain words: log entries 13 and 72.
-/
namespace Sys2Proof.Machine

/-- Emulation prevention over the bytes of a NAL unit. -/
def escape : List Byte → Nat → List Byte
  | [], _ => []
  | b :: bs, z =>
    if 2 ≤ z && b.toNat ≤ 3 then 3 :: b :: escape bs (if b == 0 then 1 else 0)
    else b :: escape bs (if b == 0 then z + 1 else 0)
def startCode : List Byte := [0, 0, 1]
/-- A NAL unit: start code, header, and the payload with emulation prevention. -/
def nal (hd body : List Byte) : List Byte := startCode ++ hd ++ escape body 0
/-- Bits, first one first, as bytes; the last byte is filled up with a one and zeros where it is not whole. -/
def bitBytes (l : List Nat) : List Byte :=
  let l := if l.length % 8 = 0 then l else l ++ [1]
  (List.range (ceilDiv l.length 8)).map (fun k => BitVec.ofNat 8 ((List.range 8).foldl (fun v b => 2 * v + l.getD (8 * k + b) 0) 0))
/-- The low `n` bits of `v`, highest first. -/
def uBits (n v : Nat) : List Nat := (List.range n).map (fun k => v / 2 ^ (n - 1 - k) % 2)
/-- An unsigned exponential Golomb code. -/
def ueBits (v : Nat) : List Nat :=
  let n := Nat.log2 (v + 1)
  List.replicate n 0 ++ uBits (n + 1) (v + 1)
/-- The bits of a parameter set's payload, with its stop bit. -/
def setBytes (l : List Nat) : List Byte := bitBytes (l ++ [1] ++ List.replicate ((15 - l.length % 8) % 8) 0)
/-- Elements at place `k` that neither R220 nor an inference of the standard fixes: at most 32 bits, each 0 or 1. -/
def openBits (h264 : Bool) (k : Nat) : List Nat := ((Config.openBits h264 k).take 32).map (· % 2)

/-- A flag of that kind. -/
def openBit (h264 : Bool) (k : Nat) : List Nat := [(openBits h264 k).headD 0]

/-- A rate or size in units of 2^n: the one it is a multiple of, else the one next to it on a side that no rule names. -/
def hrdValue (v n : Nat) : List Nat := ueBits ((if v % 2 ^ n = 0 then v / 2 ^ n else v / 2 ^ n + (Config.hrdUp v n).toNat) - 1)
/-- One NAL HRD schedule (R220): bit rate, CPB size and cbr_flag, with scales of 0. -/
def hrdSchedule (p : EncParams) : List Nat := hrdValue (p.rate * 1000) 6 ++ hrdValue (p.cpb * 1000) 4 ++ [p.cbr.toNat]
/-- The lengths of the delays in the SEI messages of R229, 24 bits each. -/
def delayBits : List Nat := uBits 5 23 ++ uBits 5 23 ++ uBits 5 23

/-! ### H.264 -/

/-- VUI: timing, and a NAL HRD of one schedule. -/
def vui264 (p : EncParams) : List Nat :=
  [0, 0, 0, 0, 1] ++ uBits 32 p.tick ++ uBits 32 p.scale ++ openBit true 0 ++
    [1] ++ ueBits 0 ++ uBits 4 0 ++ uBits 4 0 ++ hrdSchedule p ++ delayBits ++ uBits 5 24 ++ [0] ++ openBit true 1 ++ [0, 0]
/-- Frame cropping from `whole` macroblock sizes to the picture, in units of two samples. -/
def crop264 (w h mw mh : Nat) : List Nat :=
  if w = 16 * mw && h = 16 * mh then [0] else [1] ++ ueBits 0 ++ ueBits ((16 * mw - w) / 2) ++ ueBits 0 ++ ueBits ((16 * mh - h) / 2)
def sps264 (p : EncParams) : List Byte :=
  let mw := ceilDiv p.width 16
  let mh := ceilDiv p.height 16
  nal [0x27] (setBytes (uBits 8 p.profile ++ uBits 8 0 ++ uBits 8 p.level ++ ueBits 0 ++ ueBits 1 ++ ueBits (p.depth - 8) ++ ueBits (p.depth - 8) ++ [0, 0] ++
    openBits true 2 ++ ueBits 1 ++ openBit true 3 ++ ueBits (mw - 1) ++ ueBits (mh - 1) ++ [1] ++ openBit true 4 ++
    crop264 p.width p.height mw mh ++ [1] ++ vui264 p))
/-- CABAC, one reference, deblocking as inferred, 8×8 transform. -/
def pps264 : List Byte :=
  nal [0x28] (setBytes (ueBits 0 ++ ueBits 0 ++ [1] ++ openBit true 5 ++ ueBits 0 ++ ueBits 0 ++ ueBits 0 ++ [0] ++ uBits 2 0 ++
    openBits true 6 ++ [0] ++ openBit true 7 ++ [0, 1, 0] ++ openBits true 8))

/-! ### H.265 -/

/-- Profile Main 10, Main tier, level. -/
def ptl265 (p : EncParams) : List Nat :=
  uBits 2 0 ++ [0] ++ uBits 5 p.profile ++ [0, 0, 1] ++ (openBits false 0).take 29 ++ List.replicate (29 - (openBits false 0).length) 0 ++
    uBits 4 ((openBits false 1).foldl (fun v b => 2 * v + b) 0) ++ List.replicate 44 0 ++ uBits 8 p.level
/-- One picture is held beside the current one, and none is reordered. -/
def order265 : List Nat := [1] ++ ueBits 1 ++ ueBits 0 ++ openBits false 2
def vps265 (p : EncParams) : List Byte :=
  nal [0x40, 0x01] (setBytes (uBits 4 0 ++ [1, 1] ++ uBits 6 0 ++ uBits 3 0 ++ [1] ++ uBits 16 0xFFFF ++ ptl265 p ++ order265 ++ uBits 6 0 ++ ueBits 0 ++
    [0, 0]))
def hrd265 (p : EncParams) : List Nat :=
  [1, 0, 0] ++ uBits 4 0 ++ uBits 4 0 ++ delayBits ++ openBits false 3 ++ ueBits 0 ++ hrdSchedule p
def vui265 (p : EncParams) : List Nat :=
  [0, 0, 0, 0, 0, 0, 0, 0, 1] ++ uBits 32 p.tick ++ uBits 32 p.scale ++ [0, 1] ++ hrd265 p ++ [0]
/-- The conformance window from whole coding blocks of 8 to the picture, in units of two samples. -/
def crop265 (w h cw ch : Nat) : List Nat :=
  if w = cw && h = ch then [0] else [1] ++ ueBits 0 ++ ueBits ((cw - w) / 2) ++ ueBits 0 ++ ueBits ((ch - h) / 2)
/-- Coding blocks 32 down to 8, transform blocks 32 down to 4, no SAO. -/
def sps265 (p : EncParams) : List Byte :=
  let cw := ceilDiv p.width 8 * 8
  let ch := ceilDiv p.height 8 * 8
  nal [0x42, 0x01] (setBytes (uBits 4 0 ++ uBits 3 0 ++ [1] ++ ptl265 p ++ ueBits 0 ++ ueBits 1 ++ ueBits cw ++ ueBits ch ++ crop265 p.width p.height cw ch ++
    ueBits (p.depth - 8) ++ ueBits (p.depth - 8) ++ openBits false 4 ++ order265 ++ ueBits 0 ++ ueBits 2 ++ ueBits 0 ++ ueBits 3 ++ openBits false 5 ++
    [0] ++ openBit false 6 ++ [0, 0] ++ openBits false 7 ++ [0] ++ openBits false 8 ++ [1] ++ vui265 p ++ [0]))
/-- One reference; deblocking as inferred. -/
def pps265 : List Byte :=
  nal [0x44, 0x01] (setBytes (ueBits 0 ++ ueBits 0 ++ openBits false 9 ++ ueBits 0 ++ ueBits 0 ++ openBits false 10 ++ [0, 0] ++ openBits false 11 ++
    [0, 0] ++ openBits false 12 ++ [0, 0]))

/-- R220: the parameter sets before an IDR. -/
def paramSets (p : EncParams) : List Byte := if p.h264 then sps264 p ++ pps264 else vps265 p ++ sps265 p ++ pps265

end Sys2Proof.Machine
end

