-- ==== Sys2Proof/Machine/Layers.lean ====
section
/-!
DEFINITION. A head's stack (R244 to R247), the resolution of a layer's source and of its reference time and freeze (R249, R303 to
R308, R314 to R318), the checks of R250 and R261, and the scalers (R260).
Readings and choices beyond the spec's plain words: log entry 52.
-/
namespace Sys2Proof.Machine

/-! ### Applying a chamber (R245, R246) -/

/-- A pipe is placed in the slot that it is in (R245): it does not leave its slot, so it keeps its scalers where the new descriptor names
the same ones (R260), and takes all of another set or none. -/
def State.reattach (s : State) (l : Layer) (m : Member) : State :=
  let named : List Nat := if descScaled m.desc && descSource m.desc != 3 then span (descScaler m.desc) (descGang m.desc) else []
  let keep := l.scalers && descScaled l.desc && named == span (descScaler l.desc) (descGang l.desc)
  let s := if keep then s else s.freeScalers l.lp
  s.putLayer { lp := m.lp, head := l.head, slot := m.slot, descIx := m.descIx, desc := m.desc, scalers := keep }

/-- Both passes over the members of one chamber that name head `h`. -/
def State.applyMembers (s : State) (h : Nat) (ms : List Member) : State :=
  let mine := ms.filter (fun m => m.head == h)
  let s := (mine.filter (·.detach)).foldl (fun s m =>
    match s.layerOf m.lp with
    | some l => if l.head = h then s.dropLayer m.lp else s
    | none => s) s
  (mine.filter (fun m => !m.detach)).foldl (fun s m =>
    match s.layerOf m.lp with
    | some l => if l.head ≠ h then s.compErr 3 h m.lp
      else if l.slot = m.slot then s.reattach l m
      else
        let s := s.dropLayer m.lp
        let s := match s.layerAt h m.slot with
          | some o => s.dropLayer o.lp
          | none => s
        s.putLayer { lp := m.lp, head := h, slot := m.slot, descIx := m.descIx, desc := m.desc }
    | none =>
      let s := match s.layerAt h m.slot with
        | some o => s.dropLayer o.lp
        | none => s
      s.putLayer { lp := m.lp, head := h, slot := m.slot, descIx := m.descIx, desc := m.desc }) s

/-! ### First-seen records (R306, R307) -/

/-- Sources are numbered: contexts from 0, baseband inputs from 128. -/
def State.seenOf (s : State) (k : Nat) : SeenRec := Tbl.get (fun _ => {}) s.seen k
def SeenRec.firstSeen (r : SeenRec) (a : Nat) : Option Nat :=
  if (match r.dropped with
      | some d => decide (a ≤ d)
      | none => false) then none
  else (r.pairs.find? (fun p => decide (a ≤ p.1))).map (·.2)
/-- R306: the entry of a release. -/
def SeenRec.release (r : SeenRec) (v tick : Nat) : SeenRec :=
  if v = 0 then { last := 0 }
  else if r.last < v then
    let full := decide (16 ≤ r.pairs.length)
    { pairs := (if full then r.pairs.drop 1 else r.pairs) ++ [(v, tick)],
      dropped := if full then (r.pairs.head?).map (·.1) else r.dropped, last := v }
  else { r with last := v }

/-- R305: the reference time of an arrival-timed layer, in 2^-16 ns. -/
def State.arrRef (s : State) (t : Nat) : Int :=
  ((s.tickB (t - 1) : Int) - (s.fld F.FG_TIMING_ARR_LEAD * 1000000 : Nat)) * 65536
/-- A 96-bit time in 2^-16 ns. -/
def triple16 (v : Nat) : Int := ((tripleNs v * 65536 + v % 65536 : Nat) : Int)

def State.freezeN (s : State) : Nat := min 8 (max 2 (s.fld F.FG_POLICY_FREEZE_N))

/-! ### Freeze (R315, R316) -/


/-- R316. -/
def State.freezeIn (s : State) (j n f : Nat) : Bool × Bool :=
  if f < n then (false, false)
  else
    let hist := (Tbl.get (fun _ => ({} : InSt)) s.ins j).hist
    let held := (List.range n).map (fun k => (hist.find? (fun e => e.1 == f - k)).map (·.2))
    if held.any (·.isNone) then (true, true) else (held.all (· == held.headD none), false)

/-! ### Resolution (R249, R308) -/

/-- 32 or 64 bytes that decide a layer's source, read as master 0x70; none where they are poisoned or not there (R268). -/
def State.readFor (s : State) (l : Layer) (a n : Nat) : State × Option (List Byte) :=
  let r := s.read 0x70 a n
  if r.bus then (r.st, none)
  else if r.poisoned then ((r.st.poisonRec 0x70 a 3 l.head l.lp).compErr 6 l.head l.lp, none)
  else (r.st, some r.data)

/-- The walk of R315 for layer `l`, from entry `b` with `f` entries left, the first picture's CRC and size, and the pictures taken. No entry
holds a number below 0. The result is with FRZ_LOST. -/
def State.freezeWalk (l : Layer) (i n : Nat) : Nat → Int → Option (Nat × Nat × Nat) → Nat → State → State × Bool × Bool
  | 0, _, _, _, s => (s, false, false)
  | f + 1, b, first, k, s =>
    if b < 0 then (s, true, true)
    else
      let a := b.toNat
      let p := s.readFor l (s.dtEntry i a) 32
      match p.2 with
      | none => (p.1, true, true)
      | some e =>
        if dtArrival e ≠ a % 2 ^ 48 then (p.1, true, true)
        else if dtFlag e 6 then State.freezeWalk l i n f (b - 1) first k p.1
        else if dtBuf e = 0xFF then (p.1, false, false)
        else
          let key := (dtCrc e, dtWidth e, dtHeight e)
          if first.isSome && first ≠ some key then (p.1, false, false)
          else if n ≤ k + 1 then (p.1, true, false)
          else State.freezeWalk l i n f (b - 1) (some key) (k + 1) p.1

/-- The source rectangle in the planes: the window's corner and SRC, or the whole window (R248). -/
def srcIn (d : List Byte) (win : Rect) (whole : Bool) : Rect :=
  let r := descSrc d
  if whole && r.w = 0 && r.h = 0 then win else ⟨win.x + r.x, win.y + r.y, r.w, r.h⟩

def State.resolveContext (s : State) (l : Layer) : State × Layer :=
  let d := l.desc
  let i := descCtx d
  let num := descNumber d
  let noisy := descNoisy d || (i < 128 && s.bitAt (F.FG_NOISY_CTX_MASK (i / 32)) (i % 32))
  if 128 ≤ i then (s, { l with noisy := noisy })
  else
    let p := s.readFor l (s.dtEntry i num) 32
    match p.2 with
    | none => (p.1, { l with noisy := noisy })
    | some e =>
      let s := p.1
      let own := decide (dtArrival e = num % 2 ^ 48)
      let l := { l with noisy := noisy, taint := dtFlag e 1, poison := dtFlag e 5 }
      if num = 0 || !own || !dtFlag e 0 then (s, l)
      else
        let b := s.poolBuf i (dtBuf e)
        let win : Rect := ⟨dtLeft e, dtTop e, dtWidth e, dtHeight e⟩
        let pic : Pic := { fmt := if dtFlag e 7 then 1 else 0, planes := [b, b + s.poolLuma i], pitch := s.poolPitch i, window := win,
                           src := srcIn d win true }
        let ref : Option Int :=
          if dtFlag e 3 then ((s.seenOf i).firstSeen num).map (fun t => s.arrRef (min (dtTick e) t)) else some (triple16 (dtTime e))
        let fz := if noisy then State.freezeWalk l i s.freezeN 64 num none 0 s else (s, false, false)
        let s := fz.1
        let fz := fz.2
        let s := if fz.2 then s.setBit F.FG_ERR_FRZ_LOST true else s
        (s, { l with pic := some pic, buf := some (i, dtBuf e), timed := true, arr := dtFlag e 3, ref := ref, frozen := fz.1 })

/-- The stored format of an input's frames (R253); an unlisted FMT acts as its reset value (R5). -/
def State.inFmt (s : State) (j : Nat) : Nat := let f := s.fld (F.COMP_IN_CTL_FMT j); if f ≤ 2 then f else 0
def inStored (f : Nat) : Nat := if f == 0 then 9 else if f == 1 then 8 else 3
def State.inSlots (s : State) (j : Nat) : Nat := max 1 (min 32 (s.fld (F.COMP_IN_CTL_SLOTS j)))
def State.inSlot (s : State) (j k : Nat) : Nat :=
  s.fld (F.COMP_IN_LO_ADDR j) * 2 ^ 12 + s.fld (F.COMP_IN_HI_ADDR j) * 2 ^ 32 + k * (s.fld (F.COMP_IN_STRIDE_SIZE j) * 4096)

def State.resolveInput (s : State) (l : Layer) : State × Layer :=
  let d := l.desc
  let j := descCtx d
  let num := descNumber d
  let noisy := descNoisy d || (j < 24 && s.bitAt F.FG_NOISY_IN_MASK j)
  if 24 ≤ j || num = 0 then (s, { l with noisy := noisy })
  else
    let k := num % s.inSlots j
    let a := s.inSlot j k
    let p := s.readFor l a 64
    match p.2 with
    | none => (p.1, { l with noisy := noisy })
    | some e =>
      let s := p.1
      if leNat (e.take 8) ≠ num then (s, { l with noisy := noisy })
      else
        let win : Rect := ⟨0, 0, leNat (slice e 20 2), leNat (slice e 22 2)⟩
        let pic : Pic := { fmt := inStored (s.inFmt j), planes := [a + 0x1000, a + s.fld (F.COMP_IN_CHROMA_SIZE j) * 4096],
                           pitch := s.fld (F.COMP_IN_CTL_PITCH j) * 256, window := win, src := srcIn d win false }
        let ref := ((s.seenOf (128 + j)).firstSeen num).map (fun t => s.arrRef (min (descTick d) t))
        let fz := if noisy then s.freezeIn j s.freezeN num else (false, false)
        let s := if fz.2 then s.setBit F.FG_ERR_FRZ_LOST true else s
        (s, { l with noisy := noisy, pic := some pic, inSlot := some (j, k), timed := true, arr := true, ref := ref, frozen := fz.1 })

/-- R249, R308: the source, the reference time and the causes that stay with the layer. -/
def State.resolveLayer (s : State) (l : Layer) : State :=
  let d := l.desc
  let l : Layer := { lp := l.lp, head := l.head, slot := l.slot, descIx := l.descIx, desc := d, fresh := false, held := true,
                     spoilt := l.spoilt, valid := l.valid, veiled := l.veiled, blocks := l.blocks, waited := l.waited, scalers := l.scalers }
  let src := descSource d
  let p :=
    if src == 1 then s.resolveContext l
    else if src == 2 then s.resolveInput l
    else if src == 0 then
      let f := descFormat d
      let pic : Pic := { fmt := f, planes := [descAddr d 0, descAddr d 1, descAddr d 2], pitch := descPitch d * 256,
                         window := ⟨0, 0, 0, 0⟩, src := descSrc d }
      (s, { l with pic := some pic, timed := isYuv f && !s.bit F.FG_POLICY_UNTIMED_VIDEO })
    else (s, { l with pic := some { fmt := fillFmt, planes := [], pitch := 0, window := ⟨0, 0, 0, 0⟩, src := descSrc d } })
  p.1.putLayer p.2

/-! ### Validity (R250, R261) -/

/-- Columns of the span that scaler `g` of a gang of `n` holds. -/
def gangSpan (src dst n g : Nat) : Nat :=
  let w := ceilDiv dst n
  let lo := g * w
  let hi := min ((g + 1) * w) dst - 1
  if dst ≤ lo then 0
  else
    let st := scaleStep src dst
    let a := clampTo 0 (src - 1) ((scalePos st lo).1 - 3)
    let b := clampTo 0 (src - 1) ((scalePos st hi).1 + 4)
    b + 1 - a

/-- The scaling and line-buffer conditions for a source of `w` by `h`. -/
def scaleOk (d : List Byte) (w h : Nat) : Bool :=
  let dst := descDst d
  if descScaled d then
    decide (w ≤ 8 * dst.w) && decide (dst.w ≤ 16 * w) && decide (h ≤ 8 * dst.h) && decide (dst.h ≤ 16 * h) &&
      decide (w ≤ 16384) && decide (descScaler d + descGang d ≤ 128) &&
      (h == dst.h || (List.range (descGang d)).all (fun g => decide (gangSpan w dst.w (descGang d) g ≤ 4096)))
  else w == dst.w && h == dst.h

/-- The source, evenness and plane conditions. -/
def State.sourceOk (s : State) (d : List Byte) (p : Pic) : Bool :=
  let r := p.src
  let rel : Rect := ⟨r.x - p.window.x, r.y - p.window.y, r.w, r.h⟩
  let within :=
    if descSource d == 0 then
      (List.range (planesOf p.fmt)).all (fun k => decide ((p.colHi k + 1) * p.stepBytes k ≤ p.pitch))
    else decide (rel.x + r.w ≤ p.window.w) && decide (rel.y + r.h ≤ p.window.h)
  let even :=
    (!(is420 p.fmt || is422 p.fmt) || (rel.x % 2 == 0 && r.w % 2 == 0)) && (!is420 p.fmt || (rel.y % 2 == 0 && r.h % 2 == 0))
  let planes :=
    descSource d != 0 || (List.range (planesOf p.fmt)).all (fun k =>
      let b := p.base k
      let last := p.addr k (p.rowHi k) (p.colHi k) + p.stepBytes k - 1
      b % 256 == 0 && (s.region b == .dram || s.region b == .gen) && s.region last == s.region b)
  r.w ≠ 0 && r.h ≠ 0 && within && even && planes

/-- R250. -/
def State.layerOk (s : State) (l : Layer) : Bool :=
  let d := l.desc
  let src := descSource d
  let dst := descDst d
  let listed := src ≤ 3 && descBlend d ≤ 2 && (src == 1 || src == 2 || listedFmt (descFormat d)) && descZeros d
  let inside := decide (1 ≤ dst.w) && decide (1 ≤ dst.h) && decide (dst.x + dst.w ≤ s.hact l.head) && decide (dst.y + dst.h ≤ s.vact l.head)
  let whole := src == 1 && (descSrc d).w == 0 && (descSrc d).h == 0
  let source := src == 3 || (match l.pic with
    | some p => s.sourceOk d p && scaleOk d p.src.w p.src.h
    | none => (whole && (!descScaled d || decide (descScaler d + descGang d ≤ 128))) || (!whole && scaleOk d (descSrc d).w (descSrc d).h))
  listed && inside && source

/-! ### Scalers (R260) -/

def State.scalersFree (s : State) (l : Layer) : Bool :=
  (span (descScaler l.desc) (descGang l.desc)).all (fun n => !s.bit (F.SCL_STAT_HELD n) || s.fld (F.SCL_STAT_LP n) == l.lp)

/-- Step 6 of R279 for one layer. -/
def State.takeScalers (s : State) (l : Layer) : State :=
  if !descScaled l.desc || descSource l.desc == 3 then s
  else if !l.valid then (s.freeScalers l.lp).putLayer { l with scalers := false, wait := false }
  else if l.scalers then s
  else if s.scalersFree l then
    let s := (span (descScaler l.desc) (descGang l.desc)).foldl (fun s n =>
      s.setFlds [(F.SCL_STAT_HELD n, 1), (F.SCL_STAT_LP n, l.lp)]) s
    s.putLayer { l with scalers := true, wait := false }
  else
    let s := if l.waited then s else s.compErr 2 l.head l.lp
    s.putLayer { l with wait := true, waited := true }

/-- Steps 4 to 6 of R279: `all` resolves every layer, as after a start. -/
def State.latchLayers (s : State) (h : Nat) (all : Bool) : State :=
  let s := (s.stackOf h).foldl (fun s l => if all || l.fresh then s.resolveLayer l else s) s
  let s := (s.stackOf h).foldl (fun s l =>
    let ok := s.layerOk l
    let s := if !ok && l.valid then s.compErr 0 h l.lp else s
    s.putLayer { l with valid := ok, tiles := [], uflow := false, rows := [], blocks := 0 }) s
  -- layers that are invalid release theirs first
  let s := (s.stackOf h).foldl (fun s l => if l.valid then s else s.takeScalers l) s
  (s.stackOf h).foldl (fun s l => if l.valid then s.takeScalers l else s) s

/-- A layer contributes pixels (R249, R250, R260). -/
def Layer.shows (l : Layer) : Bool := l.pic.isSome && l.valid && !l.wait && l.held
def Layer.fmt (l : Layer) : Nat := match l.pic with
  | some p => p.fmt
  | none => if descSource l.desc == 3 then fillFmt else descFormat l.desc

end Sys2Proof.Machine
end

