-- ==== Sys2Proof/Machine/Fresh.lean ====
section
/-!
DEFINITION. The Freshness Guard's evaluation at a latch line (R303, R309 to R313, R318 to R325, R329 to R334): ages, causes,
visibility, the Age Map, the veil and its glyphs, and the records.
Readings and choices beyond the spec's plain words: log entry 52.
-/
namespace Sys2Proof.Machine

def satAge : Nat := 0x3FFFFFFF

/-- R312: the bound of a layer in ns. -/
def State.boundNs (s : State) (d : List Byte) : Nat :=
  let clampMs (v : Nat) : Nat := min 10000 (max 1 v)
  let b := if descBound d = 0 then s.fld F.FG_POLICY_DEFAULT else descBound d
  let b := max (clampMs (s.fld F.FG_BOUND_FLOOR)) (min (clampMs (s.fld F.FG_BOUND_CEIL)) b)
  max (b * 1000000) (4 * s.tickNs)

/-! ### Causes: bit numbers of FG_LP_STAT.CAUSE (R338) -/

def cStale : Nat := 0x001
def cFrozen : Nat := 0x002
def cUnknown : Nat := 0x004
def cTaint : Nat := 0x008
def cPoison : Nat := 0x010
def cNopic : Nat := 0x020
def cArr : Nat := 0x040
def cTimed : Nat := 0x080
def cFuture : Nat := 0x100
def cNoisy : Nat := 0x200
/-- STALE to NOPIC are causes; TAINT, POISON and NOPIC fault causes (R318). -/
def causeBits (c : Nat) : Nat := c % 64
def faultBits (c : Nat) : Bool := bits c 5 3 ≠ 0
def flagIf (b : Bool) (v : Nat) : Nat := if b then v else 0

/-- What the age rules make of a timed layer with a picture: cause bits, age in µs, and the FG_ERR bits they set. -/
def State.ageOf (s : State) (l : Layer) (pres : Nat) : Nat × Nat × Nat :=
  match l.ref with
  | none => (cUnknown + cStale, satAge, 4)
  | some r =>
    let diff : Int := (pres : Int) * 65536 - r
    if 0 ≤ diff then
      (flagIf (decide ((s.boundNs l.desc * 65536 : Nat) < diff)) cStale, min satAge (diff.toNat / 65536000), 0)
    else if (-diff).toNat ≤ s.fld F.FG_TIMING_FUTURE_LIMIT * 1000000 * 65536 then (cFuture, 0, 2)
    else (cUnknown + cStale, satAge, 6)

/-- A layer's causes and age in a frame of presentation time `pres`, and FG_ERR bits. -/
def State.judgeLayer (s : State) (l : Layer) (pres : Nat) : Nat × Nat × Nat :=
  let base := flagIf l.taint cTaint + flagIf (l.poison || l.spoilt) cPoison + flagIf l.noisy cNoisy +
    flagIf (l.pic.isNone || !l.valid || l.wait) cNopic
  if l.pic.isNone || !l.timed then (base, 0, 0)
  else
    let a := s.ageOf l pres
    (base + cTimed + flagIf l.arr cArr + flagIf l.frozen cFrozen + a.1, a.2.1, a.2.2)

/-! ### Visibility (R320, R321) -/

/-- R320: what a layer with a picture occludes, it occludes whether or not it shows its pixels (R321). -/
def Layer.occludes (l : Layer) : Bool :=
  l.pic.isSome && descGalpha l.desc == 1023 &&
    (descBlend l.desc == 0 || ((descBlend l.desc == 1 || descBlend l.desc == 2) && (isYuv l.fmt || l.fmt == fillFmt)))
/-- R321: the visible region of `l` under the layers `above`. -/
def Layer.region (l : Layer) (above : List Layer) (w h : Nat) : List Rect :=
  let d := descDst l.desc
  if descGalpha l.desc = 0 || w < d.x + d.w || h < d.y + d.h then []
  else (above.filter (·.occludes)).foldl (fun rs o => rs.flatMap (fun r => r.less (descDst o.desc))) [d]
def visTiles (rs : List Rect) (tx : Nat) : List Nat := (rs.flatMap (fun r => r.tiles tx)).eraseDups

/-- The layers with their visible regions, causes and ages. -/
def State.judgeStack (s : State) (h pres : Nat) (ls : List Layer) : List Layer :=
  (List.range ls.length).filterMap (fun i => (ls[i]?).map (fun l =>
    let j := s.judgeLayer l pres
    { l with cause := j.1, age := j.2.1, vis := l.region (ls.drop (i + 1)) (s.hact h) (s.vact h) }))

/-! ### The Age Map (R322 to R325) -/

/-- The entry of a tile: `vis` holds the visible layers from slot 0 up. -/
def ageEntry (vis : List Layer) (frame : Nat) : Nat :=
  let timed := vis.filter (fun l => l.cause / cTimed % 2 == 1)
  let best := timed.foldl (fun (b : Option Layer) l =>
    match b with
    | none => some l
    | some o => if o.age ≤ l.age then some l else some o) none
  let any (c : Nat) : Nat := (vis.any (fun l => l.cause / c % 2 == 1)).toNat
  let six := any cStale + 2 * any cFrozen + 4 * any cUnknown + 8 * any cTaint + 16 * any cPoison + 32 * any cNopic
  (match best with
    | some l => l.age + 2 ^ 30 + (l.cause / cArr % 2) * 2 ^ 31 + l.lp * 2 ^ 32
    | none => 0) + (flagIf (six ≠ 0) 1) * 2 ^ 48 + six * 2 ^ 49 + frame % 256 * 2 ^ 56

def entryVeiled (e : Nat) : Bool := bits e 48 48 == 1
def entryMaxAge (es : List Nat) : Nat :=
  es.foldl (fun m e => if bits e 30 30 == 1 && !entryVeiled e then max m (bits e 29 0) else m) 0
/-- Bit `b` and VEILED are set in the entry of tile `t` (R291, R319, R325). -/
def State.markTile (s : State) (h t b : Nat) : State :=
  s.updHd h (fun x => { x with amap := x.amap.set t (putBits (putBits (x.amap.getD t 0) b b 1) 48 48 1),
                               hurt := if x.hurt.contains t then x.hurt else t :: x.hurt })

/-! ### Glyphs (R331) -/

def glyphText (cause age : Nat) : List Nat :=
  let sp := 16
  if faultBits cause then [15, 13, 13, sp, sp]
  else if bits cause 2 2 == 1 || 1000000000 ≤ age then [11, 9, 9, 9, sp]
  else if bits cause 0 0 == 1 then
    let d := age / 100000
    let n := d / 10
    [if n < 100 then sp else n / 100 % 10, if n < 10 then sp else n / 10 % 10, n % 10, 10, d % 10]
  else [12, 13, 14, sp, sp]
def Layer.veilItem (l : Layer) (tx : Nat) : Option VeilItem :=
  let t := visTiles l.vis tx
  if causeBits l.cause = 0 || t.isEmpty then none
  else
    let d := descDst l.desc
    some ⟨d, t, faultBits l.cause, if descGlyph l.desc && 96 ≤ d.w && 48 ≤ d.h then some (glyphText l.cause l.age) else none, l.slot⟩

/-- The colours of set and clear glyph pixels, FG_PAL_4 and FG_PAL_5. -/
def State.glyphPal (s : State) : List Nat := [s.fld (F.FG_PAL_COLOUR 4), s.fld (F.FG_PAL_COLOUR 5)]

/-- The ink of a glyph at pixel (x, y): whether it is there, and whether the font pixel is set. -/
def VeilItem.ink (v : VeilItem) (x y : Nat) : Option Bool :=
  match v.glyph with
  | none => none
  | some t =>
    let gx := x - (v.rect.x + 8)
    let gy := y - (v.rect.y + 8)
    if v.rect.x + 8 ≤ x && v.rect.y + 8 ≤ y && gx < 80 && gy < 32 then
      let g := t.getD (gx / 16) 16
      some (g < 16 && bits (Config.font g (gy / 2)).toNat (7 - gx % 16 / 2) (7 - gx % 16 / 2) == 1)
    else none

/-- R329, R331: what the evaluated veil draws at (x, y): none, or the palette entry. `fault` forces the fault pair. -/
def veilPalette (vs : List VeilItem) (tx x y : Nat) (force : Bool) : Option Nat :=
  let t := y / 32 * tx + x / 32
  let here := vs.filter (fun v => v.tiles.contains t && v.rect.has x y)
  if here.isEmpty && !force then none
  else
    match ((vs.filterMap (fun v => if v.tiles.isEmpty then none else (v.ink x y).map (fun b => (v.slot, b)))).foldl
        (fun (b : Option (Nat × Bool)) p => match b with
          | none => some p
          | some q => if q.1 ≤ p.1 then some p else some q) none) with
    | some p => some (if p.2 then 4 else 5)
    | none => some ((x + y) / 16 % 2 + if force || here.any (·.fault) then 2 else 0)

/-! ### The evaluation (R325, R333, R334) -/

/-- The veil-engagement record (R422). -/
def State.veilRec (s : State) (l : Layer) (on apply remove : Bool) (frame : Nat) : State :=
  s.logHw 0x20 0xFF (leBytes 1 l.head ++ leBytes 2 l.lp ++ leBytes 1 (on.toNat + 2 * apply.toNat + 4 * remove.toNat) ++ leBytes 2 l.cause ++
    leBytes 2 0 ++ leBytes 4 l.age ++ leBytes 6 frame ++ leBytes 14 0) true

/-- Step 7 of R279. `before` is the stack as the previous latch line left it, `applied` the pipes applied at this one. -/
def State.fgEvaluate (s : State) (h : Nat) (before : List Layer) (applied : List Nat) : State :=
  let pres := s.curPres h
  let frame := s.curFrame h
  let tx := s.tilesX h
  let old := s.stackOf h
  let errs := old.foldl (fun e l => e ||| (s.judgeLayer l pres).2.2) 0
  let ls := s.judgeStack h pres old
  let tiles := ls.map (fun l => (visTiles l.vis tx, l))
  let es := (List.range (tx * s.tilesY h)).map (fun t => ageEntry ((tiles.filter (fun p => p.1.contains t)).map (·.2)) frame)
  let s := s.setReg R.FG_ERR (BitVec.ofNat 32 ((s.reg R.FG_ERR).toNat ||| errs))
  -- pipes that left at this latch line
  let s := before.foldl (fun s l =>
    if l.veiled && !(ls.any (fun x => x.lp == l.lp)) then s.veilRec l true false true frame else s) s
  let s := tiles.foldl (fun s p =>
    let l := p.2
    let on := causeBits l.cause ≠ 0 && !p.1.isEmpty
    let was := before.any (fun x => x.lp == l.lp && x.veiled)
    let now := applied.contains l.lp
    let s := if on != was || (on && now) then s.veilRec l on now false frame else s
    let s := s.putLayer { l with veiled := on }
    s.setFlds [(F.FG_LP_STAT_VIS_TILES l.lp, p.1.length), (F.FG_LP_STAT_VEILED l.lp, on.toNat), (F.FG_LP_STAT_CAUSE l.lp, l.cause),
      (F.FG_LP_AGE_AGE l.lp, l.age)]) s
  let veiled := (es.filter entryVeiled).length
  let s := s.setFlds [(F.FG_HEAD_STAT_VEILED h, veiled), (F.FG_HEAD_MAXAGE_AGE h, entryMaxAge es)]
  s.updHd h (fun x => { x with amap := es, veil := ls.filterMap (fun l => l.veilItem tx), prevVeil := x.veil, veiled := veiled,
                               maxAge := entryMaxAge es, hurt := [], prevHurt := x.hurt, badTiles := [], prevBad := x.badTiles,
                               pals := [], prevPals := x.pals })

end Sys2Proof.Machine
end

