-- ==== Sys2Proof/Machine/Writeback.lean ====
section
/-!
DEFINITION. The writeback ports WB0 to WB7 (R294 to R299, R302): frames of a head written to memory with their sidecar.
Readings and choices beyond the spec's plain words: log entries 17 and 55.
-/
namespace Sys2Proof.Machine

def State.wb (s : State) (w : Nat) : WbSt := Tbl.get (fun _ => {}) s.wbs w
def State.setWb (s : State) (w : Nat) (x : WbSt) : State := { s with wbs := Tbl.set (fun _ => {}) s.wbs w x }
def State.updWb (s : State) (w : Nat) (f : WbSt → WbSt) : State := s.setWb w (f (s.wb w))

/-- Reduction factor: SIZE 3 is not listed and acts as its reset value (R5). -/
def State.wbF (s : State) (w : Nat) : Nat := let z := s.fld (F.COMP_WB_CTL_SIZE w); if z = 1 then 2 else if z = 2 then 4 else 1
def State.wbHead (s : State) (w : Nat) : Nat := s.fld (F.COMP_WB_CTL_HEAD w)
def State.wbW (s : State) (w : Nat) : Nat := s.hact (s.wbHead w) / s.wbF w
def State.wbH (s : State) (w : Nat) : Nat := s.vact (s.wbHead w) / s.wbF w
def State.wbTen (s : State) (w : Nat) : Bool := s.bit (F.COMP_WB_CTL_TEN_BIT w)
def State.wbSlots (s : State) (w : Nat) : Nat := max 1 (min 32 (s.fld (F.COMP_WB_CFG_SLOTS w)))
def State.wbPitch (s : State) (w : Nat) : Nat := s.fld (F.COMP_WB_CFG_PITCH w) * 256
def State.wbSlot (s : State) (w f : Nat) : Nat :=
  s.fld (F.COMP_WB_LO_ADDR w) * 2 ^ 12 + s.fld (F.COMP_WB_HI_ADDR w) * 2 ^ 32 + f % s.wbSlots w * (s.fld (F.COMP_WB_STRIDE_SIZE w) * 4096)
def State.wbSide (s : State) (w f : Nat) : Nat := s.wbSlot w f + s.fld (F.COMP_WB_SIDE_SIZE w) * 4096
def State.wbFence (s : State) (w : Nat) : Nat := s.fld (F.COMP_WB_FENCE_LO_ADDR w) * 8 + s.fld (F.COMP_WB_FENCE_HI_ADDR w) * 2 ^ 32
/-- The size limits of R214. -/
def frameSizeOk (w h : Nat) : Bool :=
  w % 2 == 0 && h % 2 == 0 && 128 ≤ w && w ≤ 4096 && 128 ≤ h && h ≤ 2160
/-- R296 on the head's geometry. -/
def State.wbFits (s : State) (w : Nat) : Bool :=
  s.hact (s.wbHead w) % s.wbF w == 0 && s.vact (s.wbHead w) % s.wbF w == 0 && frameSizeOk (s.wbW w) (s.wbH w)

/-- R297: the frame is abandoned with error bit ABANDON or REFUSED. -/
def State.wbAbandon (s : State) (w : Nat) (refused : Bool) : State :=
  let s := s.updWb w (fun x => { x with frame := none, sums := [], lines := 0, chroma := none, entries := [], last := none })
  (if refused then s.setBit (F.COMP_WB_ERR_REFUSED w) true else s.setBit (F.COMP_WB_ERR_ABANDON w) true).bump (F.COMP_WB_ABANDON_COUNT w)

/-- The result of a write: the port goes on, or abandons its frame. -/
def wbAfter (w : Nat) (p : State × Bool) : State := if p.2 then p.1 else p.1.wbAbandon w true
/-- A port goes on with its frame, if it still writes one. -/
def State.ifWb (s : State) (w : Nat) (f : Nat → State) : State :=
  match (s.wb w).frame with
  | some n => f n
  | none => s

/-- The sidecar header (R215). -/
def State.wbHeader (s : State) (w frame : Nat) : List Byte :=
  let h := s.wbHead w
  slice (leBytes 6 frame ++ leBytes 2 0 ++ leBytes 12 (nsTriple (s.curPres h)) ++ leBytes 1 h ++ leBytes 1 (s.hd h).certDip.toNat ++
    leBytes 2 (ceilDiv (s.wbW w) 32) ++ leBytes 2 (ceilDiv (s.wbH w) 32)) 0 32

/-- The frame whose latch line this is begins: the header is written with FRAME zero (R295 step 1). -/
def State.wbLatch (s : State) (w : Nat) : State :=
  let f := s.curFrame (s.wbHead w)
  let wrote := (s.wb w).last == some ((f + 2 ^ 48 - 1) % 2 ^ 48, s.hact (s.wbHead w), s.vact (s.wbHead w))
  if !s.wbFits w then
    (s.updWb w (fun x => { x with frame := some f })).wbAbandon w false |>.setBit (F.COMP_WB_ERR_CFG w) true
  else
    let s := s.setWb w { frame := some f, clean := wrote && !(s.hd (s.wbHead w)).commit }
    wbAfter w (s.writeTil (0x28 + w) 2 (s.wbSide w f) (s.wbHeader w 0))
/-- The ports that a head feeds. -/
def State.portsOf (s : State) (h : Nat) : List Nat :=
  (List.range 8).filter (fun w => s.bit (F.COMP_WB_CTL_EN w) && s.wbHead w == h)

/-- R294: one sample as stored. -/
def wbStore (ten : Bool) (v : Nat) : List Byte := if ten then leBytes 2 v else leBytes 1 (min 255 ((v + 2) / 4))

/-- A row of the reduced frame, as [Y′, Cb, Cr], is written; every second one with its chroma row. -/
def State.wbRow (s : State) (w row : Nat) (yuv : List (List Nat)) : State :=
  s.ifWb w (fun f =>
    let ten := s.wbTen w
    let base := s.wbSlot w f
    let s := wbAfter w (s.writeRow (0x28 + w) (base + row * s.wbPitch w) (yuv.flatMap (fun p => wbStore ten (p.getD 0 0))))
    s.ifWb w (fun _ =>
      match (s.wb w).chroma with
      | none => s.updWb w (fun x => { x with chroma := some yuv })
      | some up =>
        let n := yuv.length
        let at' (r : List (List Nat)) (i : Int) (c : Nat) : Nat := (r.getD (clampTo 0 (n - 1) i) []).getD c 0
        let one (i c : Nat) : Nat :=
          ([up, yuv].foldl (fun a r => a + at' r (2 * (i : Int) - 1) c + 2 * at' r (2 * (i : Int)) c + at' r (2 * (i : Int) + 1) c) 0 + 4) / 8
        let d := (List.range (n / 2)).flatMap (fun i => wbStore ten (one i 1) ++ wbStore ten (one i 2))
        let s := s.updWb w (fun x => { x with chroma := none })
        wbAfter w (s.writeRow (0x28 + w) (base + s.fld (F.COMP_WB_LUMA_SIZE w) * 4096 + row / 2 * s.wbPitch w) d)))

/-- R327: the veil of the tiles `bad`, each from its line on, covers pixel (x, y). -/
def badAt (bad : List (Nat × Nat)) (tx x y : Nat) : Bool := bad.any (fun p => p.1 == y / 32 * tx + x / 32 && p.2 ≤ y)
/-- R332: what the veil draws at (x, y) in this frame and the previous one is the same: no veil, one pair, or glyph pixels drawn in one colour. -/
def HeadSt.veilSame (x : HeadSt) (tx px py : Nat) : Bool :=
  let a := veilPalette x.veil tx px py (badAt x.badTiles tx px py)
  let b := veilPalette x.prevVeil tx px py (badAt x.prevBad tx px py)
  match a, b with
  | some i, some j =>
    if 4 ≤ i && 4 ≤ j then (x.pals.getD py []).getD (i - 4) 0 == (x.prevPals.getD py []).getD (j - 4) 0
    else i == j
  | none, none => true
  | _, _ => false

/-- R298: the entries of written tile row `r`, whose head tiles have all been scanned. -/
def State.wbEntries (s : State) (w r : Nat) : List Nat :=
  let h := s.wbHead w
  let x := s.hd h
  let f := s.wbF w
  let tx := s.tilesX h
  let ty := s.tilesY h
  let calm (c : Nat) : Bool :=
    let reg : Rect := ⟨32 * f * c, 32 * f * r, min (32 * f) (s.hact h - 32 * f * c), min (32 * f) (s.vact h - 32 * f * r)⟩
    (s.wb w).clean && !(x.changed.any (fun q => q.meets reg)) &&
      !((reg.tiles tx).any (fun t => x.hurt.contains t || x.prevHurt.contains t)) &&
      (span reg.y reg.h).all (fun py => (span reg.x reg.w).all (fun px =>
        x.veilSame tx px py))
  (List.range (ceilDiv (s.wbW w) 32)).map (fun c =>
    let ts := (span (f * r) (min f (ty - f * r))).flatMap (fun j => (span (f * c) (min f (tx - f * c))).map (fun i => j * tx + i))
    let es := ts.map (fun t => if x.badTiles.any (·.1 == t) || x.portBad.contains t then 2 ^ 48 else x.amap.getD t 0)
    let age := es.foldl (fun m e => if bits e 30 30 == 1 then max m (bits e 29 0) else m) 0
    let veiled := es.any entryVeiled
    let damage := !(calm c && (c = 0 || calm (c - 1)))
    age + veiled.toNat * 2 ^ 30 + damage.toNat * 2 ^ 31)

/-- One scanned line of 12-bit R′G′B′ pixels reaches port `w`. -/
def State.wbLine (s : State) (w y : Nat) (px : List (List Nat)) : State :=
  let f := s.wbF w
  s.ifWb w (fun _ =>
    let n := s.wbW w
    let cur := (List.range n).map (fun i => (List.range 3).map (fun c =>
      ((px.drop (f * i)).take f).foldl (fun a p => a + p.getD c 0) 0))
    let old := (s.wb w).sums
    let sums := if old.isEmpty then cur else (old.zip cur).map (fun p => (p.1.zip p.2).map (fun q => q.1 + q.2))
    let k := (s.wb w).lines + 1
    let s :=
      if k < f then s.updWb w (fun x => { x with sums := sums, lines := k })
      else
        let s := s.updWb w (fun x => { x with sums := [], lines := 0 })
        s.wbRow w (y / f) (sums.map (fun p => rgbToYuv (p.map (fun v => (v + f * f / 2) / (f * f)))))
    if (y + 1) % (32 * f) = 0 || y + 1 = s.vact (s.wbHead w) then
      s.ifWb w (fun _ => s.updWb w (fun x => { x with entries := x.entries ++ s.wbEntries w (y / (32 * f)) }))
    else s)

/-- R295 steps 3 to 5: sidecar entries, header with F, fence. -/
def State.wbEnd (s : State) (w : Nat) : State :=
  s.ifWb w (fun f =>
    let side := s.wbSide w f
    let s := wbAfter w (s.writeRow (0x28 + w) (side + 32) ((s.wb w).entries.flatMap (leBytes 4)))
    s.ifWb w (fun _ =>
      let s := wbAfter w (s.writeTil (0x28 + w) 2 side (s.wbHeader w f))
      s.ifWb w (fun _ =>
        let s := wbAfter w (s.writeFence (0x28 + w) (s.wbFence w) f)
        s.ifWb w (fun _ =>
          let s := s.setReg64 (R.COMP_WB_LAST_LO w) (R.COMP_WB_LAST_HI w) f
          s.updWb w (fun x => { x with frame := none, last := some (f, s.hact (s.wbHead w), s.vact (s.wbHead w)), entries := [] })))))

/-- The head stops or is reset: frames in progress are abandoned, and every tile of the first frame after it is damaged (R297, R302). -/
def State.wbStop (s : State) (h : Nat) : State :=
  (s.portsOf h).foldl (fun s w => (s.ifWb w (fun _ => s.wbAbandon w false)).updWb w (fun x => { x with last := none })) s

/-- COMP_WB_CTL_w (R296, R302). -/
def State.wbCtl (w : Nat) (a : Admit) : State :=
  let t := a.plain (R.COMP_WB_CTL w)
  let was := a.st.bit (F.COMP_WB_CTL_EN w)
  if was && ((t.reg (R.COMP_WB_CTL w)) ^^^ (a.st.reg (R.COMP_WB_CTL w))).toNat % 2 ^ 31 ≠ 0 then a.st.setBit (F.COMP_WB_ERR_CFG w) true
  else if t.bit (F.COMP_WB_CTL_EN w) && !was then
    if !t.wbFits w || t.fld (F.COMP_WB_CFG_SLOTS w) < 2 || t.headState (t.wbHead w) == 0 then
      (t.setBit (F.COMP_WB_CTL_EN w) false).setBit (F.COMP_WB_ERR_CFG w) true
    else t.setWb w {}
  else t
/-- WB_ENABLE (R296). -/
def execWbEnable (m : Mst) (w : Fin 8) (v : Word) (s : State) : Out :=
  .next (s.runReg m.toNat (R.COMP_WB_CTL w) v.toNat (State.wbCtl w))
/-- The other registers of a port while EN is 1 (R302). -/
def State.wbCfg (w off : Nat) (a : Admit) : State :=
  let t := a.plain off
  if a.st.bit (F.COMP_WB_CTL_EN w) && t.reg off ≠ a.st.reg off then a.st.setBit (F.COMP_WB_ERR_CFG w) true else t

end Sys2Proof.Machine
end

