-- ==== Sys2Proof/Machine/Encode.lean ====
section
/-!
DEFINITION. Encode contexts and engines (R213 to R243): jobs, damage, the coded picture buffer model, rate control and carried tiles, the
NAL units, the output ring, retirement and the registers. What the standard makes of a tile is Config's.
Readings and choices beyond the spec's plain words: log entries 13, 19, 50 and 51.
-/
namespace Sys2Proof.Machine

def State.ec (s : State) (i : Nat) : EncCtx := Tbl.get (fun _ => {}) s.ectx i
def State.setEc (s : State) (i : Nat) (c : EncCtx) : State := { s with ectx := Tbl.set (fun _ => {}) s.ectx i c }
def State.updEc (s : State) (i : Nat) (f : EncCtx → EncCtx) : State := s.setEc i (f (s.ec i))
def State.ee (s : State) (n : Nat) : EncEng := Tbl.get (fun _ => {}) s.eeng n
def State.setEe (s : State) (n : Nat) (e : EncEng) : State :=
  { s with eeng := Tbl.set (fun _ => {}) s.eeng n e }.setFld (F.ENC_ENG_STATUS_QLEVEL n) e.queue.length
def State.updEe (s : State) (n : Nat) (f : EncEng → EncEng) : State := s.setEe n (f (s.ee n))

/-! ### Registers of a context -/

def State.encState (s : State) (i : Nat) : Nat := s.fld (F.ENC_CTX_STATUS_STATE i)
def State.setEncState (s : State) (i v : Nat) : State := s.setFld (F.ENC_CTX_STATUS_STATE i) v
def State.encEngine (s : State) (i : Nat) : Nat := s.fld (F.ENC_CTX_CTL_ENGINE i)
def State.encW (s : State) (i : Nat) : Nat := s.fld (F.ENC_CTX_SRC_GEOM_WIDTH i)
def State.encH (s : State) (i : Nat) : Nat := s.fld (F.ENC_CTX_SRC_GEOM_HEIGHT i)
def State.encTx (s : State) (i : Nat) : Nat := ceilDiv (s.encW i) 32
def State.encN (s : State) (i : Nat) : Nat := s.encTx i * ceilDiv (s.encH i) 32
def State.encSlots (s : State) (i : Nat) : Nat := max 1 (min 32 (s.fld (F.ENC_CTX_SRC_CFG_SLOTS i)))
def State.encSlot (s : State) (i f : Nat) : Nat :=
  s.fld (F.ENC_CTX_SRC_LO_ADDR i) * 2 ^ 12 + s.fld (F.ENC_CTX_SRC_HI_ADDR i) * 2 ^ 32 +
    f % s.encSlots i * (s.fld (F.ENC_CTX_SRC_STRIDE_SIZE i) * 4096)
def State.encSide (s : State) (i f : Nat) : Nat := s.encSlot i f + s.fld (F.ENC_CTX_SRC_SIDE_SIZE i) * 4096
def State.encWork (s : State) (i : Nat) : Nat := s.fld (F.ENC_CTX_WORK_LO_ADDR i) * 2 ^ 12 + s.fld (F.ENC_CTX_WORK_HI_ADDR i) * 2 ^ 32
def State.outBase (s : State) (i : Nat) : Nat := s.fld (F.ENC_CTX_OUT_LO_ADDR i) * 2 ^ 12 + s.fld (F.ENC_CTX_OUT_HI_ADDR i) * 2 ^ 32
def State.outSize (s : State) (i : Nat) : Nat := max 1 (s.fld (F.ENC_CTX_OUT_SIZE_SIZE i) * 4096)
def State.outWr (s : State) (i : Nat) : Nat := s.fld (F.ENC_CTX_OUT_WR_OFF i) * 32
def State.outRd (s : State) (i : Nat) : Nat := s.fld (F.ENC_CTX_OUT_RD_OFF i) * 32
/-- NUM, A and G of R227, R230. -/
def State.encNum (s : State) (i : Nat) : Nat := max 1 (s.fld (F.ENC_CTX_SRATE_NUM i))
def State.encA (s : State) (i : Nat) : Nat := s.fld (F.ENC_CTX_RATE_KBPS i) * 1000 * s.fld (F.ENC_CTX_SRATE_DEN i)
def State.encB (s : State) (i : Nat) : Nat := s.fld (F.ENC_CTX_CPB_KBIT i) * 1000
def State.encG (s : State) (i : Nat) : Nat := min (s.fld (F.ENC_CTX_TARGET_KBIT i)) (s.fld (F.ENC_CTX_CPB_KBIT i)) * 1000
def State.encStep (s : State) (i : Nat) : Nat := s.fld (F.ENC_CTX_GOP_STEP i)
def State.qpMax (s : State) (i : Nat) : Nat := s.fld (F.ENC_CTX_QP_QP_MAX i)
def State.qpMin (s : State) (i : Nat) : Nat := min (s.fld (F.ENC_CTX_QP_QP_MIN i)) (s.qpMax i)
/-- S of R233. -/
def State.tileBound (s : State) (i : Nat) (idr : Bool) : Nat :=
  if s.bit (F.ENC_CTX_CTL_CODEC i) then (if idr then 200 else 40) else if idr then 160 else 24

/-- An ENC_CTX_ERR bit is set; a change from 0 to 1 shows on the bound engine (R242). -/
def State.encErr (s : State) (i bit : Nat) : State :=
  if s.bitAt (F.ENC_CTX_ERR_ERR i) bit then s
  else (s.putBitAt (F.ENC_CTX_ERR_ERR i) bit true).putBitAt (F.ENC_ENG_ERR_ERR (s.encEngine i)) 4 true

/-! ### Jobs (R217, R218) -/

def State.encJob (s : State) (i : Nat) (d : List Byte) : EncJob :=
  let at' (o n : Nat) : Nat := leNat (slice d o n)
  let fence := at' 8 6
  { ctx := i, frame := at' 0 6, fence := fence, wait := at' 16 6, waitValue := at' 24 6, force := at' 32 1 % 2 == 1,
    gx := (BitVec.ofNat 16 (at' 34 2)).toInt, gy := (BitVec.ofNat 16 (at' 36 2)).toInt,
    ok := s.fenceOk fence && at' 6 2 == 0 && at' 14 2 == 0 && at' 22 2 == 0 && at' 30 2 == 0 && at' 32 1 < 2 && at' 33 1 == 0 &&
      (slice d 38 26).all (· == 0), clk := s.time.clk }
/-- Jobs merge into one (R240). -/
def mergeEnc (b : Option EncJob) (j : EncJob) : Option EncJob :=
  match b with
  | none => some j
  | some x =>
    let t := if j.frame < x.frame then x else j
    some { t with force := x.force || j.force }

/-- A job joins the queue of the context's engine. -/
def State.encQueue (s : State) (n : Nat) (j : EncJob) : State :=
  let s := s.updEe n (fun e => { e with queue := e.queue ++ [j] })
  if s.encState j.ctx = 1 then s.setEncState j.ctx 2 else s

/-- A job leaves the queue of engine `n`. -/
def State.encGone (s : State) (n ix : Nat) : State :=
  match (s.ee n).queue[ix]? with
  | none => s
  | some j =>
    let s := s.updEe n (fun e => { e with queue := e.queue.eraseIdx ix, turn := if ix < e.turn then e.turn - 1 else e.turn })
    let s := s.sample 4 n ((s.time.clk - j.clk) * 2)
    if s.encState j.ctx = 0 || s.encState j.ctx = 5 then s
    else s.setEncState j.ctx (if (s.ee n).queue.any (fun x => x.ctx == j.ctx) then 2 else 1)

/-- The word at WAIT meets WAIT_VALUE; the engine reads it as master 0x20 + n. -/
def State.waitMet (s : State) (n : Nat) (j : EncJob) : State × Bool :=
  if j.wait = 0 then (s, true)
  else if s.waits (s.region j.wait) then (s, false)
  else
    let r := s.read (0x20 + n) j.wait 8
    if r.bus then (r.st, false)
    else if r.poisoned then (r.noted (0x20 + n) j.wait 5, false)
    else (r.st, decide (j.waitValue ≤ leNat r.data))

/-- The first job in rotation that can start; discarded jobs leave first (R185, R218). -/
def State.encPick (s : State) (n : Nat) : Nat → Nat → State
  | 0, _ => s
  | f + 1, k =>
    let e := s.ee n
    let len := e.queue.length
    if len ≤ k then s
    else
      let ix := (e.turn + k) % len
      match e.queue[ix]? with
      | none => s
      | some j =>
        let i := j.ctx
        if (e.queue.take ix).any (fun x => x.ctx == i) || (s.ec i).held.isSome then s.encPick n f (k + 1)
        else if !s.bit (F.ENC_CTX_CTL_EN i) then (s.encGone n ix).encPick n f k
        else if !j.ok || (match (s.ec i).core.fp with
            | some p => decide (j.frame ≤ p)
            | none => false) then ((s.encErr i 0).encGone n ix).encPick n f k
        else
          let w := s.waitMet n j
          let s := w.1
          if w.2 then
            let s := s.updEe n (fun e => { e with turn := ix, cur := some i, since := s.time.clk })
            (s.setFlds [(F.ENC_ENG_STATUS_STATE n, 2), (F.ENC_ENG_STATUS_CTX n, i), (F.ENC_ENG_STATUS_CTX_VALID n, 1)]).setEncState i 3
          else s.encPick n f (k + 1)
/-- ENC_JOB_START (R218). -/
def State.encSched (s : State) (n : Nat) : State :=
  if s.fld (F.ENC_ENG_STATUS_STATE n) = 1 && s.bit (F.ENC_ENG_CTL_EN n) && (s.ee n).cur.isNone then s.encPick n 40 0 else s
def execEncJobStart (n : Fin 8) (s : State) : Out := .next (s.ifRun fun s => s.encSched n)

/-! ### Sidecars and sources (R215, R216, R219, R238) -/

/-- A sidecar as read: FRAME, PRES, HEAD, DIP, and each tile's entry with whether it is poisoned. -/
structure Sidecar where
  frame : Nat
  pres : Nat
  head : Nat
  dip : Bool
  bad : Bool
  entries : List (Nat × Bool)

def State.readSide (s : State) (n i f : Nat) : State × Sidecar :=
  let a := s.encSide i f
  let k := s.encN i
  let m := 0x20 + n
  let h := s.read m a 32
  let s := if h.poisoned then (h.noted m a 5).encErr i 2 else h.st
  let r := s.read m (a + 32) (4 * k)
  let s := if r.poisoned then (r.noted m (a + 32) 5).encErr i 2 else r.st
  let d := h.dmaBytes a 32
  let t := r.dmaBytes (a + 32) (4 * k)
  (s, { frame := leNat (slice d 0 6), pres := leNat (slice d 8 12), head := leNat (slice d 20 1), dip := leNat (slice d 21 1) % 2 == 1,
        bad := h.poisoned, entries := (List.range k).map (fun j => (leNat (slice t (4 * j) 4), ((r.bad.drop (4 * j)).take 4).any id)) })

/-- A row of source samples at `a`, as it is coded (R221); the result tells whether it met poison. -/
def State.readSrc (s : State) (n i a k : Nat) : State × List Nat × Bool :=
  let ten := s.bit (F.ENC_CTX_SRC_CFG_TEN_BIT i)
  let b := if ten then 2 else 1
  let r := s.read (0x20 + n) a (k * b)
  let d := r.dmaBytes a (k * b)
  (if r.poisoned then (r.noted (0x20 + n) a 5).encErr i 2 else r.st,
   (List.range k).map (fun x => encSample (s.bit (F.ENC_CTX_CTL_CODEC i)) ten (leNat (slice d (x * b) b))), r.poisoned)

/-- Where tile `t` lies in the picture. -/
def State.tileAt (s : State) (i t : Nat) : SrcTile :=
  let x := t % s.encTx i * 32
  let y := t / s.encTx i * 32
  ⟨x, y, min 32 (s.encW i - x), min 32 (s.encH i - y), [], []⟩

/-- Tile `t` of source frame `f`, as it is coded; the result tells whether a fetch of it met poison. -/
def State.readTile (s : State) (n i f t : Nat) : State × SrcTile × Bool :=
  let b := if s.bit (F.ENC_CTX_SRC_CFG_TEN_BIT i) then 2 else 1
  let at' := s.tileAt i t
  let base := s.encSlot i f
  let pitch := s.fld (F.ENC_CTX_SRC_CFG_PITCH i) * 256
  let rows (s : State) (l : List Nat) : State × List Nat × Bool := l.foldl (fun (p : State × List Nat × Bool) a =>
    let r := p.1.readSrc n i a at'.w
    (r.1, p.2.1 ++ r.2.1, p.2.2 || r.2.2)) (s, [], false)
  let lum := rows s ((span at'.y at'.h).map (fun r => base + r * pitch + at'.x * b))
  let chr := rows lum.1 ((span (at'.y / 2) (at'.h / 2)).map (fun r => base + s.fld (F.ENC_CTX_SRC_LUMA_SIZE i) * 4096 + r * pitch + at'.x * b))
  (chr.1, { at' with luma := lum.2.1, chroma := chr.2.1 }, lum.2.2 || chr.2.2)

/-- The bytes of a reference picture, and where the work area keeps the one in half `h` (R239). -/
def State.halfSize (s : State) (i : Nat) : Nat := ceilDiv (3 * s.encW i * s.encH i) 64 * 32
def State.workHalf (s : State) (i h : Nat) : Nat := s.encWork i + h % 2 * s.halfSize i

/-- Whether the search of tile `t`, or its prediction with vector zero, would read a poisoned code word of the reference (R238). -/
def State.refBad (s : State) (n i h t : Nat) (search : Bool) : State × Bool :=
  (Config.workSpans search (s.bit (F.ENC_CTX_CTL_CODEC i)) (s.encW i) (s.encH i) t).foldl (fun (q : State × Bool) a =>
    let o := q.1.workHalf i h + a.1 % max 1 (q.1.halfSize i)
    let x := q.1.read (0x20 + n) o (min a.2 (q.1.halfSize i - a.1 % max 1 (q.1.halfSize i)))
    (x.noted (0x20 + n) o 5, q.2 || x.poisoned)) (s, false)

/-! ### Rate control (R227 to R233) -/

/-- What a frame is coded from. -/
structure EncPlan where
  idr : Bool
  full : Int
  cap : Nat
  floor : Nat
  target : Int
  u0 : Nat
  bound : Nat

def State.encPlan (s : State) (i : Nat) (idr : Bool) (full : Int) (delta u0 : Nat) : EncPlan :=
  let num : Int := s.encNum i
  let a : Int := s.encA i
  let xb : Int := full / num
  let cap := xb.toNat
  let bound := s.tileBound i idr
  let floor := u0 + s.encN i * bound
  let t : Int := (8 * (delta : Int) * a + (xb - (s.encG i : Int)) * num).tdiv (8 * num)
  let t := if idr then 3 * t else t
  let t := min (max t ((delta : Int) * a / (4 * num))) ((cap : Int) - (floor : Int))
  ⟨idr, full, cap, floor, t, u0, bound⟩

/-- round(6 × log2(e / t)), the logarithm held to 1/16 (R230); 9 or −9 where it lies beyond the limit of 6. -/
def qpLog (e t : Nat) : Int :=
  let a := e ^ 16 * 2 ^ 24
  let steps := (List.range 49).filter (fun k => decide (2 ^ k * t ^ 16 ≤ a))
  let k : Int := (steps.length : Int) - 25
  let exact := decide (2 ^ (steps.length - 1) * t ^ 16 = a)
  let l := if exact then k else k + (Config.logUp e t).toNat
  let r := (6 * l) % 16
  if r < 8 || (r = 8 && !Config.logTie e t) then 6 * l / 16 else 6 * l / 16 + 1

/-- A frame being coded tile by tile. -/
structure EncRun where
  u : Nat
  qp : Int
  spent : Bool := false
  cost : Nat := 0
  trials : Nat := 0
  skips : Nat := 0
  carried : Nat := 0
  seen : Nat := 0
  tiles : List EncTile := []
  coder : List Nat := []
  vecs : VecMap := []
  outs : List EncTileOut := []
  refBad : Bool := false
  kept : List Bool := []

/-- What every tile of a frame is coded from. -/
structure EncFrame where
  ctx : Nat
  frame : Nat
  plan : EncPlan
  pres : Nat
  damage : List Bool
  sideBad : List Bool
  entries : List (Nat × Bool)
  core : EncCore
  g : Vec
  damaged : Nat

/-- A tile coded without a trial: under R226, where it shows exactly the samples of the previous picture, or in place of its trial on an IDR
(R233); it costs at most the bound. -/
def EncRun.replace (r : EncRun) (f : EncFrame) (h264 : Bool) (w qpMax : Nat) (t : SrcTile) : EncTileOut :=
  let o := Config.codeTile { h264 := h264, kind := if f.plan.idr then .dc else .skip, qp := qpMax, col := t.x / 32, row := t.y / 32, luma := [], chroma := [],
                             ref := f.core.ref, refC := f.core.refC, modes := if f.plan.idr then [] else zeroModes h264 t r.vecs, coder := r.coder }
  let same (l : List Nat) (y h : Nat) : List Nat := (span y h).flatMap (fun r => (span t.x t.w).map (fun x => l.getD (r * w + x) 0))
  { o with bits := min o.bits f.plan.bound,
           luma := if f.plan.idr then o.luma else same f.core.ref t.y t.h,
           chroma := if f.plan.idr then o.chroma else same f.core.refC (t.y / 2) (t.h / 2) }

/-- R226, R232, R235, R238: tile `t` of a frame, on trial where it is damaged and the frame is not SPENT, else under R226, or in place of a trial
on an IDR; `left` tiles follow it. A tile whose search or prediction would read a poisoned word of the reference is tried intra; where that
does not fit, or the frame is SPENT, it stays under R226 (DESIGN CHOICE, log entry 51). -/
def State.encTile (s : State) (n : Nat) (f : EncFrame) (r : EncRun) (t left : Nat) : State × EncRun :=
  let i := f.ctx
  let h264 := s.bit (F.ENC_CTX_CTL_CODEC i)
  let p := f.plan
  let want := p.idr || f.damage.getD t false
  let side := f.sideBad.getD t false
  let may := !side && !r.spent
  let rd := if want && may then s.readTile n i f.frame t else (s, s.tileAt i t, false)
  let first := want && may && !rd.2.2
  let rb := if p.idr then (rd.1, false) else rd.1.refBad n i f.core.half t first
  let rd := if rb.2 && !want && may then rb.1.readTile n i f.frame t else (rb.1, rd.2)
  let src := rd.2.1
  let bad := side || rd.2.2
  let try' := (want || rb.2) && may && !bad
  let s := rd.1
  let searched := try' && !p.idr && !rb.2
  let m := if searched then searchTile h264 r.qp.toNat f.g f.core.ref (s.encW i) (s.encH i) f.core.vecs r.coder r.outs src r.vecs
    else ([], r.vecs ++ tileVecs src none)
  let o := Config.codeTile { h264 := h264, kind := if searched then .trial else .intra, qp := r.qp.toNat, col := src.x / 32, row := src.y / 32, luma := src.luma,
                             chroma := src.chroma, ref := f.core.ref, refC := f.core.refC, modes := m.1, coder := r.coder }
  let entry := (f.entries.getD t (0, false)).1
  let now : EncTile := { age := some (bits entry 29 0), pres := f.pres, veiled := bits entry 30 30 == 1 }
  let r := { r with refBad := r.refBad || rb.2 }
  if try' && decide (r.u + o.bits + left * p.bound ≤ p.cap) then
    (s, { r with u := r.u + o.bits, cost := r.cost + o.bits, trials := r.trials + 1, seen := r.seen + want.toNat, coder := o.coder, vecs := m.2,
                 outs := r.outs ++ [o], tiles := r.tiles ++ [now], kept := r.kept ++ [false] })
  else
    let o := r.replace f h264 (s.encW i) (s.qpMax i) src
    let hold := want || bad
    let old : EncTile := f.core.tiles.getD t {}
    (s, { r with u := r.u + o.bits, spent := r.spent || try', trials := r.trials + try'.toNat, skips := r.skips + (!p.idr).toNat,
                 carried := r.carried + (hold && !p.idr).toNat, seen := r.seen + want.toNat, coder := o.coder,
                 vecs := r.vecs ++ tileVecs src (if p.idr then none else some (0, 0)), outs := r.outs ++ [o],
                 kept := r.kept ++ [!p.idr],
                 tiles := r.tiles ++ [if p.idr then { age := none, pres := f.pres, redo := true }
                                      else if hold then { old with carried := true, redo := false } else now] })

/-- R231: the QP after a tile row, for `d` damaged tiles in the frame. -/
def EncRun.row (r : EncRun) (p : EncPlan) (d qmin qmax : Nat) : EncRun :=
  if d = 0 then r
  else
    let u : Int := (r.u : Int) * (d : Int)
    let t : Int := p.target * (r.seen : Int)
    let q : Int := if 11 * t < 10 * u then 2 else if t < u then 1 else if 10 * u < 9 * t then -1 else 0
    { r with qp := max (qmin : Int) (min (qmax : Int) (r.qp + q)) }

/-- Tiles in raster order. -/
def State.encTiles (s : State) (n : Nat) (f : EncFrame) (r : EncRun) : State × EncRun :=
  let k := s.encN f.ctx
  let tx := max 1 (s.encTx f.ctx)
  (List.range k).foldl (fun (q : State × EncRun) t =>
    let x := q.1.encTile n f q.2 t (k - 1 - t)
    if (t + 1) % tx = 0 then (x.1, x.2.row f.plan f.damaged (x.1.qpMin f.ctx) (x.1.qpMax f.ctx)) else x) (s, r)

/-! ### NAL units (R220, R228, R229, R236, R237) -/

/-- The header of a prefix SEI NAL unit, of a slice, of filler. -/
def seiHead (h264 : Bool) : List Byte := if h264 then [0x06] else [0x4E, 0x01]
def sliceHd (h264 idr : Bool) : List Byte := if h264 then (if idr then [0x25] else [0x21]) else if idr then [0x28, 0x01] else [0x02, 0x01]

/-- An SEI NAL unit with one message. -/
def seiNal (h264 : Bool) (typ : Nat) (d : List Byte) : List Byte :=
  nal (seiHead h264) (leBytes 1 typ ++ leBytes 1 d.length ++ d ++ [0x80])
/-- R229: buffering period: initial removal delay floor(90,000 × G / R), offset 0; in H.265 after the sequence's number and the flags. -/
def bufferingSei (h264 : Bool) (g rate : Nat) : List Byte :=
  seiNal h264 0 (bitBytes ([1] ++ (if h264 then [] else [0, 0] ++ uBits 24 0) ++ uBits 24 (90000 * g / max 1 rate) ++ uBits 24 0))
/-- R229: picture timing: the removal delay, modulo the field's range, in H.265 less 1; output at once. -/
def timingSei (h264 : Bool) (delay : Nat) : List Byte :=
  seiNal h264 1 (bitBytes (uBits 24 (if h264 then delay else delay + 2 ^ 24 - 1) ++ uBits 24 0))
/-- "GRINIWA-VN3296-F". -/
def seiUuid : List Byte := [0x47, 0x52, 0x49, 0x4E, 0x49, 0x57, 0x41, 0x2D, 0x56, 0x4E, 0x33, 0x32, 0x39, 0x36, 0x2D, 0x46]
/-- MAX_AGE of R237 at presentation time `now` in ns; none where an age is unknown. -/
def maxAge (now : Nat) (ts : List EncTile) : Option Nat :=
  ts.foldl (fun (m : Option Nat) t => match m, t.age with
    | some m, some a => some (max m (min 0xFFFFFFFE (a + (now - t.pres) / 1000)))
    | _, _ => none) (some 0)
def freshSei (h264 idr spent : Bool) (sd : Sidecar) (frame : Nat) (ts : List EncTile) : List Byte :=
  let age := maxAge (tripleNs sd.pres) ts
  let body := leBytes 1 1 ++ leBytes 1 (idr.toNat + 2 * spent.toNat + 4 * sd.dip.toNat + 8 * age.isNone.toNat) ++ leBytes 1 sd.head ++ leBytes 1 0 ++
    leBytes 6 frame ++ leBytes 2 0 ++ leBytes 12 sd.pres ++ leBytes 4 (age.getD 0xFFFFFFFF) ++ leBytes 2 (ts.filter (·.carried)).length ++
    leBytes 2 (ts.filter (·.veiled)).length
  seiNal h264 5 (seiUuid ++ body)
/-- The bytes that the overhead of R230 counts for a freshness SEI: what its fields will say of the tiles is not known before they are coded,
and counts as zeros (DESIGN CHOICE, log entry 51). -/
def freshBytes (h264 idr : Bool) (sd : Sidecar) (frame : Nat) : Nat := (freshSei h264 idr false sd frame []).length
/-- A filler NAL unit of at least `bits` bits, start code included (R228). -/
def filler (h264 : Bool) (bits : Nat) : List Byte :=
  if bits = 0 then []
  else
    let hd : List Byte := if h264 then [0x0C] else [0x4C, 0x01]
    let n := max (hd.length + 4) (ceilDiv bits 8)
    startCode ++ hd ++ List.replicate (n - hd.length - 4) 0xFF ++ [0x80]

/-! ### The output ring (R222, R223, R239) -/

/-- The unit fits between OUT_WR and OUT_RD, which stay apart. -/
def State.outFits (s : State) (i n : Nat) : Bool :=
  let z := s.outSize i
  decide (ceilDiv n 32 * 32 + (s.outWr i + z - s.outRd i) % z < z)

/-- Whole code words into the ring from `o`; the first refused write ends it. -/
def State.outWrite (s : State) (n i o : Nat) (d : List Byte) : State × Bool :=
  let z := s.outSize i
  let d := slice d 0 (ceilDiv d.length 32 * 32)
  let k := min d.length (z - o % z)
  let p := s.writeTil (0x20 + n) (k + 1) (s.outBase i + o % z) (d.take k)
  if p.2 then p.1.writeTil (0x20 + n) (d.length + 1) (s.outBase i) (d.drop k) else p

/-- The engine's job for context `i` ends; `counted` that its frame was coded or dropped. -/
def State.encEnd (s : State) (n i : Nat) (counted : Bool) : State :=
  let s := if counted then (s.bump (F.ENC_ENG_FRAMES_COUNT n)).tele 0x0E n else s
  match (s.ee n).queue.findIdx? (fun j => j.ctx == i) with
  | some ix => s.encGone n ix
  | none => s

/-- R220: what the parameter sets of context `i` say. -/
def State.encParams (s : State) (i : Nat) : EncParams :=
  let h264 := s.bit (F.ENC_CTX_CTL_CODEC i)
  { h264 := h264, profile := if h264 then 100 else 2, level := s.fld (F.ENC_CTX_GOP_LEVEL i), depth := if h264 then 8 else 10, width := s.encW i,
    height := s.encH i, tick := (if h264 then 2 else 1) * s.fld (F.ENC_CTX_SRATE_DEN i), scale := s.encNum i, rate := s.fld (F.ENC_CTX_RATE_KBPS i),
    cpb := s.fld (F.ENC_CTX_CPB_KBIT i), cbr := !s.bit (F.ENC_CTX_CTL_RC i) }
/-- The NAL units ahead of the freshness SEI and the slice: parameter sets and buffering period on an IDR, picture timing on every access unit
(R220, R229). -/
def State.encAhead (s : State) (i frame : Nat) (idr : Bool) : List Byte :=
  let h264 := s.bit (F.ENC_CTX_CTL_CODEC i)
  (if idr then paramSets (s.encParams i) ++ bufferingSei h264 (s.encG i) (s.fld (F.ENC_CTX_RATE_KBPS i) * 1000) else []) ++
    timingSei h264 (if idr then 0 else (frame - (s.ec i).core.idrFrame) % 2 ^ 24)
/-- The slice header's bits and the entropy coder's state after it: start code, NAL header and at most 200 bits. -/
def State.encSlice (s : State) (i frame : Nat) (idr : Bool) (qp : Int) : Nat × List Nat :=
  let h := Config.sliceHead (s.bit (F.ENC_CTX_CTL_CODEC i)) idr qp.toNat frame
  (8 * (3 + (sliceHd (s.bit (F.ENC_CTX_CTL_CODEC i)) idr).length) + min 200 h.1, h.2)
/-- U0 of R230. -/
def State.encU0 (s : State) (i frame : Nat) (idr : Bool) (sd : Sidecar) (qp : Int) : Nat :=
  8 * ((s.encAhead i frame idr).length + (if s.bit (F.ENC_CTX_CTL_SEI i) then freshBytes (s.bit (F.ENC_CTX_CTL_CODEC i)) idr sd frame else 0)) +
    (s.encSlice i frame idr qp).1

/-- A coded unit is written, or refused, or waits for room. -/
def State.encPut (s : State) (n i : Nat) (u : EncUnit) : State :=
  if !s.outFits i u.data.length then
    ((s.updEc i (fun c => { c with held := some u })).setEncState i (if s.encState i = 0 then 0 else 4))
  else
    let s := s.updEc i (fun c => { c with held := none })
    let wr := s.outWr i
    let p := s.outWrite n i wr u.data
    if !p.2 then (p.1.encErr i 8).encEnd n i false
    else
      let s := (p.1.setFld (F.ENC_CTX_OUT_WR_OFF i) ((wr + ceilDiv u.data.length 32 * 32) % s.outSize i / 32)).bump (F.ENC_CTX_FRAMES_COUNT i)
      let s := s.updEc i (fun c => { c with core := u.core })
      let s := s.setFlds [(F.ENC_CTX_STATUS_QP_LAST i, u.qpLast), (F.ENC_CTX_STATUS_SPENT i, u.spent.toNat),
        (F.ENC_CTX_FULL_BITS i, (u.core.full / (s.encNum i : Int)).toNat)]
      let s := if u.carried = 0 then s else ((s.encErr i 3).bump (F.ENC_CTX_CARRIED_COUNT i) u.carried).tele 0x0F n u.carried
      let s := if s.bit (F.ENC_CTX_CTL_LINK i) then
          (let q := 20 + s.fld (F.ENC_CTX_CTL_QUAD i)
           s.updLink q (fun l => { l with units := l.units ++
             [{ ctx := i, off := wr, len := u.data.length, idr := u.idr, frame := u.frame, pres := leBytes 12 u.pres, sent := 0, started := false }] }))
        else s
      let f := s.writeFence (0x20 + n) u.fence u.frame
      (if f.2 then f.1 else f.1.encErr i 8).encEnd n i true

/-! ### A frame (R218, R219, R227 to R239) -/

/-- Fullness before removal (R227). -/
def State.fullBefore (s : State) (i : Nat) (newCvs : Bool) (delta : Nat) : Int :=
  if newCvs then (s.encG i * s.encNum i : Nat)
  else
    let x : Int := (s.ec i).core.full + (delta * s.encA i : Nat)
    if s.bit (F.ENC_CTX_CTL_RC i) then min ((s.encB i * s.encNum i : Nat) : Int) x else x

/-- The frame is dropped: its damage is carried whole, and so is a tile whose sidecar met poison. -/
def State.encDrop (s : State) (n i : Nat) (j : EncJob) (full : Int) (damage : List Bool) (newCvs due : Bool) : State :=
  let k := (damage.filter id).length
  let s := s.updEc i (fun c => { c with core := { c.core with
    fp := some j.frame, full := full, newCvs := newCvs, idrDue := due,
    tiles := (damage.zip (c.core.tiles ++ List.replicate damage.length {})).map (fun p => { p.2 with carried := p.2.carried || p.1 }) } })
  let s := (s.encErr i 4).setFld (F.ENC_CTX_FULL_BITS i) (full / (s.encNum i : Int)).toNat
  let s := if k = 0 then s else ((s.encErr i 3).bump (F.ENC_CTX_CARRIED_COUNT i) k).tele 0x0F n k
  let f := s.writeFence (0x20 + n) j.fence j.frame
  (if f.2 then f.1 else f.1.encErr i 8).encEnd n i true

/-- The engine's time runs on (R241, R242, R501). -/
def State.encBusy (s : State) (n ns : Nat) : State :=
  let t := (s.ee n).busyNs + ns
  (s.updEe n (fun e => { e with busyNs := t })).setFld (F.ENC_ENG_BUSY_COUNT n) (min (2 ^ 32 - 1) (t / 1000))
def State.encTime (s : State) (n i ns : Nat) : State :=
  let e := s.ee n
  (s.encBusy n (s.codecTime (ns + (if e.last.isSome && e.last ≠ some i then 20000 else 0)))).updEe n (fun e => { e with last := some i })

/-- The sidecars a job needs: of every frame since the last one coded or dropped, the newest last (R219). -/
def State.encSides (s : State) (n i frame : Nat) (frames : List Nat) : State × List (Nat × Sidecar) × Sidecar :=
  let sd := frames.foldl (fun (p : State × List (Nat × Sidecar)) f => let x := p.1.readSide n i f; (x.1, p.2 ++ [(f, x.2)])) (s, [])
  (sd.1, sd.2, ((sd.2.find? (fun e => e.1 == frame)).map (·.2)).getD ⟨0, 0, 0, false, false, []⟩)

/-- The reconstructed picture: a tile coded under R226 holds exactly the samples of the previous picture. -/
def State.encPicture (s : State) (i : Nat) (c : EncCore) (run : EncRun) : List Nat × List Nat :=
  let w := s.encW i
  let h := s.encH i
  let pic := Config.reconstruct (s.bit (F.ENC_CTX_CTL_CODEC i)) w h run.outs
  let keep (rows : Nat) (new old : List Nat) : List Nat := (List.range (w * rows)).map (fun k =>
    let t := k / w * (h / rows) / 32 * s.encTx i + k % w / 32
    if run.kept.getD t false then old.getD k 0 else new.getD k 0)
  (keep h pic.1 c.ref, keep (h / 2) pic.2 c.refC)

/-- The frame of job `j` is coded or dropped. -/
def State.encFrame (s : State) (n i : Nat) (j : EncJob) : State :=
  let c := (s.ec i).core
  let tiles := s.encN i
  let delta := match c.fp with
    | some p => j.frame - p
    | none => s.encStep i
  let far := c.fp.isSome && decide (s.encSlots i < delta)
  let sd := s.encSides n i j.frame (match c.fp with
    | some p => if far then [j.frame] else span (p + 1) delta
    | none => [j.frame])
  let s := sd.1
  let cur := sd.2.2
  let lapped := far || sd.2.1.any (fun p => p.2.bad || p.2.frame != p.1)
  let s := if lapped then s.encErr i 1 else s
  let old (t : Nat) : EncTile := c.tiles.getD t {}
  let ent (x : Sidecar) (t : Nat) : Nat × Bool := x.entries.getD t (0, false)
  let damage := (List.range tiles).map (fun t =>
    lapped || c.fp.isNone || (old t).carried || (old t).redo || sd.2.1.any (fun p => bits (ent p.2 t).1 31 31 == 1))
  let sideBad := (List.range tiles).map (fun t => sd.2.1.any (fun p => (ent p.2 t).2))
  -- kind of frame
  let jump := c.fp.isSome && !s.bit (F.ENC_CTX_CTL_RC i) && decide (delta ≠ s.encStep i)
  let s := if jump then s.encErr i 5 else s
  let newCvs := c.newCvs || jump
  let every := s.fld (F.ENC_CTX_GOP_IDR_INTERVAL i)
  let due := newCvs || c.idrDue || j.force || (every ≠ 0 && every ≤ c.sinceIdr)
  let full := s.fullBefore i newCvs delta
  let qi : Int := s.fld (F.ENC_CTX_QP_QP_I i)
  let pi := s.encPlan i true full delta (s.encU0 i j.frame true cur qi)
  let idr := due && decide (pi.floor ≤ pi.cap)
  let d := if idr then tiles else (damage.filter id).length
  -- the QP that the frame starts with, and U0 with the slice header at that QP
  let p := if idr then pi else s.encPlan i false full delta (s.encU0 i j.frame false cur c.qp)
  let lim (v : Int) : Int := max (s.qpMin i : Int) (min (s.qpMax i : Int) v)
  let q0 : Int := if idr then qi
    else if d = 0 then c.qp
    else lim ((c.qp : Int) + max (-6) (min 6 (qpLog (c.bits * d) (max c.damaged 1 * p.target.toNat))))
  let p := if idr then p else s.encPlan i false full delta (s.encU0 i j.frame false cur q0)
  if (newCvs && !idr) || decide (p.cap < p.floor) then
    (s.encTime n i 30000).encDrop n i j full ((damage.zip sideBad).map (fun x => x.1 || x.2)) newCvs (due || c.idrDue)
  else
    -- tiles
    let hd := s.encSlice i j.frame idr q0
    let w := s.encTiles n { ctx := i, frame := j.frame, plan := p, pres := tripleNs cur.pres, damage := damage, sideBad := sideBad,
                            entries := cur.entries, core := c, g := (j.gx, j.gy), damaged := d } { u := p.u0, qp := q0, coder := hd.2 }
    let run := w.2
    let s := w.1.encTime n i (30000 + 1200 * run.trials + 20 * run.skips)
    -- the unit, its filler, and the fullness it leaves
    let h264 := s.bit (F.ENC_CTX_CTL_CODEC i)
    let num : Int := s.encNum i
    let ahead := s.encAhead i j.frame idr
    let sei := if s.bit (F.ENC_CTX_CTL_SEI i) then freshSei h264 idr run.spent cur j.frame run.tiles else []
    let hdr := startCode ++ sliceHd h264 idr
    let most := run.u / 8 - ahead.length - sei.length - hdr.length
    let slice' := hdr ++ (Config.sliceData h264 run.coder).take most
    let coded := ahead ++ sei ++ slice'
    let excess : Int := full - ((8 * coded.length : Nat) : Int) * num + (s.encStep i * s.encA i : Nat) - (s.encB i * s.encNum i : Nat)
    let fill := if s.bit (F.ENC_CTX_CTL_RC i) then [] else filler h264 ((excess + num - 1) / num).toNat
    let pic := s.encPicture i c run
    let core : EncCore := { fp := some j.frame, full := full - ((8 * (coded ++ fill).length : Nat) : Int) * num, qp := run.qp.toNat, bits := run.cost,
                            damaged := d, idrDue := run.refBad || (due && !idr), newCvs := false, sinceIdr := if idr then 0 else c.sinceIdr + 1,
                            tiles := run.tiles, idrFrame := if idr then j.frame else c.idrFrame, ref := pic.1, refC := pic.2, half := (c.half + 1) % 2,
                            vecs := run.vecs }
    let u : EncUnit := { data := coded ++ fill, idr := idr, frame := j.frame, pres := cur.pres, fence := j.fence, core := core,
                         qpLast := run.qp.toNat, spent := run.spent, carried := run.carried }
    -- the reconstructed picture goes to the half that does not hold the reference (R239)
    let k := s.halfSize i
    let x := s.writeTil (0x20 + n) (k + 1) (s.workHalf i core.half) (slice (Config.workImage h264 pic.1 pic.2) 0 k)
    if x.2 then x.1.encPut n i u else (x.1.encErr i 8).encEnd n i false

/-- The engine has no frame in hand. -/
def State.encIdle (s : State) (n : Nat) : State :=
  (s.updEe n (fun e => { e with cur := none, turn := e.turn + 1 })).setFlds
    [(F.ENC_ENG_STATUS_STATE n, if s.bit (F.ENC_ENG_CTL_EN n) then 1 else 0), (F.ENC_ENG_STATUS_CTX_VALID n, 0)]
/-- Whether a source slot, the work area or the output ring of a context lies where accesses wait (R355). -/
def State.encWaits (s : State) (i : Nat) : Bool :=
  [s.encSlot i 0, s.encWork i, s.outBase i].any (fun a => s.waits (s.region a))
/-- ENC_FRAME_DONE (R218): not while an access of the frame in hand waits. -/
def execEncFrameDone (n : Fin 8) (e : EngRun) (s : State) : Out :=
  .next <| s.ifRun fun s =>
    match (s.ee n).cur with
    | none => s
    | some i =>
      if s.encWaits i then s else
      let j := (s.ee n).queue.find? (fun j => j.ctx == i)
      let s := (s.engineErrs e).encIdle n
      match j with
      | some j => s.encFrame n i j
      | none => s

/-- ENC_OUT_ROOM (R223). -/
def execEncOutRoom (i : Fin 32) (s : State) : Out :=
  .next <| s.ifRun fun s =>
    match (s.ec i).held with
    | some u => if s.outFits i u.data.length && !s.encWaits i then s.encPut (s.encEngine i) i u else s
    | none => s

/-- ENC_CTX_OUT_RD (R222, R243). -/
def State.encOutRd (i : Nat) (a : Admit) : State :=
  if a.st.bit (F.ENC_CTX_CTL_LINK i) then a.st else a.plain (R.ENC_CTX_OUT_RD i)
def execEncOutRdWrite (m : Mst) (i : Fin 32) (w : Word) (s : State) : Out :=
  .next (s.runReg m.toNat (R.ENC_CTX_OUT_RD i) w.toNat (State.encOutRd i))

/-! ### Retirement (R240) -/

def State.encOrphan (s : State) (n : Nat) : State :=
  let q := (s.ee n).queue
  let s := if (s.ee n).cur.isSome then s.encBusy n (2 * (s.time.clk - (s.ee n).since)) else s
  let s := (List.range 32).foldl (fun s i =>
    if s.bit (F.ENC_CTX_CTL_EN i) && s.encEngine i = n && s.encState i ≠ 5 then
      ((s.setEncState i 5).encErr i 7).updEc i (fun c => { c with pend := (q.filter (fun j => j.ctx == i)).foldl mergeEnc c.pend, held := none })
    else s) s
  s.updEe n (fun e => { e with queue := [], cur := none, turn := 0 })

def State.encRetire (s : State) (n cause : Nat) : State :=
  if s.fld (F.ENC_ENG_STATUS_STATE n) = 3 then s
  else
    let cur := (s.ee n).cur
    let s := s.orFld (F.ENC_ENG_ERR_ERR n) (1 ||| (if cause = 0 then 0 else 2 ^ cause))
    let s := s.setFlds [(F.ENC_ENG_STATUS_STATE n, 3), (F.ENC_ENG_STATUS_CTX_VALID n, 0)]
    let s := s.logHw 0x40 (0x20 + n) (leBytes 1 (16 + n) ++ leBytes 1 (s.reg (R.ENC_ENG_ERR n)).toNat ++ leBytes 1 (cur.getD 0) ++
      leBytes 1 cur.isSome.toNat ++ leBytes 4 0 ++ leBytes 8 s.tickNo) false
    s.encOrphan n

def execEncEngineFault (n : Fin 8) (parity : Bool) (a : BitVec 48) (s : State) : Out :=
  .next (s.ifRun fun s => if parity then (s.parity (0x20 + n) a.toNat ⟨[0], 0⟩).encRetire n 2 else s.storeUe.encRetire n 3)
def execEncWdogExpire (n : Fin 8) (s : State) : Out :=
  .next <| s.ifRun fun s =>
    let l := s.fld (F.ENC_ENG_WDOG_LIMIT n)
    if l = 0 || (s.ee n).cur.isNone then s
    else (s.advance ((s.ee n).since + 500 * l - s.time.clk)).encRetire n 1

/-- ENC_ENG_CTL (R242). -/
def State.encEngCtl (n : Nat) (a : Admit) : State :=
  if a.st.fld (F.ENC_ENG_STATUS_STATE n) = 3 then a.st
  else
    let s := (a.plain (R.ENC_ENG_CTL n)).setFld (F.ENC_ENG_CTL_RETIRE n) 0
    if a.one (F.ENC_ENG_CTL_RETIRE n) then s.encRetire n 0
    else if s.fld (F.ENC_ENG_STATUS_STATE n) = 2 then s
    else s.setFld (F.ENC_ENG_STATUS_STATE n) (s.fld (F.ENC_ENG_CTL_EN n))
def execEncRetire (m : Mst) (n : Fin 8) (w : Word) (s : State) : Out :=
  .next (s.runReg m.toNat (R.ENC_ENG_CTL n) w.toNat (State.encEngCtl n))
def execEncEngEnable (m : Mst) (n : Fin 8) (w : Word) (s : State) : Out :=
  .next (s.runReg m.toNat (R.ENC_ENG_CTL n) w.toNat (State.encEngCtl n))

/-- The block part of an ENGINE reset (R240). -/
def State.encReset (s : State) (n : Nat) : State :=
  let s := s.dropWrites (· == 0x20 + n)
  let s := if s.fld (F.ENC_ENG_STATUS_STATE n) = 3 then s else s.encOrphan n
  let regs := [R.ENC_ENG_CTL n, R.ENC_ENG_STATUS n, R.ENC_ENG_ERR n, R.ENC_ENG_IRQ_EN n, R.ENC_ENG_WDOG n, R.ENC_ENG_FRAMES n, R.ENC_ENG_BUSY n]
  { s with regs := s.regs.filter (fun e => !regs.contains e.1), eeng := Tbl.del s.eeng n }

/-! ### Context registers (R208, R240, R243) -/

/-- Disabling: jobs go without writes; the frame in hand, or the unit that waits for room, is the last. -/
def State.encStop (s : State) (i : Nat) : State :=
  let s := (List.range 8).foldl (fun s n =>
    let e := s.ee n
    let cur := e.cur == some i || (s.ec i).held.isSome
    let first := (e.queue.findIdx? (fun j => j.ctx == i)).getD 0
    let keep (p : EncJob × Nat) : Bool := p.1.ctx != i || (cur && p.2 == first)
    if e.queue.any (fun j => j.ctx == i) then
      s.setEe n { e with queue := ((e.queue.zip (List.range e.queue.length)).filter keep).map (·.1),
                         turn := ((e.queue.zip (List.range e.turn)).filter keep).length }
    else s) s
  (s.setEncState i 0).updEc i (fun c => { c with pend := none })

def State.encCanBind (s : State) (i n : Nat) : Bool :=
  let st := s.encState i
  let es := s.fld (F.ENC_ENG_STATUS_STATE n)
  if st = 0 then true
  else if st = 1 then es ≠ 3
  else if st = 5 then (es = 1 || es = 2) && decide ((s.ee n).queue.length < 16)
  else false

/-- ENC_CTX_CTL_i: what is turned away is as at a decode context. -/
def State.encCtxCtl (i : Nat) (a : Admit) : State :=
  let old := a.st
  let t := a.plain (R.ENC_CTX_CTL i)
  let was := old.bit (F.ENC_CTX_CTL_EN i)
  let now := t.bit (F.ENC_CTX_CTL_EN i)
  let n := t.encEngine i
  let n0 := old.encEngine i
  if was then
    if decide (((t.reg (R.ENC_CTX_CTL i)) ^^^ (old.reg (R.ENC_CTX_CTL i))).toNat % 2 ^ 31 / 8 ≠ 0) then old.encErr i 6
    else
      let held := n ≠ n0 && !old.encCanBind i n
      let t := if held then (t.setFld (F.ENC_CTX_CTL_ENGINE i) n0).encErr i 6 else t
      if !now then t.encStop i
      else if old.encState i = 5 && old.encCanBind i n then
        let s := t.setEncState i 1
        (match (s.ec i).pend with
         | some j => (s.updEc i (fun c => { c with pend := none })).encQueue n { j with clk := s.time.clk }
         | none => s)
      else t
  else if now && (t.fld (F.ENC_CTX_SRC_CFG_SLOTS i) < 2 || !frameSizeOk (t.encW i) (t.encH i) || t.fld (F.ENC_CTX_OUT_SIZE_SIZE i) < 16 ||
      t.encStep i = 0 || t.fld (F.ENC_ENG_STATUS_STATE n) = 3) then
    (t.setFld (F.ENC_CTX_CTL_EN i) 0).encErr i 6
  else if now then (t.setEc i {}).setEncState i 1
  else t
def execEncCtxEnable (m : Mst) (i : Fin 32) (w : Word) (s : State) : Out :=
  .next (s.runReg m.toNat (R.ENC_CTX_CTL i) w.toNat (State.encCtxCtl i))
def execEncCtxDisable (m : Mst) (i : Fin 32) (w : Word) (s : State) : Out :=
  .next (s.runReg m.toNat (R.ENC_CTX_CTL i) w.toNat (State.encCtxCtl i))
def execEncCtxRebind (m : Mst) (i : Fin 32) (w : Word) (s : State) : Out :=
  .next (s.runReg m.toNat (R.ENC_CTX_CTL i) w.toNat (State.encCtxCtl i))
/-- The other registers of a context while EN is 1. -/
def State.encCfg (i off : Nat) (a : Admit) : State :=
  let t := a.plain off
  if a.st.bit (F.ENC_CTX_CTL_EN i) && t.reg off ≠ a.st.reg off then a.st.encErr i 6 else t

end Sys2Proof.Machine
end

