-- ==== Sys2Proof/Machine/Heads.lean ====
section
/-!
DEFINITION. Heads at their latch lines (R111, R112, R274 to R287, R292, R323): chamber decisions, commits, mode changes,
certificates, starting and stopping.
Readings and choices beyond the spec's plain words: log entries 18, 52 and 54.
-/
namespace Sys2Proof.Machine

/-! ### Chamber decisions (R111, R112) -/

def State.cham (s : State) (c : Nat) : Chamber := Tbl.get (fun _ => {}) s.chambers c
def State.setCham (s : State) (c : Nat) (x : Chamber) : State := { s with chambers := Tbl.set (fun _ => {}) s.chambers c x }

/-- The fence words of a chamber of sequencer `k`, read as its master; the result tells whether every one is met. -/
def State.readFences (s : State) (k : Nat) (ms : List Member) : State × Bool :=
  ms.foldl (fun p m =>
    match m.fence with
    | none => p
    | some (a, v) =>
      let r := p.1.read (8 + k) a 8
      if r.bus then (r.st.putBitAt F.TICK_STATUS_FENCE_ERR k true, false)
      else if r.poisoned then (r.st.poisonRec (8 + k) a 2, false)
      else (r.st, p.2 && decide (v ≤ leNat r.data))) (s, true)

def insertOwed (o : Owed) : List Owed → List Owed
  | [] => [o]
  | p :: ps => if o.tick = p.tick ∧ o.order < p.order then o :: p :: ps else p :: insertOwed o ps

/-- An armed chamber is decided at its decision point for tick `t`. -/
def State.decideCham (s : State) (c t : Nat) : State :=
  let x := s.cham c
  let k := c / 64
  let p := s.readFences k x.members
  let s := p.1
  if p.2 then
    let s := (s.tele 0x0B k).sample 7 k (t - x.target)
    let s := x.members.foldl (fun s m => match m.fence with
      | some (a, v) => s.sample 8 k (2 * (s.time.clk - ((s.time.metAt.find? (fun e => decide (e.1 = (k, a, v)))).map (·.2)).getD s.time.clk))
      | none => s) s
    let s := s.setCham c { x with armed := false, passed := true, last := some (t, x.members.length) }
    ((x.members.map (·.head)).eraseDups).foldl (fun s h =>
      if s.headRuns h then s.updHd h (fun y => { y with owed := insertOwed ⟨x.order, t, x.members⟩ y.owed })
      else s.applyMembers h x.members) s
  else (s.tele 0x0C k).setCham c { x with after := t + 1 }

def insertCham (s : State) (c : Nat) : List Nat → List Nat
  | [] => [c]
  | d :: ds => if (s.cham c).order < (s.cham d).order then c :: d :: ds else d :: insertCham s c ds

/-- The armed chambers that may be decided for tick `t`, in the order of their FLIPs. -/
def State.dueChams (s : State) (t : Nat) (p : Chamber → Bool) : List Nat :=
  (s.chambers.filter (fun e => e.2.armed && decide (e.2.target ≤ t) && decide (e.2.after ≤ t) && p e.2)).foldl
    (fun l e => insertCham s e.1 l) []

/-- At head `h`'s latch line for its first frame of tick `t`: the earliest of the member heads' latch lines decides. -/
def State.decideAtLatch (s : State) (h t : Nat) : State :=
  (s.dueChams t (fun x => x.members.any (fun m => m.head == h) &&
    x.members.all (fun m => m.head == h || !s.headRuns m.head || (match (s.hd m.head).firstTick with
      | some u => decide (u < t)
      | none => true)))).foldl (fun s c => s.decideCham c t) s
/-- At boundary `t`: chambers with no member head scanning. -/
def State.decideAtBoundary (s : State) (t : Nat) : State :=
  (s.dueChams t (fun x => x.members.all (fun m => !s.headRuns m.head))).foldl (fun s c => s.decideCham c t) s

/-- What a head owes is applied: everything when it stops, else the passes of tick `t` and before. -/
def State.applyOwed (s : State) (h : Nat) (t : Option Nat) : State :=
  let due (o : Owed) : Bool := match t with
    | some t => decide (o.tick ≤ t)
    | none => true
  let os := (s.hd h).owed
  let s := s.updHd h (fun x => { x with owed := os.filter (fun o => !due o) })
  (os.filter due).foldl (fun s o => s.applyMembers h o.members) s

/-! ### Commits (R276, R280, R281, R323) -/

/-- R276 on the shadow copies. -/
def State.timingOk (s : State) (h : Nat) : Bool :=
  let ha := s.fld (F.HEAD_HTIMING_HACTIVE h)
  let ht := s.fld (F.HEAD_HTIMING_HTOTAL h)
  let va := s.fld (F.HEAD_VTIMING_VACTIVE h)
  let vt := s.fld (F.HEAD_VTIMING_VTOTAL h)
  let hs := s.fld (F.HEAD_HSYNC_HS_START h)
  let hw := s.fld (F.HEAD_HSYNC_HS_WIDTH h)
  let vs := s.fld (F.HEAD_VSYNC_VS_START h)
  let vw := s.fld (F.HEAD_VSYNC_VS_WIDTH h)
  let lead := s.fld (F.HEAD_MODE_LATCH_LEAD h)
  let rate := s.tickNum * (if s.fld (F.TICK_HPHASE_DOUBLE h) = 1 then 2 else 1)
  64 ≤ ha && ha ≤ 4096 && ha % 2 == 0 && 64 ≤ va && va ≤ 2160 && ha + 32 ≤ ht && decide (ha + hs + hw < ht) && 1 ≤ hs && 1 ≤ hw &&
    va + 16 ≤ vt && decide (va + vs + vw < vt) && 1 ≤ vs && 1 ≤ vw && (lead == 0 || (8 ≤ lead && lead + va + 9 ≤ vt)) &&
    decide (ht * vt * rate ≤ 600000000 * s.tickDen) && decide (vt * rate ≤ 300000 * s.tickDen)

/-- R323: a region of `n` entries from `base` fits the Age Map and meets no region of a head that is not OFF. -/
def State.amapOk (s : State) (h base n : Nat) : Bool :=
  decide (base + n ≤ 262144) && (List.range 32).all (fun g =>
    g == h || s.headState g == 0 ||
      (let b := s.lfld (F.FG_HEAD_AMAP_BASE g)
       let m := s.tilesX g * s.tilesY g
       decide (base + n ≤ b) || decide (b + m ≤ base)))
def State.amapLiveOk (s : State) (h : Nat) : Bool := s.amapOk h (s.lfld (F.FG_HEAD_AMAP_BASE h)) (s.tilesX h * s.tilesY h)

/-- The registers whose shadow copies a commit of head `h` applies. -/
def commitRegs (h : Nat) : List Nat :=
  [R.HEAD_HTIMING h, R.HEAD_HSYNC h, R.HEAD_VTIMING h, R.HEAD_VSYNC h, R.HEAD_MODE h, R.COMP_HEAD_CFG h, R.COMP_BG h, R.FG_HEAD_AMAP h]

/-- A pending commit is taken, or refused whole. -/
def State.takeCommit (s : State) (h : Nat) : State × Bool :=
  let s := s.setBit (F.HEAD_COMMIT_GO h) false
  let tiles := ceilDiv (s.fld (F.HEAD_HTIMING_HACTIVE h)) 32 * ceilDiv (s.fld (F.HEAD_VTIMING_VACTIVE h)) 32
  let okMap := s.amapOk h (s.fld (F.FG_HEAD_AMAP_BASE h)) tiles
  let s := if okMap then s else s.setBit F.FG_ERR_AMAP true
  if s.timingOk h && okMap then (s.goLive (commitRegs h), true) else (s.setBit (F.HEAD_ERR_CFG h) true, false)

/-- HEAD_COMMIT (R280, R281). -/
def State.headCommit (h : Nat) (a : Admit) : State :=
  let s := a.plain (R.HEAD_COMMIT h)
  if s.bit (F.HEAD_COMMIT_GO h) && s.headState h = 0 then (s.takeCommit h).1 else s
def execHeadCommitGo (m : Mst) (h : Fin 32) (w : Word) (s : State) : Out :=
  .next (s.runReg m.toNat (R.HEAD_COMMIT h) w.toNat (State.headCommit h))

/-! ### Certificates (R144, R145, R292, R293) -/

/-- The quad, slot and format that carry a head (R142). -/
def State.headSlot (s : State) (h : Nat) : Option (Nat × Nat × Nat) :=
  ((List.range 12).flatMap (fun q => (List.range 3).filterMap (fun k => match s.slotHead q k with
    | some (g, f) => if g = h then some (q, k, f) else none
    | none => none))).head?

def State.headDepth (s : State) (h : Nat) : Nat := depthBits (s.lfld (F.COMP_HEAD_CFG_DEPTH h))

/-- Bytes 0 to 59 of the certificate of the frame in hand, with LOCAL `local'`. -/
def State.certBody (s : State) (h local' : Nat) : List Byte :=
  let x := s.hd h
  let n (v : Nat) : Nat := if x.resync then 0 else v
  let fl := x.second.toNat + 2 * x.chamber.toNat + 4 * x.commit.toNat + 8 * x.resync.toNat + 16 * x.trunc.toNat
  slice (leBytes 1 1 ++ leBytes 1 h ++ leBytes 1 fl ++ leBytes 1 (s.headDepth h) ++ leBytes 6 (s.curFrame h) ++ leBytes 2 0 ++
    leBytes 12 (nsTriple (s.curPres h)) ++ leBytes 8 x.tick ++ leBytes 4 x.maxAge ++ leBytes 2 x.veiled ++ leBytes 2 (n x.prevVeiled) ++
    leBytes 2 (n (min 65535 x.prevUflow)) ++ leBytes 1 (n (x.prevPoison.toNat + 2 * (decide (x.prevUflow ≠ 0)).toNat)) ++
    leBytes 1 (n local') ++ leBytes 4 (n x.prevCrc) ++ leBytes 2 (n x.prevW) ++ leBytes 2 (n x.prevH)) 0 60

/-- FRAME_START of the frame in hand (R144). -/
def State.frameStart (s : State) (h fmt : Nat) : List Byte :=
  let fp := (s.hd h).fp
  let plus (v : Nat) : Nat := ((v : Int) + fp).toNat
  slice (leBytes 2 (s.hact h) ++ leBytes 2 (s.vact h) ++ leBytes 2 (s.htot h) ++ leBytes 2 (plus (s.vtot h)) ++
    leBytes 2 (s.lfld (F.HEAD_HSYNC_HS_START h)) ++ leBytes 2 (s.lfld (F.HEAD_HSYNC_HS_WIDTH h)) ++
    leBytes 2 (plus (s.lfld (F.HEAD_VSYNC_VS_START h))) ++ leBytes 2 (s.lfld (F.HEAD_VSYNC_VS_WIDTH h)) ++
    leBytes 1 (s.lfld (F.HEAD_MODE_HPOL h) + 2 * s.lfld (F.HEAD_MODE_VPOL h) + 4 * fmt) ++ leBytes 3 0 ++ leBytes 4 (s.pclkKhz h) ++
    leBytes 6 (s.curFrame h)) 0 32

/-- A line, or a frame, of slot `k` on quad `q` is cut: nothing more of the slot's frame is sent (R146). -/
def State.cutSlot (s : State) (q k : Nat) : State :=
  let s := (s.linkDrop q).setBit (F.BL_ERR_LINE_DROP q) true
  s.updLink q (fun l => { l with slotCut := l.slotCut ||| 2 ^ k, feed := l.feed.filter (fun e => e.1 != k) })

/-- CERT and FRAME_START leave during line −8. Pixels of the previous frame that have not entered the buffer by then are a line cut. -/
def State.sendCert (s : State) (h : Nat) : State :=
  let x := s.hd h
  let loc := x.dip.toNat + 2 * x.prevDip.toNat + 4 * x.unlocked.toNat
  let body := s.certBody h loc
  let cert := body ++ leBytes 4 (crc32c body)
  let s := s.updHd h (fun x => { x with certDip := x.dip && !x.resync, dip := s.bit F.PWR_STATUS_DIP_ACTIVE, cert := cert })
  let s := (List.range 16).foldl (fun s w => s.setReg (R.HEAD_CERT h w) (BitVec.ofNat 32 (leNat (slice cert (4 * w) 4)))) s
  let s := s.tele 0x09 h x.veiled
  match s.headSlot h with
  | none => s
  | some (q, k, fmt) =>
    let s := if (s.link q).feed.any (fun e => e.1 == k) then s.cutSlot q k else s
    let s := s.updLink q (fun l => { l with slotCut := putBits l.slotCut k k 0 })
    (s.pushBarge q ⟨0x12, 0, k, cert, none⟩).pushBarge q ⟨0x11, 0, k, s.frameStart h fmt, none⟩

/-! ### The latch line (R279, R286) -/

/-- The frame after one (R277). -/
def State.frameAfter (s : State) (h tick : Nat) (second : Bool) : Nat × Bool :=
  if s.dbl h = 2 && !second then (tick, true) else (tick + 1, false)

/-- R286 step 3: from frame (tick, second) on, the first whose nominal time lies at least the lead after the present. -/
def State.frameFor (s : State) (h lead : Nat) : Nat → Nat → Bool → Nat × Bool
  | 0, t, b => (t, b)
  | f + 1, t, b =>
    if s.time.now * s.lineDen h + lead * s.lineNum h * 2 ^ 40 ≤ s.presNs h t b * 2 ^ 40 * s.lineDen h then (t, b)
    else let n := s.frameAfter h t b; s.frameFor h lead f n.1 n.2

def State.newLead (s : State) (h : Nat) : Nat :=
  let l := s.lfld (F.HEAD_MODE_LATCH_LEAD h)
  if l = 0 then s.vblank h else l

/-- Whole lines from the present to the first active line of the frame in hand: what a mode change leaves to run (R286). -/
def State.linesTo (s : State) (h : Nat) : Nat := (s.lineAt40 h 0 - s.time.now) * s.lineDen h / (max 1 (s.lineNum h) * 2 ^ 40)

/-- R274: a front-porch change that a new VS_START makes too large leaves exactly one line, where the porch is still to come: at the frame's
first line. -/
def State.keepPorch (s : State) (h : Nat) (first : Bool) : State :=
  if first then s.updHd h (fun x =>
    let fp := max x.fp (1 - (s.lfld (F.HEAD_VSYNC_VS_START h) : Int))
    { x with fp := fp, skewL := x.skewL + (fp - x.fp), line := x.line - (fp - x.fp) })
  else s

/-- The earliest frame that step 3 of R286 looks at: the frame in hand, or the frame before its first when DOUBLE has become 1. -/
def State.frameFrom (s : State) (h db : Nat) : Nat × Bool :=
  let x := s.hd h
  if s.dbl h = 1 then (x.tick, false)
  else if db = 1 && x.tick ≠ 0 then (x.tick - 1, true) else (x.tick, x.second)

/-- Steps 1 to 7 at the latch line of the frame in hand; `start` is the first latch line after a start. -/
def State.latchSteps (s : State) (h : Nat) (start : Bool) : State :=
  let before := s.stackOf h
  let geo := (s.htot h, s.hact h, s.vtot h, s.vact h)
  let off := s.lfld (F.TICK_HPHASE_OFFSET h)
  let db := s.dbl h
  let first := decide ((s.hd h).line = s.firstLine h)
  -- 1: phase
  let s := s.goLive [R.TICK_HPHASE h]
  let s := s.updHd h (fun x => { x with skewT := x.skewT - ((s.lfld (F.TICK_HPHASE_OFFSET h) : Int) - off) * 2 ^ 40 })
  let s := if start then s.updHd h (fun x => { x with skewT := 0 }) else s
  -- 2: commit
  let x := s.hd h
  let target := s.reg64 (R.HEAD_CMT_TICK_LO h) (R.HEAD_CMT_TICK_HI h)
  let due := s.bit (F.HEAD_COMMIT_GO h) && (start || !s.bit (F.HEAD_COMMIT_MODE h) || (!x.second && decide (target ≤ x.tick)))
  let p := if due then s.takeCommit h else (s, false)
  let s := p.1
  let mode := decide ((s.htot h, s.hact h, s.vtot h, s.vact h) ≠ geo) || s.dbl h ≠ db
  let s := if mode then
      let f0 := s.frameFrom h db
      let f := s.frameFor h (s.newLead h) 8 f0.1 f0.2
      let s := s.updHd h (fun x => { x with tick := f.1, second := f.2, skewT := 0, skewL := 0, fp := 0, nextFp := 0 })
      let s := s.updHd h (fun x => { x with line := -(max (s.newLead h) (s.linesTo h) : Nat) })
      if start then s else (s.setHeadState h 3).setBit (F.HEAD_ERR_RESYNC h) true
    else s.keepPorch h first
  let s := if start then s.setHeadState h 2 else s
  let x := s.hd h
  -- 3: chambers
  let s := if x.second then s else (s.decideAtLatch h x.tick).updHd h (fun x => { x with firstTick := some x.tick })
  let owed := if x.second then [] else (s.hd h).owed.filter (fun o => decide (o.tick ≤ x.tick))
  let s := if x.second then s else s.applyOwed h (some x.tick)
  let named := owed.flatMap (fun o => (o.members.filter (fun m => m.head == h)).map (·.lp))
  let rects := (before ++ s.stackOf h).filterMap (fun l => if named.contains l.lp || l.fresh then some (descDst l.desc) else none)
  let applied := ((s.stackOf h).filter (·.fresh)).map (·.lp)
  -- displaced pipes change what their rectangles show
  let gone := (before.filter (fun l => (s.stackOf h).all (fun y => y.lp != l.lp))).map (fun l => descDst l.desc)
  -- 4 to 6
  let s := s.latchLayers h start
  let trunc := s.headDepth h = 10 && (match s.headSlot h with
    | some (_, _, f) => f = 1
    | none => false)
  let s := s.updHd h (fun x => { x with
    latched := true, ended := false, chamber := !owed.isEmpty, commit := p.2, resync := mode || start, trunc := trunc,
    flip := p.2 || !owed.isEmpty, crc := 0xFFFFFFFF, uflows := 0, poison := false, fifo := [],
    late := x.late ++ x.fifo.filter (fun f => f.got.length < 64 * f.blocks), blocks := 0,
    changed := rects ++ gone, prevDip := x.dip, dip := s.bit F.PWR_STATUS_DIP_ACTIVE, drawing := none,
    certDip := s.bit F.PWR_STATUS_DIP_ACTIVE && !(mode || start),
    unlocked := !s.bitAt F.TICK_LOCK_LOCK h })
  let s := if (s.hd h).flip then s.setReg64 (R.HEAD_FLIP_FRAME_LO h) (R.HEAD_FLIP_FRAME_HI h) (s.curFrame h) else s
  let s := ((s.setReg64 (R.HEAD_FRAME_LO h) (R.HEAD_FRAME_HI h) (s.curFrame h)).setReg96 (R.HEAD_PRES_0 h) (nsTriple (s.curPres h))).setBit
    (F.HEAD_STATUS_SECOND h) (s.hd h).second
  -- 7
  let s := s.fgEvaluate h before applied
  let body := s.certBody h 0
  let s := s.updHd h (fun x => { x with certs := (x.certs ++ [(x.tick, body)]).drop (x.certs.length + 1 - 4) })
  let s := (s.portsOf h).foldl (fun s w => s.wbLatch w) s
  let s := if mode || start then (s.setFld (F.FG_HEAD_STAT_PREV_VEILED h) 0).showLine h else s
  if (s.hd h).line = -8 then s.sendCert h else s

/-- HEAD_LATCH_LINE (R279, R283): a STARTING head waits for its first latch line; a scanning one has reached its own. -/
def execHeadLatchLine (h : Fin 32) (s : State) : Out :=
  .next <| s.ifRun fun s =>
    let x := s.hd h
    if s.headState h = 1 && s.bit F.TICK_STATUS_RUNNING then
      let s := s.goLive [R.TICK_HPHASE h]
      let from' := max s.nowNs (x.startNs + 20000)
      let lead := s.newLead h
      let t0 := (from' - s.epochNs) * s.tickNum / (max 1 s.tickDen * 1000000000)
      let f := ({ s with time := { s.time with now := from' * 2 ^ 40 } }).frameFor h lead 8 (t0 - 1) false
      let y : HeadSt := { tick := f.1, second := f.2, line := -(lead : Int), owed := x.owed, firstTick := x.firstTick, certs := x.certs }
      let s := s.setHd h y
      (s.advanceTo40 (s.lineAt40 h y.line)).latchSteps h true
    else if s.headRuns h && !x.latched && decide (x.line = s.latchLine h) then s.latchSteps h false
    else s

/-! ### Starting and stopping (R283 to R285) -/

/-- A head enters OFF, or STARTING with EN still 1. -/
def State.headStopped (s : State) (h : Nat) : State :=
  let s := (s.wbStop h).releaseHead h
  let s := s.applyOwed h none
  let s := (s.putBitAt F.TICK_LOCK_LOCK h false).setFlds
    [(F.HEAD_STATUS_VBLANK h, 0), (F.HEAD_STATUS_QUIET h, 0), (F.HEAD_STATUS_SECOND h, 0), (F.FG_HEAD_STAT_PREV_VEILED h, 0)]
  let x := s.hd h
  if s.bit (F.HEAD_CTL_EN h) then
    (s.setHd h { startNs := s.nowNs, amap := x.amap, certs := x.certs }).setHeadState h 1
  else (s.setHd h { certs := x.certs }).setHeadState h 0

/-- The head is asked to stop: at once in blanking, else at the end of the frame's active lines. -/
def State.headHalt (s : State) (h : Nat) : State :=
  let st := s.headState h
  if st = 2 || st = 3 then
    (if (s.hd h).line < 0 || (s.hd h).ended then s.headStopped h else s.setHeadState h 4)
  else if st = 1 && !s.bit (F.HEAD_CTL_EN h) then s.headStopped h
  else s

/-- HEAD_CTL (R283, R284, R323). -/
def State.headCtl (h : Nat) (a : Admit) : State :=
  let was := a.st.bit (F.HEAD_CTL_EN h)
  let s := a.plain (R.HEAD_CTL h)
  let en := s.bit (F.HEAD_CTL_EN h)
  if en && !was then
    if !a.st.amapLiveOk h && s.headState h = 0 then a.st.setBit F.FG_ERR_AMAP true
    else if s.headState h = 0 then (s.updHd h (fun x => { x with startNs := s.nowNs })).setHeadState h 1
    else s
  else if !en && was then s.headHalt h
  else s
def execHeadStart (m : Mst) (h : Fin 32) (w : Word) (s : State) : Out :=
  .next (s.runReg m.toNat (R.HEAD_CTL h) w.toNat (State.headCtl h))
def execHeadStop (m : Mst) (h : Fin 32) (w : Word) (s : State) : Out :=
  .next (s.runReg m.toNat (R.HEAD_CTL h) w.toNat (State.headCtl h))

/-- A HEAD reset (R247, R285, R300, R338). -/
def State.headReset (s : State) (h : Nat) : State :=
  let s := s.dropWrites (fun m => (s.portsOf h).any (fun w => m == 0x28 + w))
  let s := s.wbStop h
  let s := (s.stackOf h).foldl (fun s l => (s.dropLayer l.lp).setReg (R.COMP_LP_FETCH l.lp) 0) s
  let s := match s.headSlot h with
    | some (q, k, _) => s.updLink q (fun l => { l with
        waiting := l.waiting.filter (fun b => !(0x10 ≤ b.typ && b.typ ≤ 0x12 && b.spec % 4 == k)),
        feed := l.feed.filter (fun e => e.1 != k), slotCut := l.slotCut ||| 2 ^ k })
    | none => s
  let lo := R.HEAD_CTL h
  let keep (o : Nat) : Bool :=
    !(lo ≤ o && o < lo + 0x10000) && o != R.FG_HEAD_AMAP h && o != R.FG_HEAD_STAT h && o != R.FG_HEAD_MAXAGE h && o != R.COMP_HFETCH h
  { s.putBitAt F.TICK_LOCK_LOCK h false with
    regs := (s.putBitAt F.TICK_LOCK_LOCK h false).regs.filter (fun e => keep e.1)
    live := s.live.filter (fun e => keep e.1)
    heads := Tbl.del s.heads h }

/-- TICK_HPHASE_n (R45). -/
def State.hphase (h : Nat) (a : Admit) : State :=
  let s := a.plain (R.TICK_HPHASE h)
  let lim := s.tickNs / (if s.fld (F.TICK_HPHASE_DOUBLE h) = 1 then 2 else 1)
  if s.fld (F.TICK_HPHASE_OFFSET h) < lim then s else a.st.setBit F.TICK_STATUS_CFG_REFUSED true
def execTickHphaseWrite (m : Mst) (h : Fin 32) (w : Word) (s : State) : Out :=
  .next (s.runReg m.toNat (R.TICK_HPHASE h) w.toNat (State.hphase h))

end Sys2Proof.Machine
end

