-- ==== Sys2Proof/Machine/Scan.lean ====
section
/-!
DEFINITION. Lines and fetches of a scanning head (R44, R263 to R268, R288 to R293, R319, R327 to R329): fetch issue and return, the
composition of a line, underflow, the veil, and the end of a frame.
Readings and choices beyond the spec's plain words: log entries 53 and 54.
-/
namespace Sys2Proof.Machine

/-! ### The rows a line needs (R266, R288) -/

/-- The chroma rows that luma row `r` needs. -/
def Pic.chromaRows (p : Pic) (r : Nat) : List Nat :=
  if is420 p.fmt then [r / 2, clampTo (p.rowLo 1) (p.rowHi 1) (if r % 2 = 0 then (r / 2 : Int) - 1 else (r / 2 : Int) + 1)] else [r]
/-- The (plane, row) pairs that active line `y` needs from a layer's picture. -/
def Layer.rowsFor (l : Layer) (p : Pic) (y : Nat) : List (Nat × Nat) :=
  let d := descDst l.desc
  let lum := (vTaps (descScaled l.desc) p.src.h d.h (y - d.y)).map (p.src.y + ·)
  ((List.range (planesOf p.fmt)).flatMap (fun k =>
    (if p.fmt ≤ 3 && k == 1 then lum.flatMap p.chromaRows else lum).map (fun r => (k, r)))).eraseDups
def Layer.onLine (l : Layer) (y : Nat) : Bool := let d := descDst l.desc; l.shows && d.y ≤ y && y < d.y + d.h

/-- Bytes that rows take in the FIFO. -/
def fifoBytes (fs : List Fetch) : Nat := (fs.map (fun f => 64 * f.blocks)).foldl (· + ·) 0
/-- The rows that still have room in the head's 196,608 bytes, of which `used` are taken (R22, R288). DESIGN CHOICE: the others wait, and
are asked for again with a later line that needs them. -/
def fitShare (used : Nat) : List Fetch → List Fetch
  | [] => []
  | f :: fs => if used + 64 * f.blocks ≤ 196608 then f :: fitShare (used + 64 * f.blocks) fs else fitShare used fs

/-- At the start of line y − 2: the rows that line `y` needs and no earlier line asked for. -/
def State.issueFetches (s : State) (h y : Nat) : State :=
  ((s.stackOf h).filter (·.onLine y)).foldl (fun s l =>
    match l.pic with
    | none => s
    | some p =>
      let rs := (l.rowsFor p y).filter (fun r => !l.rows.contains r)
      let fs := fitShare (fifoBytes (s.hd h).fifo) (rs.map (fun r => let b := p.blocks r.1 r.2; (⟨l.lp, r.1, r.2, b.1, b.2, [], s.time.clk⟩ : Fetch)))
      let s := fs.foldl (fun s f => s.askUnits f.addr (64 * f.blocks)) s
      (s.putLayer { l with rows := l.rows ++ fs.map (fun f => (f.plane, f.row)) }).updHd h (fun x => { x with fifo := x.fifo ++ fs })) s

/-- Rows that no line from `y` on needs leave the FIFO once they have arrived. -/
def State.pruneFifo (s : State) (h y : Nat) : State :=
  let keep (f : Fetch) : Bool :=
    match s.layerOf f.lp with
    | none => false
    | some l => match l.pic with
      | none => false
      | some p =>
        let d := descDst l.desc
        let first := max y d.y
        f.got.length < 64 * f.blocks ||
          (decide (first < d.y + d.h) && (l.rowsFor p first).any (fun r => r.1 == f.plane && decide (r.2 ≤ f.row)))
  s.updHd h (fun x => { x with fifo := x.fifo.filter keep })

/-! ### Composing a line (R263, R290, R319, R327, R329) -/

/-- Every row that line `y` needs of a layer has arrived. -/
def Layer.allThere (l : Layer) (fs : List Fetch) (p : Pic) (y : Nat) : Bool :=
  (l.rowsFor p y).all (fun r => fs.any (fun f => f.plane == r.1 && f.row == r.2 && f.got.length == 64 * f.blocks))
/-- The first column of line `y` at which a layer's data is missing; `uflow` holds where an underflow goes on (R290). -/
def State.shortAt (s : State) (fs : List Fetch) (l : Layer) (p : Pic) (y : Nat) : Option Nat :=
  let d := descDst l.desc
  if l.uflow then some d.x
  else if l.allThere fs p y then none
  else ((List.range d.w).find? (fun i => (s.layerPixel l.desc p fs i (y - d.y)).isNone)).map (d.x + ·)

/-- A layer on a line: its picture, its fetched rows, and where its data ends. -/
structure LineLayer where
  l : Layer
  pic : Pic
  fs : List Fetch
  short : Option Nat

def State.lineLayers (s : State) (h y : Nat) : List LineLayer :=
  ((s.stackOf h).filter (·.onLine y)).filterMap (fun l =>
    l.pic.map (fun p =>
      let fs := (s.hd h).fifo.filter (fun f => f.lp == l.lp)
      ⟨l, p, fs, s.shortAt fs l p y⟩))

/-- A pixel of a layer in 12-bit R′G′B′, and its alpha. -/
def State.layerRgb (s : State) (e : LineLayer) (x y : Nat) : List Nat × Nat :=
  let d := e.l.desc
  let r := descDst d
  let px := if descSource d == 3 || e.pic.fmt == fillFmt then
      [bits (descFill d) 29 20, bits (descFill d) 19 10, bits (descFill d) 9 0, 1023]
    else (s.layerPixel d e.pic e.fs (x - r.x) (y - r.y)).getD [0, 0, 0, 0]
  (toRgb12 e.pic.fmt (descColour d) px, if isArgb e.pic.fmt then px.getD 3 1023 else 1023)

/-- Whether R290, R319 or R327 makes (x, y) a veil pixel. -/
def forced (ls : List LineLayer) (badTiles : List (Nat × Nat)) (tx x y : Nat) : Bool :=
  let t := y / 32 * tx + x / 32
  badAt badTiles tx x y || ls.any (fun e =>
    (descDst e.l.desc).has x y && (e.l.tiles.contains t || (match e.short with
      | some n => decide (n ≤ x)
      | none => false)))

/-- The 12-bit value of a pixel after the veil. -/
def State.pixel12 (s : State) (h : Nat) (ls : List LineLayer) (x y : Nat) : List Nat :=
  let tx := s.tilesX h
  let hd := s.hd h
  match veilPalette hd.veil tx x y (forced ls hd.badTiles tx x y) with
  | some k => colour12 (s.fld (F.FG_PAL_COLOUR k))
  | none => ls.foldl (fun c e =>
      if (descDst e.l.desc).has x y then
        let p := s.layerRgb e x y
        blendPx (descBlend e.l.desc) (isArgb e.pic.fmt) p.2 (descGalpha e.l.desc) p.1 c
      else c) (colour12 (s.lfld (F.COMP_BG_COLOUR h)))

/-- The pixels of a line go to the head's quad as barges of up to 256, and the next line of the slot begins: what has not entered the buffer
is cut (R143, R146); the last line has until the next frame's CERT. -/
def State.sendLine (s : State) (h y : Nat) (px : List (List Nat)) : State :=
  match s.headSlot h with
  | none => s
  | some (q, k, fmt) =>
    let cut := bits (s.link q).slotCut k k == 1
    if cut then (s.linkDrop q).setBit (F.BL_ERR_LINE_DROP q) true
    else
      let n := s.lineBarges h
      let bs := (List.range n).map (fun i =>
        (k, ({ typ := 0x10, vc := 0, spec := k + y * 2 ^ 2 + 256 * i * 2 ^ 14 + (decide (i + 1 = n)).toNat * 2 ^ 27,
               data := packPixels fmt ((px.drop (256 * i)).take 256) } : Barge)))
      let s := (s.updLink q (fun l => { l with feed := l.feed ++ bs })).refill q
      if y + 1 < s.vact h && (s.link q).feed.any (fun e => e.1 == k) then s.cutSlot q k else s

/-- Tiles whose Age Map entry is found uncorrectable (R327, R369). -/
def State.amapLost (s : State) (ts : List Nat) : State := ts.foldl (fun s _ => s.storeUe.setBit F.FG_ERR_AMAP_ECC true) s
/-- Active line `y` begins. `full` names the ports whose write buffer is full, `bad` the tiles whose Age Map entry is uncorrectable; an
underflow ends for a layer whose fetches for the line have all arrived (R290). -/
def State.beginLine (s : State) (h y full : Nat) (bad : AmapErrs) : State :=
  let tx := s.tilesX h
  let lost := (bad.head.filter (fun t => t / tx == y / 32 && !(s.hd h).badTiles.any (·.1 == t))).eraseDups
  let s := (s.storeCe bad.mended).amapLost lost
  let s := (s.lineLayers h y).foldl (fun s e => s.putLayer { e.l with uflow := e.l.uflow && !e.l.allThere e.fs e.pic y }) s
  s.updHd h (fun x => { x with badTiles := x.badTiles ++ lost.map (fun t => (t, y)), portBad := bad.port.eraseDups, drawing := some full })

/-- The tiles whose entries a writeback port of head `h` reads as line `y` ends (R298). -/
def State.portReads (s : State) (h y : Nat) : List Nat :=
  (((s.portsOf h).filter (fun w => (s.wb w).frame.isSome && ((y + 1) % (32 * s.wbF w) == 0 || y + 1 == s.vact h))).flatMap (fun w =>
    let f := s.wbF w
    let r := y / (32 * f)
    (span (f * r) (min f (s.tilesY h - f * r))).flatMap (fun j => (span 0 (s.tilesX h)).map (fun i => j * s.tilesX h + i)))).eraseDups

/-- Active line `y` has been drawn, from what had arrived when it ended. -/
def State.drawLine (s : State) (h y full : Nat) : State :=
  let tx := s.tilesX h
  let ls := s.lineLayers h y
  let row := (List.range (s.hact h)).map (fun x => s.pixel12 h ls x y)
  -- underflow
  let s := ls.foldl (fun s e => s.putLayer { e.l with uflow := e.short.isSome }) s
  let s := ls.foldl (fun s e =>
    match e.short with
    | none => s
    | some x0 =>
      let d := descDst e.l.desc
      ((Rect.mk x0 y (d.x + d.w - x0) 1).tiles tx).foldl (fun s t => s.markTile h t 55) s) s
  let s := if ls.any (fun e => e.short.isSome) then
      ((((s.bump (F.HEAD_UFLOW_COUNT h)).setBit (F.HEAD_ERR_UNDERFLOW h) true).tele 0x08 h)).updHd h
        (fun x => { x with uflows := x.uflows + 1 })
    else s
  let s := s.updHd h (fun x => { x with pals := x.pals ++ [s.glyphPal] })
  -- writeback
  let lost := (s.hd h).portBad.filter (fun t => (s.portReads h y).contains t && !(s.hd h).badTiles.any (·.1 == t))
  let s := (s.amapLost lost).updHd h (fun x => { x with portBad := lost })
  let s := (s.portsOf h).foldl (fun s w =>
    if bits full w w == 1 then s.ifWb w (fun _ => s.wbAbandon w false) else s.wbLine w y row) s
  -- dither, CRC, quad
  let on := s.lfld (F.COMP_HEAD_CFG_DITHER h) = 1
  let d := s.headDepth h
  let f := s.curFrame h
  let out := (List.range row.length).map (fun x => (row.getD x []).map (dither1 on d f x y))
  let s := s.updHd h (fun x => { x with crc := out.foldl (fun c p => crc32cFrom c (leBytes 4 (pixelWord p))) x.crc })
  s.sendLine h y out
/-- The line being drawn ends. -/
def State.finishLine (s : State) (h : Nat) : State :=
  let x := s.hd h
  match x.drawing with
  | none => s
  | some full =>
    let y := x.line.toNat
    ((s.updHd h (fun x => { x with drawing := none })).drawLine h y full).pruneFifo h (y + 1)

/-! ### The first active line (R44) -/

/-- The flip timestamp, the lock and the next frame's front-porch change. DESIGN CHOICE: a difference of exactly half a line counts as
the line above it, floor(x + 1/2). -/
def State.firstActive (s : State) (h : Nat) : State :=
  let x := s.hd h
  let d : Int := (s.time.now : Int) - ((s.curPres h * 2 ^ 40 : Nat) : Int)
  let ln : Int := (s.lineNum h : Int) * 2 ^ 40
  let ld : Int := s.lineDen h
  let e : Int := (2 * d * ld + ln) / (2 * ln)
  let m : Int := s.slewLines
  let f : Int := max (-m) (min m (-e))
  let f : Int := max f (1 - (s.lfld (F.HEAD_VSYNC_VS_START h) : Int))
  let ts := s.nowTriple
  let s := s.setReg96 (R.HEAD_TS_0 h) ts
  let s := if x.flip then s.setReg96 (R.HEAD_FLIP_TS_0 h) ts else s
  let s := s.putBitAt F.TICK_LOCK_LOCK h (decide ((d.natAbs : Int) * ld ≤ ln))
  let s := s.updHd h (fun x => { x with nextFp := if s.bit F.TICK_STATUS_RUNNING then f else 0 })
  if s.headState h = 3 then s.setHeadState h 2 else s

/-! ### HEAD_LINE_START (R278, R288) -/

/-- The frame after the one in hand begins: its front porch is changed as R44 states. -/
def State.nextFrame (s : State) (h : Nat) : State :=
  let n := s.frameAfter h (s.hd h).tick (s.hd h).second
  let s := s.updHd h (fun x => { x with tick := n.1, second := n.2, fp := x.nextFp, skewL := x.skewL + x.nextFp, nextFp := 0,
                                        latched := false, ended := false })
  s.updHd h (fun x => { x with line := s.firstLine h })

/-- Head `h` begins its next line; it holds at its latch line until HEAD_LATCH_LINE, and at its last line until HEAD_FRAME_END. -/
def State.lineStart (s : State) (h full : Nat) (bad : AmapErrs) : State :=
  let x := s.hd h
  let last := decide (x.line = (s.vact h : Int) - 1)
  if !s.headRuns h || (!x.latched && decide (x.line = s.latchLine h)) || (last && !x.ended) then s
  else
    let s := s.finishLine h
    let s := if last then s.nextFrame h else s.updHd h (fun x => { x with line := x.line + 1 })
    let s := (s.advanceTo40 (s.lineAt40 h (s.hd h).line)).showLine h
    let y := (s.hd h).line
    let s := if y = -8 && (s.hd h).latched then s.sendCert h else s
    let s := if y = 0 then s.firstActive h else s
    let s := if -2 ≤ y && y + 2 < (s.vact h : Int) then s.issueFetches h (y + 2).toNat else s
    if 0 ≤ y then s.beginLine h y.toNat full bad else s
def execHeadLineStart (h : Fin 32) (full : BitVec 8) (bad : AmapErrs) (s : State) : Out :=
  .next (s.ifRun fun s => s.lineStart h full.toNat bad)

/-! ### LAYER_FETCH_RETURN (R266, R268, R319, R370) -/

/-- Every tile that a code word with bytes [a, a + n) of row `row`, plane `k` reaches. -/
def State.wordTiles (s : State) (l : Layer) (p : Pic) (k row a n : Nat) : List Nat :=
  let d := descDst l.desc
  let w := p.stepBytes k
  let hit (c : Nat) : Bool :=
    let b := p.addr k row c
    p.colLo k ≤ c && c ≤ p.colHi k && decide (b < a + n) && decide (a < b + w)
  let colHit (i : Nat) : Bool := (hTaps (descScaled l.desc) p.src.w d.w i).any (fun c =>
    let x := p.src.x + c
    if p.fmt ≤ 3 && k == 1 then hit (x / 2) || (x % 2 == 1 && hit (min (x / 2 + 1) (p.colHi 1))) else hit x)
  let tx := s.tilesX l.head
  let cols := (((List.range d.w).filter colHit).map (fun i => (d.x + i) / 32)).eraseDups
  let rows := (((List.range d.h).filter (fun j => (l.rowsFor p (d.y + j)).contains (k, row))).map (fun j => (d.y + j) / 32)).eraseDups
  rows.flatMap (fun r => cols.map (fun c => r * tx + c))

/-- A display read of DRAM that took `ns` is recorded on the channels of its `n` blocks (R349, R432). -/
def State.fetchLat (s : State) (a n ns : Nat) : State :=
  if s.regionN a (64 * n) ≠ .dram then s
  else (((unitsOf .dram a (64 * n)).map dramChan).eraseDups).foldl (fun s c =>
    (s.sample 1 c ns).setFld (F.DDR_LAT_MAX_NS c) (max (s.fld (F.DDR_LAT_MAX_NS c)) (min ns 0xFFFF))) s

/-- The next `n` blocks of fetch `f` of head `h` and pipe `lp` are read: the state after it, their address, the data, and the words that carry no
data, in units of the code (R268). `par` is what parity found, by 32-bit words, `ecc` what the FIFO and the line buffers held, by code words
(R369). -/
def State.fetchData (s : State) (h lp : Nat) (f : Fetch) (n : Nat) (par ecc : RowErrs) : State × Nat × List Byte × List Nat :=
  let a := f.addr + f.got.length
  let r := s.serve 0x70 a (64 * n)
  let s := r.st.fetchLat a n (2 * (s.time.clk - f.clk))
  let u := if s.region a = .dram then 32 else 8
  let hard := par.lasting.filter (fun i => 4 * i < 64 * n)
  let s := s.parity 0x70 a ⟨hard, par.mended⟩
  let lost (w : Nat) : Bool := (slice (r.bad.map (fun b => if b then (1 : Byte) else 0)) (u * w) u).any (· != 0) ||
    hard.any (fun i => 4 * i / u == w) || ecc.lasting.contains w
  let s := (ecc.lasting.eraseDups.filter (fun w => w < 64 * n / u)).foldl (fun s _ => s.storeUe) (s.storeCe ecc.mended)
  let ws := (List.range (64 * n / u)).filter lost
  let s := if ws.isEmpty then s else (s.compErr 6 h lp).updHd h (fun x => { x with poison := true })
  let s := ws.foldl (fun s w => s.poisonRec 0x70 (a + u * w) 3 h lp) s
  (s, u, ws.foldl (fun d w => overlay d (u * w) (List.replicate u 0)) (r.dmaBytes a (64 * n)), ws)

/-- Blocks of a row of an earlier frame arrive: no line shows them, and poison among them still sets the layer's cause (R319). -/
def State.lateReturn (s : State) (h : Nat) (f : Fetch) (n : Nat) (par ecc : RowErrs) : State :=
  let n := min n (f.blocks - f.got.length / 64)
  let p := s.fetchData h f.lp f n par ecc
  let s := (p.1.tele 0x0A h n).updHd h (fun x => { x with late :=
    (x.late.map (fun g => if g = f then { g with got := g.got ++ p.2.2.1 } else g)).filter (fun g => g.got.length < 64 * g.blocks) })
  if p.2.2.2.isEmpty then s
  else match s.layerOf f.lp with
    | some l =>
      let s := s.putLayer { l with spoilt := true }
      match l.pic with
      | some q => ((p.2.2.2.flatMap (fun w => s.wordTiles l q f.plane f.row (f.addr + f.got.length + p.2.1 * w) p.2.1)).eraseDups).foldl
          (fun s t => s.markTile h t 53) s
      | none => s
    | none => s

/-- Blocks of a row arrive in the FIFO; a row of an earlier frame that is still to come arrives first. -/
def State.fetchReturn (s : State) (h lp plane row n : Nat) (par ecc : RowErrs) : State :=
  let mine (f : Fetch) : Bool := f.lp == lp && f.plane == plane && f.row == row
  match (s.hd h).late.find? mine with
  | some f => if s.waits (s.region (f.addr + f.got.length)) then s else s.lateReturn h f n par ecc
  | none =>
  match (s.hd h).fifo.find? mine, s.layerOf lp with
  | some f, some l =>
    (match l.pic with
     | none => s
     | some p =>
       if s.waits (s.region (f.addr + f.got.length)) then s else
       let n := min n (f.blocks - f.got.length / 64)
       let d := s.fetchData h lp f n par ecc
       let u := d.2.1
       let ws := d.2.2.2
       let s := d.1.updHd h (fun x => { x with blocks := x.blocks + n, fifo := x.fifo.map (fun g =>
         if mine g then { g with got := g.got ++ d.2.2.1 } else g) })
       let s := s.tele 0x0A h n
       let tiles := (ws.flatMap (fun w => s.wordTiles l p plane row (f.addr + f.got.length + u * w) u)).eraseDups
       let s := s.putLayer { l with blocks := l.blocks + n, tiles := (l.tiles ++ tiles).eraseDups, spoilt := l.spoilt || !ws.isEmpty }
       tiles.foldl (fun s t => s.markTile h t 53) s)
  | _, _ => s
def execLayerFetchReturn (h : Fin 32) (lp : Fin 384) (plane : Fin 3) (row n : Nat) (par ecc : RowErrs) (s : State) : Out :=
  .next (s.ifRun fun s => if s.headRuns h then s.fetchReturn h lp plane row n par ecc else s)

/-! ### HEAD_FRAME_END (R284, R289, R293, R295) -/

def State.frameEnd (s : State) (h : Nat) : State :=
  let x := s.hd h
  if !s.headRuns h || x.ended || x.line ≠ (s.vact h : Int) - 1 then s
  else
    let s := (s.finishLine h)
    let s := s.advanceTo40 (s.lineAt40 h (s.vact h))
    let s := (s.portsOf h).foldl (fun s w => s.wbEnd w) s
    let x := s.hd h
    let veiled := (x.amap.filter entryVeiled).length
    let s := s.updHd h (fun x => { x with
      ended := true, quietAt := s.nowNs + 4000, prevCrc := x.crc ^^^ 0xFFFFFFFF, prevW := s.hact h, prevH := s.vact h,
      prevVeiled := veiled, prevUflow := x.uflows, prevPoison := x.poison,
      fifo := x.fifo.filter (fun f => f.got.length < 64 * f.blocks) })
    let s := s.setFlds [(F.FG_HEAD_STAT_PREV_VEILED h, veiled), (F.COMP_HFETCH_BLOCKS h, x.blocks)]
    let s := (s.stackOf h).foldl (fun s l => s.setFld (F.COMP_LP_FETCH_BLOCKS l.lp) l.blocks) s
    let s := s.tele 0x07 h
    if s.headState h = 4 then s.headStopped h else s
def execHeadFrameEnd (h : Fin 32) (s : State) : Out := .next (s.ifRun fun s => s.frameEnd h)

/-! ### FG_LOCK (R337) and the scaler coefficients (R273) -/

def execFgLockSet (m : Mst) (w : Word) (s : State) : Out :=
  .next (s.runReg m.toNat R.FG_LOCK w.toNat (fun a => State.stickyLock a R.FG_LOCK F.FG_LOCK_LOCK))

/-- Whether a held scaler serves a layer whose SCALE.TABLE is `t`. -/
def State.tableInUse (s : State) (t : Nat) : Bool := s.layers.any (fun l => l.scalers && descTable l.desc == t)
/-- A coefficient register `off` of table `t`. -/
def State.sclCoef (t off : Nat) (a : Admit) : State :=
  if a.st.tableInUse t then a.st.setBit F.SCL_ERR_CFG true else a.plain off
/-- The coefficient registers of table `t`: vertical or horizontal, phase, pair. -/
def sclReg (vert : Bool) (t p k : Nat) : Nat := if vert then R.SCL_VCOEF t p (k % 2) else R.SCL_HCOEF t p k
def execSclCoefWrite (m : Mst) (vert : Bool) (t : Fin 2) (p : Fin 64) (k : Fin 4) (w : Word) (s : State) : Out :=
  .next (s.runReg m.toNat (sclReg vert t p k) w.toNat (State.sclCoef t (sclReg vert t p k)))

end Sys2Proof.Machine
end

