-- ==== Sys2Proof/Machine/Inputs.lean ====
section
/-!
DEFINITION. Baseband inputs (R148, R149, R253 to R255, R272, R316): frames received on Q12 to Q19 and written to the inputs' rings.
Readings and choices beyond the spec's plain words: log entries 36 and 47.
-/
namespace Sys2Proof.Machine

def State.inp (s : State) (j : Nat) : InSt := Tbl.get (fun _ => {}) s.ins j
def State.setInp (s : State) (j : Nat) (x : InSt) : State := { s with ins := Tbl.set (fun _ => {}) s.ins j x }
def State.inEn (s : State) (j : Nat) : Bool := s.bit (F.COMP_IN_CTL_EN j)

/-- Pixels in a payload of `n` bytes of link format `fmt` (R143). -/
def pixelsIn (fmt n : Nat) : Nat := if fmt == 0 then n / 15 * 4 else if fmt == 1 then n / 3 else if fmt == 2 then n / 5 * 2 else 0

/-- The bytes of plane 0 and plane 1 for `n` pixels of a payload (R253). -/
def storePixels (fmt n : Nat) (d : List Byte) : List Byte × List Byte :=
  if fmt == 0 then ((List.range n).flatMap (fun i => leBytes 4 (bits (leNat (slice d (i / 4 * 15) 15)) (30 * (i % 4) + 29) (30 * (i % 4)) + 3 * 2 ^ 30)), [])
  else if fmt == 1 then ((List.range n).flatMap (fun i => slice d (3 * i) 3 ++ [0xFF]), [])
  else
    let s (i k : Nat) : Nat := bits (leNat (slice d (5 * i) 5)) (10 * k + 9) (10 * k)
    ((List.range n).flatMap (fun i => leBytes 2 (s (i / 2) (2 * (i % 2)))),
      (List.range (ceilDiv n 2)).flatMap (fun i => leBytes 2 (s i 1) ++ leBytes 2 (s i 3)))

def State.inPitch (s : State) (j : Nat) : Nat := s.fld (F.COMP_IN_CTL_PITCH j) * 256
def State.inStride (s : State) (j : Nat) : Nat := s.fld (F.COMP_IN_STRIDE_SIZE j) * 4096
def State.inChroma (s : State) (j : Nat) : Nat := s.fld (F.COMP_IN_CHROMA_SIZE j) * 4096

/-- R254: the lines of a frame fit the slot. -/
def State.inFits (s : State) (j w h : Nat) : Bool :=
  let yc := s.inFmt j == 2
  let row := if yc then 2 * w else 4 * w
  let crow := ceilDiv w 2 * 4
  let p := s.inPitch j
  decide (row ≤ p) && decide (0x1000 + (h - 1) * p + row ≤ s.inStride j) &&
    (!yc || (decide (crow ≤ p) && decide (s.inChroma j + (h - 1) * p + crow ≤ s.inStride j)))

/-- The slot header (R253). -/
def inHeader (f : Nat) (x : InFrame) : List Byte :=
  slice (leBytes 8 f ++ leBytes 12 x.stamp ++ leBytes 2 x.w ++ leBytes 2 x.h) 0 64

/-- A frame starts (R149, R253 to R255). -/
def State.inStart (s : State) (q j w h fmt : Nat) : State :=
  if !s.inEn j then s
  else
    let x := s.inp j
    let s := if x.cur.isSome then s.linkDrop q else s
    let f := x.num + 1
    let k := f % s.inSlots j
    let held := s.slotHeld j k
    let badFmt := fmt ≠ s.inFmt j
    let fits := s.inFits j w h
    let y : InFrame := { w := w, h := h, fmt := fmt, stamp := s.nowTriple, store := !held && !badFmt && fits, parts := [] }
    let s := s.setInp j { x with cur := some y }
    let s := if held then s.compErr 4 j 0 else (s.writeAll (0x30 + q) (s.inSlot j k) (inHeader 0 y)).1
    let s := if badFmt then s.compErr 1 j 0 else s
    if !badFmt && !fits then s.compErr 5 j 0 else s

/-- FRAME_START of slot `k` on quad Q12 + `q`: HACTIVE, VACTIVE and FLAGS.FMT. -/
def execFrameStart (q : Fin 8) (seq : BitVec 12) (k : BitVec 2) (w h : BitVec 16) (fmt : BitVec 2) (s : State) : Out :=
  .next (s.rxBarge (12 + q) seq.toNat 0 32 (fun s =>
    if k = 3 then s else s.inStart (12 + q) (3 * q + k.toNat) w.toNat h.toNat fmt.toNat))

/-- Line `y` has arrived from pixel `x` to its end, in at most `n` barges. -/
def InFrame.lineDone (f : InFrame) (y : Nat) : Nat → Nat → Bool
  | 0, x => decide (f.w ≤ x)
  | n + 1, x =>
    if f.w ≤ x then true
    else match f.parts.find? (fun p => p.1 == (y, x)) with
      | some p => 1 ≤ pixelsIn f.fmt p.2.length && f.lineDone y n (x + pixelsIn f.fmt p.2.length)
      | none => false
def InFrame.complete (f : InFrame) : Bool := (List.range f.h).all (fun y => f.lineDone y f.w 0)
/-- Payloads in the order of line and first pixel. -/
def insertPart (p : (Nat × Nat) × List Byte) : List ((Nat × Nat) × List Byte) → List ((Nat × Nat) × List Byte)
  | [] => [p]
  | q :: qs =>
    if q.1 = p.1 then p :: qs
    else if p.1.1 < q.1.1 || (p.1.1 == q.1.1 && p.1.2 < q.1.2) then p :: q :: qs
    else q :: insertPart p qs

/-- PIXELS of input `j` (R143, R149, R253, R254). -/
def State.inPixels (s : State) (q j y x : Nat) (d : List Byte) : State :=
  match (s.inp j).cur with
  | none => s
  | some f =>
    if !s.inEn j || f.h ≤ y || f.w ≤ x then s
    else
      let f := { f with parts := insertPart ((y, x), d) f.parts }
      let num := (s.inp j).num + 1
      let slot := s.inSlot j (num % s.inSlots j)
      let s :=
        if !f.store then s
        else
          let n := min (pixelsIn f.fmt d.length) (f.w - x)
          let p := storePixels f.fmt n d
          let w := if f.fmt = 2 then 2 else 4
          let a := slot + 0x1000 + y * s.inPitch j + w * x
          let s := (s.writeAll (0x30 + q) a (padWords a p.1)).1
          if p.2.isEmpty then s
          else
            let b := slot + s.inChroma j + y * s.inPitch j + 2 * x
            (s.writeAll (0x30 + q) b (padWords b p.2)).1
      if f.complete then
        let i := s.inp j
        let h := (num, crc32c (f.parts.flatMap (·.2)), f.w, f.h)
        let s := s.setInp j { num := num, cur := none, hist := (i.hist ++ [h]).drop (i.hist.length + 1 - 16) }
        if f.store then (s.writeAll (0x30 + q) slot (inHeader num f)).1 else s
      else s.setInp j { s.inp j with cur := some f }
def execPixels (q : Fin 8) (seq : BitVec 12) (k : BitVec 2) (y : BitVec 12) (x : BitVec 13) (_last : Bool) (d : List Byte) (s : State) : Out :=
  .next (s.rxBarge (12 + q) seq.toNat 0 d.length (fun s =>
    if k = 3 then s else s.inPixels (12 + q) (3 * q + k.toNat) y.toNat x.toNat d))

/-- COMP_IN_CTL_j (R272): a change of EN starts the count afresh. -/
def State.inCtl (j : Nat) (a : Admit) : State :=
  let t := a.plain (R.COMP_IN_CTL j)
  let was := a.st.inEn j
  if was && ((t.reg (R.COMP_IN_CTL j)) ^^^ (a.st.reg (R.COMP_IN_CTL j))).toNat % 2 ^ 31 ≠ 0 then a.st.compErr 7 j 0
  else if t.inEn j && !was then
    if t.fld (F.COMP_IN_CTL_SLOTS j) < 2 || t.fld (F.COMP_IN_STRIDE_SIZE j) < 2 then (t.setBit (F.COMP_IN_CTL_EN j) false).compErr 7 j 0
    else t.setInp j {}
  else if was && !t.inEn j then t.setInp j { t.inp j with cur := none }
  else t
def execInputEnable (m : Mst) (j : Fin 24) (w : Word) (s : State) : Out :=
  .next (s.runReg m.toNat (R.COMP_IN_CTL j) w.toNat (State.inCtl j))
/-- The other ring registers while EN is 1. -/
def State.inCfg (j off : Nat) (a : Admit) : State :=
  let t := a.plain off
  if a.st.inEn j && t.reg off ≠ a.st.reg off then a.st.compErr 7 j 0 else t

end Sys2Proof.Machine
end

