-- ==== Sys2Proof/Machine/LinkTest.lean ====
section
/-!
DEFINITION. Test modes, pattern checkers, error injection and the eye scan of a quad (R167 to R177).
Readings and choices beyond the spec's plain words: log entry 46.
-/
namespace Sys2Proof.Machine

/-- The counts of the checkers are zeroed (R172, R176). -/
def State.testZero (s : State) (q : Nat) : State :=
  (List.range 4).foldl (fun s n => s.setFld (F.BL_TEST_ERR_COUNT q n) 0) (s.setReg64 (R.BL_TEST_BITS_LO q) (R.BL_TEST_BITS_HI q) 0)

/-- A mode starts: generators all ones, checkers without lock, no inversion pending (R167, R169, R171). -/
def State.testStart (s : State) (q : Nat) : State :=
  ((s.testZero q).setFlds [(F.BL_TEST_STAT_IN_TEST q, 1), (F.BL_TEST_STAT_LOCK q, 0)]).setTest q
    { gen := 2 ^ (prbsTaps (s.fld (F.BL_TEST_CTL_PAT q))).1 - 1, load := List.replicate 4 0 }

/-- BL_TEST_CTL (R169, R170, R176). -/
def State.testCtl (q : Nat) (a : Admit) : State :=
  let m0 := a.st.testMode q
  let m1 := modeOf (a.get (F.BL_TEST_CTL_MODE q))
  if q < 12 && m0 = 0 && m1 ≠ 0 && a.st.quadScans q then a.st.setBit (F.BL_ERR_CFG q) true
  else
    let s := a.plain (R.BL_TEST_CTL q)
    let s := if a.one (F.BL_TEST_CTL_CLR q) then s.testZero q else s
    if m0 = m1 then s.testSync q
    else
      let s := s.eyeAbort q
      if m1 = 0 then
        let s := (s.setFlds [(F.BL_TEST_STAT_IN_TEST q, 0), (F.BL_TEST_STAT_LOCK q, 0)]).setTest q {}
        s.bringUp q (s.bit (F.BL_CTRL_TX_EN q)) (s.bit (F.BL_CTRL_RX_EN q))
      else
        let s := if m0 = 0 then (s.linkFresh q).setStates q 0 0 else s
        s.testStart q
def execTestModeSet (m : Mst) (q : Fin 24) (w : Word) (s : State) : Out := .next (s.runReg m.toNat (R.BL_TEST_CTL q) w.toNat (State.testCtl q))
def execTestClr (m : Mst) (q : Fin 24) (w : Word) (s : State) : Out := .next (s.runReg m.toNat (R.BL_TEST_CTL q) w.toNat (State.testCtl q))

/-- CHECKER_LOCK (R172): the lane has loaded its n bits and the next 1,024 have matched. An inversion still to come among them, on a pattern
looped back within the device, makes one of them mismatch. -/
def execCheckerLock (q : Fin 24) (lane : Fin 4) (s : State) : Out :=
  .next <| s.ifRun fun s =>
    if !s.checks q lane || s.bitAt (F.BL_TEST_STAT_LOCK q) lane || ((s.testMode q = 2 || s.testMode q = 3) && !s.generates q) then s
    else
      let t := s.test q
      let need := t.load.getD lane 0 + (prbsTaps (s.fld (F.BL_TEST_CTL_PAT q))).1 + 1024
      if s.nearLoop q && t.inj.any (fun e => e.1 == lane.val && decide (t.bits + (e.2 - t.sent) < need)) then s
      else (s.advance (ceilDiv (10 * (need - t.bits) - t.tenths) (s.laneTenths q))).putBitAt (F.BL_TEST_STAT_LOCK q) lane true

/-- CHECKER_LOCK_LOST (R172): of the next 1,024 bits `errs` mismatch, at least 256; they are counted, and the lock is lost at their end
(DESIGN CHOICE, log entry 46). -/
def execCheckerLockLost (q : Fin 24) (lane : Fin 4) (errs : Word) (s : State) : Out :=
  .next <| s.ifRun fun s =>
    if s.checks q lane && s.bitAt (F.BL_TEST_STAT_LOCK q) lane && 256 ≤ errs.toNat && errs.toNat ≤ 1024 then
      let n := s.fld (F.BL_TEST_ERR_COUNT q lane)
      let s := s.advance (ceilDiv (10240 - (s.test q).tenths) (s.laneTenths q))
      let t := s.test q
      ((((s.setFld (F.BL_TEST_ERR_COUNT q lane) n).bump (F.BL_TEST_ERR_COUNT q lane) errs.toNat).putBitAt (F.BL_TEST_STAT_LOCK q) lane false).putBitAt
        (F.BL_TEST_STAT_LOCK_LOST q) lane true).setTest q { t with load := t.load.set lane t.bits }
    else s

/-- The sent bit with number `at'` is inverted on each selected lane, once where two inversions meet (R173). -/
def State.invertAt (s : State) (q at' : Nat) : State :=
  let t := s.test q
  let new := ((List.range 4).filter (fun i => s.bitAt (F.BL_TEST_INJ_LANES q) i)).map (fun i => (i, at'))
  s.setTest q { t with inj := t.inj ++ new.filter (fun e => !t.inj.contains e) }

/-- The bits sent from one periodic inversion to the next (R173). -/
def State.injPeriod (s : State) (q : Nat) : Nat := 2 ^ max 10 (s.fld (F.BL_TEST_INJ_RATE_EXP q))

/-- BL_TEST_INJ (R173): the next bit the generator sends, or bit 0 of byte 0 of the next data block of each lane; a second write before that
block inverts the block after it. A new RATE_EXP counts from the bits sent so far. -/
def State.testInj (q : Nat) (a : Admit) : State :=
  let e0 := a.st.fld (F.BL_TEST_INJ_RATE_EXP q)
  let s := a.plain (R.BL_TEST_INJ q)
  let s := if s.inTest q && s.fld (F.BL_TEST_INJ_RATE_EXP q) ≠ e0 then s.setTest q { s.test q with perAt := (s.test q).sent } else s
  if !a.one (F.BL_TEST_INJ_SINGLE q) then s
  else if s.inTest q then (if s.generates q then s.invertAt q (s.test q).sent else s)
  else if s.txState q = 4 then
    s.updLink q (fun l => { l with inject := (List.range 4).map (fun i => l.inject.getD i 0 + (s.bitAt (F.BL_TEST_INJ_LANES q) i).toNat) })
  else s
def execInjectSingle (m : Mst) (q : Fin 24) (w : Word) (s : State) : Out := .next (s.runReg m.toNat (R.BL_TEST_INJ q) w.toNat (State.testInj q))

/-- INJECT_PERIODIC (R173): 2^RATE_EXP bits after the last one, the next bit is inverted. -/
def execInjectPeriodic (q : Fin 24) (s : State) : Out :=
  .next <| s.ifRun fun s =>
    if s.fld (F.BL_TEST_INJ_RATE_EXP q) = 0 || !s.generates q then s
    else
      let t := s.test q
      let at' := max t.sent (t.perAt + s.injPeriod q)
      let s := s.invertAt q at'
      let s := s.setTest q { s.test q with perAt := at' }
      s.advance (ceilDiv (10 * (at' + 1 - t.sent) - t.tenths) (s.laneTenths q))

/-! ### Eye scan (R174, R175) -/

/-- BL_EYE_CTL (R174, R175). -/
def State.eyeCtl (q : Nat) (a : Admit) : State :=
  let s := a.st
  if s.bit (F.BL_EYE_STAT_BUSY q) then
    let s := if a.one (F.BL_EYE_CTL_START q) || (a.w &&& 0x0F0FF7F3) ≠ (a.old &&& 0x0F0FF7F3) then s.setBit (F.BL_ERR_CFG q) true else s
    if a.one (F.BL_EYE_CTL_ABORT q) then s.eyeAbort q else s
  else
    let s := a.plain (R.BL_EYE_CTL q)
    if a.one (F.BL_EYE_CTL_START q) then
      (s.setTest q { s.test q with eye := some 0 }).setFlds [(F.BL_EYE_STAT_DONE q, 0), (F.BL_EYE_STAT_ABORTED q, 0), (F.BL_EYE_ERR_COUNT q, 0), (F.BL_EYE_BITS_COUNT q, 0),
        (F.BL_EYE_STAT_BUSY q, 1), (F.BL_EYE_STAT_PAUSED q, (!s.eyeCounts q).toNat)]
    else s
def execEyeScanStart (m : Mst) (q : Fin 24) (w : Word) (s : State) : Out := .next (s.runReg m.toNat (R.BL_EYE_CTL q) w.toNat (State.eyeCtl q))
def execEyeScanAbort (m : Mst) (q : Fin 24) (w : Word) (s : State) : Out := .next (s.runReg m.toNat (R.BL_EYE_CTL q) w.toNat (State.eyeCtl q))

/-- EYE_SCAN_DONE (R174): 2^(16 + DWELL) bits have been compared; of those not counted yet, `errs` differ. -/
def execEyeScanDone (q : Fin 24) (errs : Nat) (s : State) : Out :=
  .next <| s.ifRun fun s =>
    if s.bit (F.BL_EYE_STAT_BUSY q) && s.eyeCounts q then
      let left := s.eyeLength q - s.fld (F.BL_EYE_BITS_COUNT q)
      let clocks := ceilDiv (10 * left - (s.test q).eye.getD 0) (s.laneTenths q)
      let s := (s.setTest q { s.test q with eye := none }).advance clocks
      ((s.bump (F.BL_EYE_BITS_COUNT q) left).bump (F.BL_EYE_ERR_COUNT q) (min left errs)).setFlds
        [(F.BL_EYE_STAT_BUSY q, 0), (F.BL_EYE_STAT_PAUSED q, 0), (F.BL_EYE_STAT_DONE q, 1)]
    else s

end Sys2Proof.Machine
end

