-- ==== Sys2Proof/Machine/Mgmt.lean ====
section
/-!
DEFINITION. KEEP_RESET (R506 to R509, R526), the xSPI controller (R527), the I²C controllers, UARTs and GPIOs (R546 to R548), and
the test access port but for its memory accesses (R543, R544).
Readings and choices beyond the spec's plain words: log entries 22, 37, 39 and 70.
-/
namespace Sys2Proof.Machine

/-! ### KEEP_RESET -/

/-- A write to KEEP_RESET: any KIND other than 4 to 7 is discarded, and so is an INDEX that names no engine. -/
def State.keepReset (a : Admit) : State :=
  let s := a.st
  if !a.took F.KEEP_RESET_KIND then s
  else
    let i := a.get F.KEEP_RESET_INDEX
    let code := a.get F.KEEP_RESET_CODE
    match a.get F.KEEP_RESET_KIND with
    | 4 => s.takeReset .sys 0 code
    | 5 => s.appReset.resetRec 5 0 (causeWord 5 0 code)
    | 6 => (s.headReset i).resetRec 6 i (causeWord 6 0 code)
    | 7 =>
      if i < 16 then (s.decReset i).resetRec 7 i (causeWord 7 0 code)
      else if i < 24 then (s.encReset (i - 16)).resetRec 7 i (causeWord 7 0 code)
      else s
    | _ => s
def keepResetCmd (kind : Nat) (m : Mst) (index : BitVec 5) (code : BitVec 8) (s : State) : Out :=
  .next (s.runReg m.toNat R.KEEP_RESET (kind * 2 ^ 28 + index.toNat * 2 ^ 8 + code.toNat) State.keepReset)
def execResetSys (m : Mst) (index : BitVec 5) (code : BitVec 8) (s : State) : Out := keepResetCmd 4 m index code s
def execResetApp (m : Mst) (index : BitVec 5) (code : BitVec 8) (s : State) : Out := keepResetCmd 5 m index code s
def execResetHead (m : Mst) (index : BitVec 5) (code : BitVec 8) (s : State) : Out := keepResetCmd 6 m index code s
def execResetEngine (m : Mst) (index : BitVec 5) (code : BitVec 8) (s : State) : Out := keepResetCmd 7 m index code s

/-! ### The boot flash -/

/-- First offset and length of what an operation touches: an erase takes the whole aligned block. -/
def XspiOp.area (o : XspiOp) : Nat × Nat :=
  if o.kind = 1 then (o.off / 4096 * 4096, 4096)
  else if o.kind = 2 then (o.off / 65536 * 65536, 65536)
  else (o.off, o.data.length)

/-- A write to MGMT_XSPI_CMD. Unlisted values of OP and LEN act as 0 (R5). -/
def State.xspiCmd (a : Admit) : State :=
  let s := a.plain R.MGMT_XSPI_CMD
  if !a.one F.MGMT_XSPI_CMD_GO || s.pwr.xop.isSome then s
  else
    let op := s.fld F.MGMT_XSPI_CMD_OP
    let len := s.fld F.MGMT_XSPI_CMD_LEN
    let buf := (List.range 64).flatMap (fun w => leBytes 4 (s.reg (R.MGMT_XSPI_BUF w)).toNat)
    let o : XspiOp := ⟨if op = 3 then 0 else op, s.fld F.MGMT_XSPI_ADDR_OFF, buf.take (if len ≤ 256 then len else 0), s.time.clk⟩
    let r := o.area
    if r.1 < s.fld F.MGMT_XSPI_PROT_TOP * 4096 || s.xspiSize < r.1 + r.2 || (o.kind = 0 && 256 < o.off % 256 + r.2) then
      s.setFlds [(F.MGMT_XSPI_CMD_GO, 0), (F.MGMT_XSPI_STAT_REFUSED, 1)]
    else { s.setBit F.MGMT_XSPI_STAT_BUSY true with pwr := { s.pwr with xop := some o } }
def xspiWrite (m : Mst) (w : Word) (s : State) : Out := .next (s.runReg m.toNat R.MGMT_XSPI_CMD w.toNat State.xspiCmd)
def execXspiProgram (m : Mst) (w : Word) (s : State) : Out := xspiWrite m w s
def execXspiErase4k (m : Mst) (w : Word) (s : State) : Out := xspiWrite m w s
def execXspiErase64k (m : Mst) (w : Word) (s : State) : Out := xspiWrite m w s

/-- What an operation leaves in the flash: a program clears bits, an erase sets them all. -/
def State.flashAfter (s : State) (o : XspiOp) (fail : Bool) : Tbl Byte :=
  let r := o.area
  let d : List Byte :=
    if fail then (span r.1 r.2).map (fun x => Config.flashFail x s.time.clk)
    else if o.kind = 0 then (s.flashBytes o.off r.2).zipWith (· &&& ·) o.data
    else List.replicate r.2 0xFF
  Tbl.setN (fun _ => 0xFF) s.flash r.1 d
/-- The operation ends, with DONE or with ERR. -/
def State.xspiEnd (s : State) (o : XspiOp) (fail : Bool) : State :=
  let s := { s with flash := s.flashAfter o fail, pwr := { s.pwr with xop := none } }
  s.setFlds [(F.MGMT_XSPI_CMD_GO, 0), (F.MGMT_XSPI_STAT_BUSY, 0), (if fail then F.MGMT_XSPI_STAT_ERR else F.MGMT_XSPI_STAT_DONE, 1)]
def execXspiOpDone (err : Bool) (s : State) : Out :=
  .next <| s.ifRun fun s =>
    match s.pwr.xop with
    | some o => s.xspiEnd o err
    | none => s
/-- XSPI_TIMEOUT: 500 ms after the operation began. -/
def execXspiTimeout (s : State) : Out :=
  .next <| s.ifRun fun s =>
    match s.pwr.xop with
    | some o => (s.advance (o.clk + 250000000 - s.time.clk)).xspiEnd o true
    | none => s

/-! ### I²C -/

def State.i2c (s : State) (k : Nat) : I2cSt := Tbl.get (fun _ => {}) s.i2cs k
def State.setI2c (s : State) (k : Nat) (x : I2cSt) : State := { s with i2cs := Tbl.set (fun _ => {}) s.i2cs k x }
/-- WLEN and RLEN; values above 8 act as 0 (R5). -/
def lenOf (v : Nat) : Nat := if v ≤ 8 then v else 0
/-- The transfer that GO starts (R546): a write, a write and a read behind a repeated START, a read alone, or a probe; all of it
acknowledged. -/
def State.i2cItems (s : State) (k : Nat) : List BusItem :=
  let a := s.fld (F.MGMT_I2C_CTL_ADDR k)
  let w := lenOf (s.fld (F.MGMT_I2C_CTL_WLEN k))
  let r := lenOf (s.fld (F.MGMT_I2C_CTL_RLEN k))
  let d := (leBytes 8 (s.reg64 (R.MGMT_I2C_WDATA_LO k) (R.MGMT_I2C_WDATA_HI k))).take w
  (if w = 0 && r ≠ 0 then [] else [.start, .addr a false] ++ d.map .write) ++
    (if r = 0 then [] else [.start, .addr a true] ++ List.replicate r .read) ++ [.stop]
/-- The SCL rate of a SPEED in kHz; 3 acts as 0. -/
def i2cKhz (v : Nat) : Nat := if v = 1 then 400 else if v = 2 then 1000 else 100
/-- A write to MGMT_I2C_CTL_k: discarded while BUSY. -/
def State.i2cCtl (k : Nat) (a : Admit) : State :=
  if a.st.bit (F.MGMT_I2C_STAT_BUSY k) then a.st
  else
    let s := a.plain (R.MGMT_I2C_CTL k)
    if a.one (F.MGMT_I2C_CTL_GO k) then
      (s.setBit (F.MGMT_I2C_STAT_BUSY k) true).setI2c k ⟨s.i2cItems k, i2cKhz (s.fld (F.MGMT_I2C_CTL_SPEED k))⟩
    else s
def execI2cTransfer (m : Mst) (k : Fin 4) (w : Word) (s : State) : Out :=
  .next (s.runReg m.toNat (R.MGMT_I2C_CTL k.val) w.toNat (State.i2cCtl k.val))

/-- The transfer in progress on controller `k` ends with bit `e` of END. -/
def State.i2cEnd (s : State) (k e : Nat) : State :=
  (s.setFlds [(F.MGMT_I2C_CTL_GO k, 0), (F.MGMT_I2C_STAT_BUSY k, 0)]).orFld (F.MGMT_I2C_STAT_END k) (2 ^ e)
def State.i2cEvent (s : State) (k e : Nat) : State :=
  s.ifRun fun s => if s.bit (F.MGMT_I2C_STAT_BUSY k) then s.i2cEnd k e else s
/-- I2C_TRANSFER_END: the RLEN bytes read take their places. A target that does not acknowledge its address gets a STOP and nothing more. -/
def execI2cTransferEnd (k : Fin 4) (ack : Bool) (d : DWord) (s : State) : Out :=
  .next <| s.ifRun fun s =>
    let k := k.val
    if !s.bit (F.MGMT_I2C_STAT_BUSY k) then s
    else if !ack then (s.setI2c k { s.i2c k with bus := (s.i2c k).bus.take 2 ++ [.stop] }).i2cEnd k 1
    else
      let n := lenOf (s.fld (F.MGMT_I2C_CTL_RLEN k))
      let old := s.reg64 (R.MGMT_I2C_RDATA_LO k) (R.MGMT_I2C_RDATA_HI k)
      let v := leNat (overlay (leBytes 8 old) 0 ((leBytes 8 d.toNat).take n))
      (s.setReg64 (R.MGMT_I2C_RDATA_LO k) (R.MGMT_I2C_RDATA_HI k) v).i2cEnd k 0
def execI2cArbLost (k : Fin 4) (s : State) : Out := .next (s.i2cEvent k.val 2)
def execI2cTimeout (k : Fin 4) (s : State) : Out := .next (s.i2cEvent k.val 3)

/-! ### UARTs -/

def State.uart (s : State) (u : Nat) : UartSt := Tbl.get (fun _ => {}) s.uarts u
/-- The FIFOs change, and MGMT_UART_STAT shows their levels. -/
def State.setUart (s : State) (u : Nat) (x : UartSt) : State :=
  ({ s with uarts := Tbl.set (fun _ => {}) s.uarts u x }).setFlds
    [(F.MGMT_UART_STAT_TXLEVEL u, x.tx.length), (F.MGMT_UART_STAT_RXLEVEL u, x.rx.length),
     (F.MGMT_UART_STAT_RXREADY u, if x.rx.isEmpty then 0 else 1)]

/-- A write to MGMT_UART_CFG_u: PARITY and DIV keep their values while EN is 1. -/
def State.uartCfg (u : Nat) (a : Admit) : State :=
  if a.st.bit (F.MGMT_UART_CFG_EN u) then a.st.setFld (F.MGMT_UART_CFG_EN u) (a.get (F.MGMT_UART_CFG_EN u))
  else
    let s := a.plain (R.MGMT_UART_CFG u)
    if s.bit (F.MGMT_UART_CFG_EN u) then s.setUart u { s.uart u with since := s.time.clk } else s

/-- A write to MGMT_UART_TX_u. -/
def State.uartTx (u : Nat) (a : Admit) : State :=
  let s := a.st
  let x := s.uart u
  if 64 ≤ x.tx.length then s.orFld (F.MGMT_UART_STAT_ERR u) 8
  else s.setUart u { x with
    tx := x.tx ++ [BitVec.ofNat 8 (a.get (F.MGMT_UART_TX_DATA u))], since := if x.tx.isEmpty then s.time.clk else x.since }
def execUartTxWrite (m : Mst) (u : Fin 2) (w : Word) (s : State) : Out :=
  .next (s.runReg m.toNat (R.MGMT_UART_TX u.val) w.toNat (State.uartTx u.val))

/-- REFCLK clocks of 2 ns that a byte takes: start, 8 data bits, parity, stop, at 16 × DIV clocks of 10 ns a bit. -/
def State.uartByte (s : State) (u : Nat) : Nat :=
  let p := s.fld (F.MGMT_UART_CFG_PARITY u)
  (if p = 1 || p = 2 then 11 else 10) * 16 * max 1 (s.fld (F.MGMT_UART_CFG_DIV u)) * 5
/-- UART_TX_BYTE_SENT. -/
def execUartTxByteSent (u : Fin 2) (s : State) : Out :=
  .next <| s.ifRun fun s =>
    let u := u.val
    match (s.uart u).tx with
    | [] => s
    | b :: bs =>
      if !s.bit (F.MGMT_UART_CFG_EN u) then s
      else
        let s := s.advance ((s.uart u).since + s.uartByte u - s.time.clk)
        { s.setUart u { s.uart u with tx := bs, since := s.time.clk } with resp := .bytes [b] }
/-- UART_RX_BYTE; without a parity selected there is no parity bit to be wrong. -/
def execUartRxByte (u : Fin 2) (b : Byte) (parity frame : Bool) (s : State) : Out :=
  .next <| s.ifRun fun s =>
    let u := u.val
    if !s.bit (F.MGMT_UART_CFG_EN u) then s
    else if 64 ≤ (s.uart u).rx.length then s.orFld (F.MGMT_UART_STAT_ERR u) 4
    else
      let p := s.fld (F.MGMT_UART_CFG_PARITY u)
      (s.setUart u { s.uart u with rx := (s.uart u).rx ++ [b] }).orFld (F.MGMT_UART_STAT_ERR u)
        ((parity && (p == 1 || p == 2)).toNat + 2 * frame.toNat)
/-- A read of MGMT_UART_RX_u removes the oldest byte. -/
def State.uartRx (s : State) (u : Nat) : State × Word :=
  match (s.uart u).rx with
  | [] => (s, 0)
  | b :: bs => (s.setUart u { s.uart u with rx := bs }, BitVec.ofNat 32 (0x100 + b.toNat))
def execUartRxRead (_m : Mst) (u : Fin 2) (s : State) : Out :=
  .next <| s.ifRun fun s =>
    let r := s.uartRx u.val
    { r.1 with resp := .value r.2.toNat }

/-! ### GPIOs -/

/-- The levels of the balls: what the device drives, or else what the board drives. -/
def State.gpioLevels (s : State) : Nat :=
  let oe := (s.reg R.MGMT_GPIO_OE).toNat
  ((s.reg R.MGMT_GPIO_OUT).toNat &&& oe) ||| (s.gpio.toNat &&& (2 ^ 32 - 1 - oe))
/-- The edge mode of GPIO `g`. -/
def State.gpioMode (s : State) (g : Nat) : Nat :=
  (if g < 16 then (s.reg R.MGMT_GPIO_IRQ_CFG_LO).toNat else (s.reg R.MGMT_GPIO_IRQ_CFG_HI).toNat) / 2 ^ (2 * (g % 16)) % 4
/-- MGMT_GPIO_IN follows the balls, and the selected edges are kept. -/
def State.gpioRefresh (s : State) : State :=
  let old := (s.reg R.MGMT_GPIO_IN).toNat
  let new := s.gpioLevels
  let edges := (List.range 32).foldl (fun e g =>
    let o := old / 2 ^ g % 2
    let n := new / 2 ^ g % 2
    let md := s.gpioMode g
    if (o < n && (md = 1 || md = 3)) || (n < o && (md = 2 || md = 3)) then e + 2 ^ g else e) 0
  (s.setReg R.MGMT_GPIO_IN (BitVec.ofNat 32 new)).orFld F.MGMT_GPIO_IRQ_STAT_EDGE edges
/-- GPIO_EDGE: the board changes a level; the inputs follow while the core domain runs. -/
def execGpioEdge (g : Fin 32) (level : Bool) (s : State) : Out :=
  .next (({ s with gpio := BitVec.ofNat 32 (putBits s.gpio.toNat g.val g.val level.toNat) }).ifRun State.gpioRefresh)

/-- A write to another MGMT register at `off`. -/
def State.mgmtCfg (off : Nat) (a : Admit) : State :=
  if off = R.MGMT_GPIO_OUT || off = R.MGMT_GPIO_OE then (a.plain off).gpioRefresh
  else if off = R.MGMT_XSPI_PROT then State.stickyLock a R.MGMT_XSPI_PROT F.MGMT_XSPI_PROT_LOCK
  else a.plain off

/-! ### The test access port -/

/-- The TAP works while its supply does: neither before the rails are good nor in DEEP. -/
def State.tapLive (s : State) : Bool := decide (s.pwr.phase ≠ .rails) && decide (s.pwr.phase ≠ .deep)
def State.ifTap (s : State) (f : State → State) : State := if s.tapLive then f s else s

/-- The IDCODE word (R544). -/
def State.idcodeWord (s : State) : Nat :=
  (4 * (s.fld F.SYS_DEVICE_ID_MAJOR - 1) + s.fld F.SYS_DEVICE_ID_MINOR) % 16 * 2 ^ 28 + 0x3296 * 2 ^ 12 + 0x2B7 * 2 + 1
def execIdcode (s : State) : Out :=
  .next (s.ifTap fun s => { s with tap := { s.tap with ir := 0x02 }, resp := .value s.idcodeWord })
/-- DEBUG selects the access register, whose capture shows the latest outcome (R545). -/
def execDebug (s : State) : Out :=
  .next (s.ifTap fun s => { s with tap := { s.tap with ir := 0x20 }, resp := .bytes (leBytes 39 s.tap.out) })
/-- BYPASS, whose one-bit register captures 0; the codes of the other instructions are not this command's. -/
def execBypass (code : Byte) (s : State) : Out :=
  .next (s.ifTap fun s =>
    if code = 0x00 || code = 0x01 || code = 0x02 || code = 0x20 then s else { s with tap := { s.tap with ir := code.toNat, bypass := false } })
/-- TAP_RESET: TMS resets the TAP alone, TRST_N the debug master too. -/
def execTapReset (trst : Bool) (s : State) : Out :=
  .next (s.ifTap fun s => { s with tap := if trst then {} else { s.tap with ir := 0x02 } })

end Sys2Proof.Machine
end

