-- ==== Sys2Proof/Machine/Protect.lean ====
section
/-!
DEFINITION. Rule epochs and maintenance (R391, R392, R401, R402).
Readings and choices beyond the spec's plain words: log entry 59.
-/
namespace Sys2Proof.Machine

/-- The region registers of unit `u`. -/
def unitRegs (u : Nat) : List Nat := (List.range 128).map (fun i => 0x91000 + 0x200 * u + 4 * i)

/-- The master of unit `u` is a core held in reset. -/
def State.unitHeld (s : State) (u : Nat) : Bool := decide (u < 8) && decide ((s.core u).run = .held)

/-- MPU_EPOCH_u (R391, R392): the write of APPLY completes to its master by MPU_APPLY_COMPLETE; the Keeper waits for it. -/
def State.mpuApply (m u : Nat) (a : Admit) : State :=
  let s := a.st
  if !a.one (F.MPU_EPOCH_APPLY u) then s
  else
    let s := (s.goLive (unitRegs u)).setFld (F.MPU_EPOCH_EPOCH u) (s.fld (F.MPU_EPOCH_EPOCH u) + 1)
    if s.unitHeld u then s
    else
      let s := { s with applies := s.applies ++ [u] }
      if m = 12 then s.setCore 12 { s.core 12 with run := .store } else s
def execMpuApply (m : Mst) (u : Fin 77) (w : Word) (s : State) : Out :=
  .next <| s.ifRun fun s =>
    let n := s.applies.length
    let s := s.regCmd m.toNat (R.MPU_EPOCH u.val) w.toNat (State.mpuApply m.toNat u.val)
    if n < s.applies.length then { s with resp := .stalled } else s

/-- A permitted write of unit `u` waits at its port for a frequency change to end (R355, R392), in its core or without one. -/
def State.unitWaits (s : State) (u : Nat) : Bool :=
  decide (s.fc.stage = .change) &&
    (s.fc.writes.any (fun w => unitOf w.m == some u) || (decide (u ≤ 12) && ((s.core u).xip.any (fun l => l.data.isSome))))
/-- MPU_APPLY_COMPLETE (R392): the permitted writes of unit `u` have left its port. -/
def execMpuApplyComplete (u : Fin 77) (s : State) : Out :=
  .next <| s.ifRun fun s =>
    if s.applies.contains u.val && !s.unitWaits u.val then
      let s := { s with applies := s.applies.erase u.val, resp := .ok }
      let x := s.core 12
      if x.run = .store && s.applies.isEmpty then s.setCore 12 { x with run := .running } else s
    else s

/-- MPU_MAINT.ACTIVE changes, with its record (R402). -/
def State.setMaint (s : State) (on : Bool) : State :=
  if s.bit F.MPU_MAINT_ACTIVE == on then s
  else (s.setBit F.MPU_MAINT_ACTIVE on).logHw 0x61 0xFF (leBytes 1 on.toNat ++ leBytes 7 0 ++ leBytes 8 s.tickNo) false

/-- The ROLE value last taken (R438). -/
def State.pinsTaken (s : State) : Nat := (s.pair.taken.head?.map (·.1)).getD (s.fld F.STEP_STATUS_PINS)

/-- MPU_MAINT (R401): OPEN can become 1 only in STANDALONE with ALONE taken last. -/
def State.mpuMaint (a : Admit) : State :=
  if !a.took F.MPU_MAINT_OPEN then a.st
  else if a.one F.MPU_MAINT_OPEN then
    if a.st.fld F.STEP_STATUS_ROLE = 0 && a.st.pinsTaken = 3 then (a.st.setBit F.MPU_MAINT_OPEN true).setMaint true else a.st
  else (a.st.setBit F.MPU_MAINT_OPEN false).setMaint false
def execMaintOpen (m : Mst) (w : Word) (s : State) : Out := .next (s.runReg m.toNat R.MPU_MAINT w.toNat State.mpuMaint)

end Sys2Proof.Machine
end

