-- ==== Sys2Proof/Machine/Touch.lean ====
section
/-!
DEFINITION. Capacitive desk sensing (R474 to R487): scans, detection, reports, the self-test and baselines shared in a pair.
Readings and choices beyond the spec's plain words: log entry 66.
-/
namespace Sys2Proof.Machine

/-! ### Nodes and times (R474 to R477) -/

def State.tRes (s : State) : Nat := let r := s.fld F.TOUCH_CFG_RES; 10 + if r ≤ 6 then r else 2
def touchSide (v : Nat) : Nat := if 1 ≤ v && v ≤ 24 then v else 24
def State.tNx (s : State) : Nat := touchSide (s.fld F.TOUCH_CFG_NX)
def State.tNy (s : State) : Nat := touchSide (s.fld F.TOUCH_CFG_NY)
def State.tMutual (s : State) : Bool := s.bit F.TOUCH_CFG_MODE
def State.tN (s : State) : Nat := if s.tMutual then s.tNx * s.tNy else 48
def State.tPin (s : State) (i : Nat) : Bool :=
  if i < 32 then s.bitAt F.TOUCH_PIN_EN_LO_EN i else s.bitAt F.TOUCH_PIN_EN_HI_EN (i - 32)
/-- The nodes of the mode. -/
def State.tNodes (s : State) : List Nat := if s.tMutual then List.range s.tN else (List.range 48).filter s.tPin
/-- The pins whose coupling mutual node `i` measures: X pin driven, Y pin sensed (R474). -/
def State.nodePins (s : State) (i : Nat) : Nat × Nat := (i % s.tNx, 24 + i / s.tNx)
/-- The pins that the mode uses. -/
def State.tUsed (s : State) (i : Nat) : Bool :=
  if s.tMutual then decide (i < s.tNx) || (decide (24 ≤ i) && decide (i < 24 + s.tNy)) else decide (i < 48) && s.tPin i
/-- R475: what a measurement of capacitance `c` at resolution `res` yields; both capacitances are in aF. -/
def touchRaw (res c fs : Nat) : Nat := min (2 ^ res - 1) (2 ^ res * c / max 1 fs)
/-- C_FS of the mode, in aF. -/
def State.tFull (s : State) : Nat := (s.fld F.TOUCH_CFG_RANGE + 1) * if s.tMutual then 1000000 else 10000000
/-- Groups of a scan (R476). -/
def State.tGroups (s : State) : Nat := if s.tMutual then s.tNx * ceilDiv s.tNy 12 else ceilDiv s.tNodes.length 12
/-- Clocks of a group at resolution `res`, of a scan, and between scan starts in the current step. -/
def groupClk (res : Nat) : Nat := 40 * 2 ^ res + 2000
def State.scanClk (s : State) : Nat := s.tGroups * groupClk s.tRes
def touchHz (v dflt : Nat) : Nat := if v = 0 then 1 else if v ≤ 240 then v else dflt
def State.stepClk (s : State) : Nat :=
  let k := s.fld F.TOUCH_STATUS_STEP
  let hz := if k = 0 then touchHz (s.fld F.TOUCH_RATE_RATE_A) 120 else if k = 1 then touchHz (s.fld F.TOUCH_RATE_RATE_B) 30
    else touchHz (s.fld F.TOUCH_RATE_RATE_C) 8
  1000000 / hz * 500

def State.tNode (s : State) (i : Nat) : TouchNode := Tbl.get (fun _ => {}) s.touch.nodes i
def State.setTNode (s : State) (i : Nat) (x : TouchNode) : State :=
  { s with touch := { s.touch with nodes := Tbl.set (fun _ => {}) s.touch.nodes i x } }
def State.touchErr (s : State) (b : Nat) : State := s.orFld F.TOUCH_ERR_ERR (2 ^ b)
/-- The chip owns the electrodes (R471). -/
def State.touchOwner (s : State) : Bool := s.role = 0 || s.role = 1
/-- Scans run: enabled, owner, pins driven. -/
def State.scanning' (s : State) : Bool := s.bit F.TOUCH_CTL_EN && s.touchOwner && s.touch.driving
def State.showScanning (s : State) : State := s.setBit F.TOUCH_STATUS_SCANNING s.scanning'

/-! ### Ownership (R471, R484) -/

/-- Idle counting and the rate step start afresh. -/
def State.touchFresh (s : State) : State :=
  { s with touch := { s.touch with first := true, start := none, scan := false, idle := s.time.clk, drift := 0 } }.setFld
    F.TOUCH_STATUS_STEP 0

/-- The pins go to high impedance: a scan or test in progress is abandoned. -/
def State.touchRelease (s : State) : State :=
  ({ s with touch := { s.touch with driving := false, scan := false, ownAt := none } }.setFld F.TOUCH_STATUS_TEST_BUSY 0).showScanning
/-- Ownership is lost. -/
def State.touchLose (s : State) : State :=
  let s := s.touchRelease
  let s := (List.range 576).foldl (fun s i => s.setFlds [(F.TOUCH_NODE_TOUCHED i, 0), (F.TOUCH_NODE_STUCK i, 0)]) s
  let s := { s with touch := { s.touch with nodes := [], unstick := [], fresh := false, now := [], changed := false, newOwner := false,
                                            gap := false, queued := none } }
  s.setFlds [(F.TOUCH_STATUS_OWNER, 0), (F.STEP_STATUS_TOUCH_OWNER, 0)]
/-- Ownership is gained: at a boundary the pins are driven 200 µs later, otherwise at once. -/
def State.touchGain (s : State) (boundary : Bool) : State :=
  let s := { s with touch := { s.touch with newOwner := true, driving := !boundary, sent := s.time.clk,
                                            ownAt := if boundary then some (s.time.clk + 100000) else none } }
  ((s.setFlds [(F.TOUCH_STATUS_OWNER, 1), (F.STEP_STATUS_TOUCH_OWNER, 1)]).touchFresh).showScanning

/-! ### Control (R479, R483, R486) -/

/-- The test starts. -/
def State.touchTest (s : State) : State :=
  { s with touch := { s.touch with start := some s.time.clk, testAt := s.time.clk } }.setFlds [(F.TOUCH_CTL_TEST, 0), (F.TOUCH_STATUS_TEST_BUSY, 1)]
/-- A test that has been asked for starts at once while EN is 0; else it takes the place of the next scan (R483). -/
def State.touchTestNow (s : State) : State :=
  if s.bit F.TOUCH_CTL_TEST && !s.bit F.TOUCH_CTL_EN && !s.bit F.TOUCH_STATUS_TEST_BUSY && s.touch.driving then s.touchTest else s

/-- TOUCH_OWNER_START (R484): the first scan, or the test that takes its place, starts. -/
def execTouchOwnerStart (s : State) : Out :=
  .next <| s.ifRun fun s =>
    match s.touch.ownAt with
    | none => s
    | some t =>
      let s := s.advance (t - s.time.clk)
      let s := ({ s with touch := { s.touch with driving := true, ownAt := none } }).showScanning
      if !s.bit F.TOUCH_CTL_EN then s.touchTestNow
      else if s.bit F.TOUCH_CTL_TEST then s.touchTest
      else { s with touch := { s.touch with start := some s.time.clk, scan := true } }

/-- TOUCH_CTL. Any write of 1 to EN makes the baseline table invalid until it is set again (R479); one that enables starts the scans. -/
def State.touchCtl (a : Admit) : State :=
  let was := a.st.bit F.TOUCH_CTL_EN
  let s := a.plain R.TOUCH_CTL
  let now := s.bit F.TOUCH_CTL_EN
  let s := if a.one F.TOUCH_CTL_EN then
      ({ s with touch := { s.touch with written := [], loaded := [] } }).setBit F.TOUCH_STATUS_BASE_VALID false else s
  let s := if now && !was then s.touchFresh else if was && !now then { s with touch := { s.touch with scan := false } } else s
  let s := s.showScanning
  if !s.bit F.TOUCH_CTL_TEST then s
  else if !s.touchOwner then (s.setBit F.TOUCH_CTL_TEST false).touchErr 4
  else s.touchTestNow
def execTouchEnable (m : Mst) (w : Word) (s : State) : Out := .next (s.runReg m.toNat R.TOUCH_CTL w.toNat State.touchCtl)
def execTouchTest (m : Mst) (w : Word) (s : State) : Out := .next (s.runReg m.toNat R.TOUCH_CTL w.toNat State.touchCtl)

/-- TOUCH_CFG and TOUCH_PIN_EN while EN is 1. -/
def State.touchCfg (off : Nat) (a : Admit) : State :=
  if a.st.bit F.TOUCH_CTL_EN then (if a.wrote off then a.st.touchErr 6 else a.st) else a.plain off

/-- R479: the table is valid once every node has been set. -/
def State.baseSeen (s : State) : State :=
  if s.tNodes.all (s.touch.written.contains ·) || s.tNodes.all (s.touch.loaded.contains ·) then s.setBit F.TOUCH_STATUS_BASE_VALID true else s

/-- TOUCH_BASE_i (R478, R479). -/
def State.touchBaseReg (i : Nat) (a : Admit) : State :=
  let s := a.plain (R.TOUCH_BASE i)
  if !a.took (F.TOUCH_BASE_BASE i) then s
  else { s with touch := { s.touch with written := (s.touch.written ++ [i]).eraseDups, unstick := (s.touch.unstick ++ [i]).eraseDups } }.baseSeen
def execTouchBaseWrite (m : Mst) (i : Fin 576) (w : Word) (s : State) : Out :=
  .next (s.runReg m.toNat (R.TOUCH_BASE i) w.toNat (State.touchBaseReg i))

/-! ### Scans (R477, R478) -/

/-- TOUCH_SCAN_START: the interval has elapsed; a test requested takes the place of the scan. -/
def execTouchScanStart (s : State) : Out :=
  .next <| s.ifRun fun s =>
    if !s.scanning' || s.touch.scan || s.bit F.TOUCH_STATUS_TEST_BUSY then s
    else
      let due := match s.touch.start with
        | none => s.time.clk
        | some t => t + s.stepClk
      let s := if s.touch.start.isSome && decide (s.stepClk < s.scanClk) then s.touchErr 0 else s
      let s := s.advance (due - s.time.clk)
      if s.bit F.TOUCH_CTL_TEST then s.touchTest
      else { s with touch := { s.touch with start := some s.time.clk, scan := true } }

def State.tDelta (s : State) (i r : Nat) : Int :=
  let b : Int := s.fld (F.TOUCH_BASE_BASE i)
  if s.tMutual then b - r else r - b

/-- Steps 1 to 4 of R478 for node `i` with RAW16 `r`; `full` tells that raw is at full scale. -/
def State.touchStep (s : State) (i r : Nat) (full : Bool) : State :=
  let s := s.setFld (F.TOUCH_NODE_RAW16 i) r
  let x := s.tNode i
  if !s.tMutual && (decide (r < s.fld F.TOUCH_TESTCFG_OPEN_TH) || full) then
    let s := if s.bit (F.TOUCH_NODE_FAULT i) then s
      else { (s.setBit (F.TOUCH_NODE_FAULT i) true).touchErr 1 with touch := { s.touch with changed := true } }
    (s.setBit (F.TOUCH_NODE_TOUCHED i) false).setTNode i { x with above := 0, under := 0, neg := 0 }
  else
    let s := if s.bit (F.TOUCH_NODE_FAULT i) then { s.setBit (F.TOUCH_NODE_FAULT i) false with touch := { s.touch with changed := true } } else s
    let d := s.tDelta i r
    let th : Int := s.fld F.TOUCH_DET_TH
    let rel : Int := min (s.fld F.TOUCH_DET2_REL_TH : Int) (th - 1)
    let deb := max 1 (s.fld F.TOUCH_DET2_DEBOUNCE)
    -- touch
    let was := s.bit (F.TOUCH_NODE_TOUCHED i)
    let x := { x with above := if !was && th ≤ d then x.above + 1 else 0, under := if was && d < rel then x.under + 1 else 0 }
    let on := (was && decide (x.under < deb)) || (!was && decide (deb ≤ x.above))
    let x := if on && !was then { x with since := s.time.clk } else x
    -- stuck
    let mx := s.fld F.TOUCH_STUCK_MAX_ON
    let stuck := on && mx ≠ 0 && decide (x.since + mx * 500000000 ≤ s.time.clk)
    let s := if stuck then
        let s := { s.touchErr 2 with touch := { s.touch with changed := s.touch.changed || !s.bit (F.TOUCH_NODE_STUCK i) } }
        s.setFlds [(F.TOUCH_NODE_STUCK i, 1), (F.TOUCH_BASE_BASE i, r)]
      else s
    let on := on && !stuck
    -- negative recalibration
    let low := !on && decide (s.tDelta i r ≤ -(s.fld F.TOUCH_BASECFG_NEG_TH : Int))
    let x := { x with neg := if low then x.neg + 1 else 0, above := if on then 0 else x.above, ever := x.ever || on }
    let recal := decide (max 1 (s.fld F.TOUCH_BASECFG_NEG_SCANS) ≤ x.neg)
    let s := if recal then
        let s := { s with touch := { s.touch with changed := s.touch.changed || s.bit (F.TOUCH_NODE_STUCK i) } }
        s.setFlds [(F.TOUCH_NODE_STUCK i, 0), (F.TOUCH_BASE_BASE i, r)]
      else s
    (s.setBit (F.TOUCH_NODE_TOUCHED i) on).setTNode i (if recal then { x with neg := 0 } else x)

/-- Step 5: while no node is TOUCHED, once every DRIFT scans. -/
def State.touchDrift (s : State) (ns : List (Nat × Nat)) : State :=
  let n := s.fld F.TOUCH_BASECFG_DRIFT
  if n = 0 || ns.any (fun p => s.bit (F.TOUCH_NODE_TOUCHED p.1)) then s
  else if s.touch.drift + 1 < n then { s with touch := { s.touch with drift := s.touch.drift + 1 } }
  else
    let s := { s with touch := { s.touch with drift := 0 } }
    ns.foldl (fun s p =>
      let d := s.tDelta p.1 p.2
      let lim : Int := s.fld F.TOUCH_BASECFG_NEG_TH
      let b := s.fld (F.TOUCH_BASE_BASE p.1)
      if s.bit (F.TOUCH_NODE_FAULT p.1) || !(decide (-lim < d) && decide (d < lim)) then s
      else s.setFld (F.TOUCH_BASE_BASE p.1) (if b < p.2 then b + 1 else if p.2 < b then b - 1 else b)) s

/-- The TOUCH_BASE_i writes since the last scan clear STUCK, before step 1 of R478. -/
def State.touchUnstick (s : State) : State :=
  let s := s.touch.unstick.foldl (fun s i =>
    if s.bit (F.TOUCH_NODE_STUCK i) then { s.setBit (F.TOUCH_NODE_STUCK i) false with touch := { s.touch with changed := true } } else s) s
  { s with touch := { s.touch with unstick := [] } }

/-- TOUCH_SCAN_END: `caps` are the capacitances as the modulators take them, in aF, by node (R475). -/
def execTouchScanEnd (caps : List Nat) (s : State) : Out :=
  .next <| s.ifRun fun s =>
    match s.touch.start with
    | none => s
    | some t =>
      if !s.touch.scan then s
      else
        let s := s.advance (t + s.scanClk - s.time.clk)
        let top := 2 ^ s.tRes - 1
        let fs := s.tFull
        let res := s.tRes
        let raw (i : Nat) : Nat := touchRaw res (caps.getD i 0) fs
        let ns := s.tNodes.map (fun i => (i, raw i * 2 ^ (16 - s.tRes)))
        let first := s.touch.first
        let s := ({ s with touch := { s.touch with first := false, scan := false } }).touchUnstick
        let s := s.setFld F.TOUCH_SCAN_COUNT (s.fld F.TOUCH_SCAN_COUNT + 1)
        let s :=
          if first && !s.bit F.TOUCH_STATUS_BASE_VALID && !s.bit F.TOUCH_CTL_INIT then
            (ns.foldl (fun s p => s.setFlds [(F.TOUCH_NODE_RAW16 p.1, p.2), (F.TOUCH_BASE_BASE p.1, p.2)]) s).setBit F.TOUCH_STATUS_BASE_VALID true
          else
            let hit := ns.any (fun p => decide ((s.fld F.TOUCH_DET_TH : Int) ≤ s.tDelta p.1 p.2))
            let s := ns.foldl (fun s p => s.touchStep p.1 p.2 (raw p.1 == top)) s
            let s := s.touchDrift ns
            let s := if ns.any (fun p => s.bit (F.TOUCH_NODE_TOUCHED p.1)) then { s with touch := { s.touch with idle := s.time.clk } } else s
            let idle : Nat := s.time.clk - s.touch.idle
            let step : Nat := if hit then 0 else if s.fld F.TOUCH_IDLE_IDLE_C * 50000000 ≤ idle then 2
              else if s.fld F.TOUCH_IDLE_IDLE_B * 50000000 ≤ idle then 1 else 0
            s.setFld F.TOUCH_STATUS_STEP step
        { s with touch := { s.touch with fresh := true } }

/-! ### Reports (R480, R481) -/

def State.tSet (s : State) (p : Nat → Bool) : List Nat := s.tNodes.filter p
def State.tBytes (s : State) (l : List Nat) : List Byte := leBytes (ceilDiv s.tN 64 * 8) (l.foldl (fun v i => v + 2 ^ i) 0)
def State.tNow (s : State) : List Nat := s.tSet (fun i => s.bit (F.TOUCH_NODE_TOUCHED i))

def State.touchPayload (s : State) : List Byte :=
  let fault := s.tSet (fun i => s.bit (F.TOUCH_NODE_FAULT i))
  let deltas := s.bit F.TOUCH_CTL_DELTAS
  leBytes 1 1 ++ leBytes 1 s.tMutual.toNat ++ leBytes 1 (if s.tMutual then s.tNx else 48) ++ leBytes 1 (if s.tMutual then s.tNy else 0) ++
    leBytes 4 (s.fld F.TOUCH_SCAN_COUNT) ++
    leBytes 1 (deltas.toNat + 2 * s.touch.newOwner.toNat + 4 * s.touch.gap.toNat + 8 * (!fault.isEmpty).toNat) ++
    leBytes 1 (s.fld F.TOUCH_STATUS_STEP) ++ leBytes 6 0 ++ s.tBytes s.tNow ++ s.tBytes (s.tSet (fun i => (s.tNode i).ever)) ++
    s.tBytes (s.tSet (fun i => s.bit (F.TOUCH_NODE_STUCK i))) ++ s.tBytes fault ++
    (if deltas then (List.range s.tN).flatMap (fun i =>
      leBytes 2 ((s.tDelta i (s.fld (F.TOUCH_NODE_RAW16 i))) % 65536).toNat) else [])

/-- At a boundary the owner queues a report where one is due. -/
def State.touchReport (s : State) : State :=
  let t := s.touch
  let due := s.tNow != t.now || s.tNodes.any (fun i => (s.tNode i).ever != s.bit (F.TOUCH_NODE_TOUCHED i)) || t.changed || t.newOwner ||
    (s.bit F.TOUCH_CTL_DELTAS && !s.tNow.isEmpty)
  if s.touchOwner && t.fresh && due then
    { s with touch := { t with queued := some s.touchPayload, fresh := false, now := s.tNow, changed := false, newOwner := false, gap := false } }
  else s
/-- The report was placed in an inbox, or found no room there. -/
def State.touchPlaced (s : State) (fits : Bool) : State :=
  if fits then { s with touch := { s.touch with queued := none, nodes := (s.touch.nodes.map (fun (p : Nat × TouchNode) => (p.1, { p.2 with ever := false }))).filter (fun p => p.2 != {}) } }
  else ({ s with touch := { s.touch with queued := none, gap := true } }).touchErr 7

/-! ### The self-test (R483) -/

def bitsOf (l : List Nat) (p : Nat → Bool) : Nat := (l.filter p).foldl (fun v i => v + 2 ^ i) 0

/-- TOUCH_TEST_DONE: `pins` are the capacitances of TS0 to TS47, `pairs` those of the bridge measurements k = 0 to 46, in aF; all are taken at
RES 12, the pins at the configured RANGE, the bridges at 8 pF. -/
def execTouchTestDone (pins pairs : List Nat) (s : State) : Out :=
  .next <| s.ifRun fun s =>
    if !s.bit F.TOUCH_STATUS_TEST_BUSY then s
    else
      let s := s.advance (s.touch.testAt + 8 * groupClk 12 - s.time.clk)
      let fs := (s.fld F.TOUCH_CFG_RANGE + 1) * 10000000
      let pin (i : Nat) : Nat := touchRaw 12 (pins.getD i 0) fs
      let on := (List.range 48).filter s.tPin
      let opens := bitsOf on (fun i => decide (pin i * 16 < s.fld F.TOUCH_TESTCFG_OPEN_TH))
      let shorts := bitsOf on (fun i => pin i == 4095)
      let bridges := bitsOf (List.range 47) (fun k => decide (s.fld F.TOUCH_TESTCFG_BRIDGE_TH ≤ touchRaw 12 (pairs.getD k 0) 8000000 * 16))
      let s := s.setFlds [(F.TOUCH_OPEN_LO_PINS, opens), (F.TOUCH_OPEN_HI_PINS, opens / 2 ^ 32), (F.TOUCH_SHORT_LO_PINS, shorts),
        (F.TOUCH_SHORT_HI_PINS, shorts / 2 ^ 32), (F.TOUCH_BRIDGE_LO_PAIRS, bridges), (F.TOUCH_BRIDGE_HI_PAIRS, bridges / 2 ^ 32),
        (F.TOUCH_STATUS_TEST_BUSY, 0)]
      (s.touchErr 3).touchTestNow

/-! ### Baselines between the chips of a pair (R471, R485) -/

/-- TOUCH_BASE_SEND: once per second the owner sends its table. -/
def execTouchBaseSend (s : State) : Out :=
  .next <| s.ifRun fun s =>
    if !s.touchOwner then s
    else
      let s := s.advance (s.touch.sent + 500000000 - s.time.clk)
      let s := { s with touch := { s.touch with sent := s.time.clk } }
      (List.range (ceilDiv s.tN 508)).foldl (fun s j =>
        let ix := 508 * j
        let n := min 508 (s.tN - ix)
        s.stepSendOne ⟨0x68, 0, 0, leBytes 2 ix ++ leBytes 2 n ++ leBytes 1 s.tMutual.toNat ++ leBytes 3 0 ++
          (span ix n).flatMap (fun i => leBytes 2 (s.fld (F.TOUCH_BASE_BASE i))), none⟩) s

/-- TOUCH_BASE: a barge of baselines from node `ix` on arrives on quad Q22 + q. -/
def execTouchBase (q : Fin 2) (seq : BitVec 12) (ix : BitVec 16) (mode : Byte) (vals : List (BitVec 16)) (s : State) : Out :=
  .next <| s.rxBarge (22 + q) seq.toNat 0 (8 + 2 * vals.length) fun s =>
    if s.role = 0 || s.touchOwner then s
    else if mode.toNat ≠ s.tMutual.toNat || s.tN < ix.toNat + vals.length then s.touchErr 5
    else
      let l := span ix.toNat vals.length
      let s := (l.zip vals).foldl (fun s p => s.setFld (F.TOUCH_BASE_BASE p.1) p.2.toNat) s
      { s with touch := { s.touch with loaded := (s.touch.loaded ++ l).eraseDups } }.baseSeen

end Sys2Proof.Machine
end

