-- ==== Sys2Proof/Machine/Pair.lean ====
section
/-!
DEFINITION. Active and standby pairs (R437 to R473): roles, the agreement round, digests and state compares, the arbiter interface,
readiness, and snapshots.
Readings and choices beyond the spec's plain words: log entries 61, 62, 63, 64 and 65.
-/
namespace Sys2Proof.Machine

def State.updPair (s : State) (f : PairSt → PairSt) : State := { s with pair := f s.pair }
/-- A bit of STEP_ERR. -/
def State.stepErr (s : State) (b : Nat) : State := s.orFld F.STEP_ERR_ERR (2 ^ b)
def State.inStep (s : State) : Bool := s.bit F.STEP_STATUS_IN_STEP
def State.setInStep (s : State) (b : Bool) : State := s.setBit F.STEP_STATUS_IN_STEP b
/-- The reported health (R458); an unlisted LEVEL acts as its reset value (R5). -/
def State.health (s : State) : Nat :=
  let l := s.fld F.STEP_HEALTH_LEVEL
  let l := if l = 3 then 1 else l
  if s.bit F.STEP_HEALTH_FAIL_FLOOR then 2 else if s.bit F.STEP_HEALTH_DEG_FLOOR then max 1 l else l
def State.ready (s : State) : Bool := s.bit F.STEP_CTL_READY
def State.setReady (s : State) (b : Bool) : State := s.setFlds [(F.STEP_CTL_READY, b.toNat), (F.STEP_STATUS_READY_PENDING, b.toNat)]
/-- R470: both cancel, and counting starts again. -/
def State.readyCancel (s : State) : State := s.updPair (fun p => { p with readyAt := none, partnerAt := none, eqRun := 0 })

/-- An agreement miss or a mismatch in the current tick: both cancel, also a readiness of which this chip hears only afterwards. -/
def State.readySpoil (s : State) : State := s.readyCancel.updPair (fun p => { p with spoilt := some s.tickNo })

/-! ### The health word (R457) -/

def State.healthWord (s : State) : List Byte :=
  let e := s.fld F.STEP_ERR_ERR
  let b (i : Nat) : Nat := e / 2 ^ i % 2
  let hw := b 0 + 2 * b 1 + 4 * b 2 + 8 * b 3 + 16 * b 4 + 32 * b 6 + 64 * b 7 + 128 * b 9
  let n := s.tickNo
  let own := match s.pair.dig with
    | some (t, c, _) => if t + 1 = n then c else 0
    | none => 0
  let fl := s.fld F.STEP_STATUS_AGREED + 2 * s.pair.alike.toNat + 4 * s.inStep.toNat + 8 * s.fld F.STEP_STATUS_PARTNER_SEEN +
    16 * s.fld F.STEP_STATUS_SWAP_DUE + 32 * s.fld F.STEP_STATUS_TOUCH_OWNER + 64 * s.fld F.STEP_STATUS_READY_PENDING
  let body := leBytes 1 1 ++ leBytes 1 s.role ++ leBytes 1 (s.fld F.STEP_STATUS_PINS) ++ leBytes 1 s.health ++ leBytes 8 n ++ leBytes 4 own ++
    leBytes 4 s.pair.partner ++ leBytes 1 fl ++ leBytes 1 hw ++ leBytes 2 0 ++ leBytes 4 (s.reg R.STEP_REASON).toNat
  body ++ leBytes 4 (crc32c body)
def State.showHealth (s : State) : State := s.updPair (fun p => { p with health := s.healthWord })

/-! ### Roles (R438 to R441, R465, R471) -/

def State.setRole (s : State) (new : Nat) (boundary : Bool) : State :=
  let old := s.role
  let s := if new = 0 || new = 4 then s.setInStep false else s
  if old = new then s
  else
    let s := s.setFld F.STEP_STATUS_ROLE new
    let s := if (old = 1 && new = 2) || (old = 2 && new = 1) then
        (s.setBit F.STEP_STATUS_SWAP_DUE false).updPair (fun p => { p with swapped := p.swapped || s.bit F.STEP_STATUS_SWAP_DUE }) else s
    let s := if new ≠ 3 then s.updPair (fun p => { p with snap := none }) else s
    let s := if new = 0 then [22, 23].foldl (fun s q => s.updLink q (fun (l : LinkSt) => { l with waiting := l.waiting.filter (·.vc == 3) })) s else s
    let s := s.logHw 0x30 0xFF (leBytes 1 old ++ leBytes 1 new ++ leBytes 6 0 ++ leBytes 8 s.tickNo) false
    let own : Bool := old = 0 || old = 1
    let s := if s.touchOwner && !own then s.touchGain boundary else if own && !s.touchOwner then s.touchLose else s
    s.showHealth
/-- The role of R439. -/
def State.evalRole (s : State) (boundary : Bool) : State := s.setRole (roleOf (s.fld F.STEP_STATUS_PINS) s.inStep) boundary
/-- The value taken last acts at once. -/
def State.pinsAct (s : State) : State :=
  match s.pair.taken with
  | (v, _) :: _ => (s.updPair (fun p => { p with taken := [] })).setFld F.STEP_STATUS_PINS v
  | [] => s
/-- At a boundary the latest value taken at least 10 µs before it acts; those taken later wait for the next. -/
def State.pinsDue (s : State) : State :=
  let fresh (x : Nat × Nat) : Bool := decide (s.nowNs < x.2 + 10000)
  match s.pair.taken.find? (fun x => !fresh x) with
  | some (v, _) => (s.updPair (fun p => { p with taken := p.taken.filter fresh })).setFld F.STEP_STATUS_PINS v
  | none => s

/-- ROLE_PIN_TAKE (R402, R438, R471): the pins have held a value for 2 µs. -/
def execRolePinTake (v : BitVec 2) (s : State) : Out :=
  .next <| s.ifRun fun s =>
    let s := { s with pwr := { s.pwr with rolePins := v.toNat } }
    let s := s.updPair (fun p => { p with taken := (v.toNat, s.nowNs) :: p.taken })
    let s := if v = 3 then s else (s.setBit F.MPU_MAINT_OPEN false).setMaint false
    let s := if v = 1 || v = 3 then
        (if s.touchOwner && !s.touch.driving && s.touch.ownAt.isNone then ({ s with touch := { s.touch with driving := true } }).showScanning else s)
      else s.touchRelease
    if s.bit F.TICK_STATUS_RUNNING then s else s.pinsAct.evalRole false

/-! ### Digests and state compares (R452 to R454) -/

def State.digest (s : State) (t : Nat) : Nat × Nat :=
  let certs (h : Nat) : List (List Byte) := (((s.hd h).certs).filter (fun c => c.1 == t)).map (·.2)
  let heads := ((List.range 32).filter (fun h => !(certs h).isEmpty)).foldl (fun v h => v + 2 ^ h) 0
  let chams := (List.range 256).flatMap (fun c => match (s.cham c).last with
    | some (u, n) => if u = t then leBytes 2 c ++ leBytes 1 n ++ leBytes 5 0 else []
    | none => [])
  (crc32c (leBytes 8 t ++ leBytes 4 heads ++ (List.range 32).flatMap (fun h => (certs h).flatten) ++ chams), heads)

def State.stateVector (s : State) : List Byte :=
  (List.range 32).flatMap (fun h => (List.range 16).flatMap (fun k =>
    leBytes 4 (s.reg (R.COMP_STACK h k)).toNat ++ (if s.bit (F.COMP_STACK_USED h k) then (match s.layerAt h k with
      | some l => l.desc
      | none => []) else []))) ++
  (List.range 256).flatMap (fun c =>
    let x := s.cham c
    leBytes 8 (x.armed.toNat + 256 * x.members.length + 65536 * (if x.armed then x.target % 2 ^ 48 else 0)))

/-- A full-state compare that is due at boundary `n`. -/
def State.fullCompare (s : State) (n : Nat) : State :=
  let per := s.fld F.STEP_CFG_FULL_PERIOD
  if s.pair.fullDue || s.bit F.STEP_CTL_FULL_REQ || (per ≠ 0 && n % per == 0) then
    let c := crc32c s.stateVector
    let s := s.setFlds [(F.STEP_CTL_FULL_REQ, 0), (F.STEP_STATE_LOCAL_CRC, c)]
    s.updPair (fun p => { p with fullDue := false, states := ((n, c) :: p.states).take 4 })
  else s

/-- R462: the known-answer test of the tick, the 73 check-value instances taken in turn. -/
def State.katRun (s : State) (n : Nat) : State :=
  if s.role ≠ 0 && s.role ≠ 4 && Config.katFails (n % 73) n then (s.stepErr 6).setBit F.STEP_HEALTH_FAIL_FLOOR true else s

/-! ### The own list (R451) -/

/-- SEQ `a` is greater than `b`. -/
def seqAfter (a : Nat) (b : Option Nat) : Bool :=
  match b with
  | none => true
  | some b => let d := (a + 2 ^ 32 - b % 2 ^ 32) % 2 ^ 32; d ≠ 0 && decide (d < 2 ^ 31)
/-- The commands taken from the carry buffer, while they fit into `room` bytes. -/
def takeCmds : List Cmd → Nat → List Cmd
  | [], _ => []
  | c :: cs, room => if room < c.data.length then [] else c :: takeCmds cs (room - c.data.length)

def State.ownList (s : State) : State × (Nat × List Byte × Bool) :=
  let cs := takeCmds (s.pair.carry.filter (fun (c : Cmd) => seqAfter c.seq s.pair.hiSeq)) 14328
  let area := (cs.map (fun (c : Cmd) => c.data)).flatten
  let carried := cs.any (fun (c : Cmd) => decide (c.since < s.pair.releases))
  match s.touch.queued with
  | none => (s, (cs.length, area, carried))
  | some p =>
    let d := leBytes 8 p.length ++ slice p 0 (ceilDiv p.length 8 * 8)
    if area.length + d.length ≤ 14328 then (s.touchPlaced true, (cs.length + 1, area ++ d, carried))
    else (s.touchPlaced false, (cs.length, area, carried))

/-- The SEQs of the commands in a command area (R103). -/
def areaSeqs : Nat → List Byte → List Nat
  | 0, _ => []
  | f + 1, d =>
    if d.length < 8 then []
    else leNat (slice d 4 4) :: areaSeqs f (d.drop (8 + ceilDiv (leNat (d.take 2)) 8 * 8))

/-! ### The agreement message (R446 to R449) -/

/-- Newest complete access units and frames, as a boundary samples them (R104). -/
def State.sampleStream (s : State) : List Nat := (List.range 128).map (fun i => if s.bit (F.DEC_CTX_CTL_EN i) then (Tbl.get (fun _ => ({} : DecCtx)) s.dctx i).newest else 0)
def State.sampleInput (s : State) : List Nat := (List.range 24).map (fun j => if s.inEn j then (s.inp j).num else 0)

def qwords (l : List Nat) : List Byte := l.flatMap (fun v => leBytes 8 v)
/-- `d` in pieces of at most `n` bytes, with their offsets. -/
def pieces (n : Nat) : Nat → Nat → List Byte → List (Nat × List Byte)
  | 0, _, _ => []
  | f + 1, o, d => if d.isEmpty then [] else (o, d.take n) :: pieces n f (o + n) (d.drop n)

/-- The barges of a message before its AGREE_END, in the order sent: type, SPEC[47:36] and payload (R446). -/
def agreeParts (g : AgreeMsg) : List (Nat × Nat × List Byte) :=
  let hdr := leBytes 8 g.tick ++ leBytes 1 g.role ++ leBytes 1 g.health ++ leBytes 1 g.flags ++ leBytes 1 0 ++ leBytes 4 g.cmdCount ++
    leBytes 4 g.cmds.length ++ leBytes 4 g.digest ++ leBytes 4 g.heads ++ leBytes 8 g.readyTick ++ leBytes 4 g.stateCrc ++
    leBytes 8 g.stateTick ++ leBytes 16 0
  [(0x60, 0, hdr), (0x61, 0, qwords g.stream), (0x61, 1, qwords g.input)] ++
    (pieces 1024 (g.cmds.length + 1) 0 g.cmds).map (fun p => (0x62, p.1 / 8, p.2))
def agreeCrc (g : AgreeMsg) : Nat := crc32c (((agreeParts g).map (fun p => p.2.2)).flatten)
/-- R447: AGREE_END carries the tick of the header and the CRC of the payloads. -/
def agreeComplete (g : AgreeMsg) : Bool := g.endTick == g.tick && g.crc == agreeCrc g

/-- The message of tick `n`, in roles other than STANDALONE and FAILED. -/
def State.agreeSend (s : State) (n : Nat) : State :=
  if s.role = 0 || s.role = 4 then s
  else
    let l : Nat × List Byte × Bool := if s.role = 1 then s.pair.list.getD (0, [], false) else (0, [], false)
    let dig := match s.pair.dig with
      | some (t, c, h) => if t + 1 = n then (c, h) else (0, 0)
      | none => (0, 0)
    let full := s.pair.states.find? (fun p => p.1 + 1 == n)
    let r := s.pair.readyAt
    let fl := s.fld F.STEP_STATUS_AGREED + 2 * s.inStep.toNat + 4 * r.isSome.toNat + 8 * full.isSome.toNat +
      16 * s.fld F.STEP_STATUS_SWAP_DUE + 32 * s.fld F.STEP_STATUS_TOUCH_OWNER
    let g : AgreeMsg := ⟨n, s.role, s.health, fl, l.1, l.2.1, dig.1, dig.2, r.getD 0, (full.map (·.2)).getD 0, (full.map (·.1)).getD 0,
      s.pair.stream, s.pair.input, n, 0⟩
    let s := (agreeParts g).foldl (fun s p => s.stepSend ⟨p.1, 1, p.2.1, p.2.2, none⟩) s
    s.stepSend ⟨0x63, 1, 0, leBytes 8 n ++ leBytes 4 (agreeCrc g) ++ leBytes 4 0, none⟩

/-- A partner message that counts for the current tick `n` (R441, R449, R453, R454, R466, R470). -/
def State.countMsg (s : State) (g : AgreeMsg) : State :=
  let n := s.tickNo
  let fl (i : Nat) : Bool := g.flags / 2 ^ i % 2 == 1
  let s := s.updPair (fun p => { p with cur := some g, partner := g.digest })
  let s := s.setFlds [(F.STEP_STATUS_PARTNER_SEEN, 1), (F.STEP_STATUS_PARTNER_ROLE, g.role), (F.STEP_STATUS_PARTNER_HEALTH, g.health)]
  let s := if g.role = 3 then s else s.snapSendFail
  if s.role = 4 then s
  else
  let s := if g.role = 1 && s.role = 1 then (s.stepErr 4).updPair (fun p => { p with differ := true }) else s
  let s := if fl 0 || s.pair.joinedAt = some n then s else s.setInStep false
  -- digests
  let s := match s.pair.dig with
    | some (t, c, h) =>
      if t + 1 ≠ n then s
      else
        let s := (s.setFlds [(F.STEP_DIG_LOCAL_DIGEST, c), (F.STEP_DIG_PARTNER_DIGEST, g.digest)]).setReg64 R.STEP_DIG_TICK_LO R.STEP_DIG_TICK_HI t
        if c = g.digest && h = g.heads then
          s.updPair (fun p => { p with alike := true, eqRun := if p.eqTick + 1 = t then p.eqRun + 1 else 1, eqTick := t })
        else (((s.stepErr 1).bump F.STEP_CNT_MISMATCH_COUNT).updPair (fun p => { p with differ := true })).readySpoil
    | none => s
  -- full-state compare
  let s := if !fl 3 then s
    else
      let s := s.setFld F.STEP_STATE_PARTNER_CRC g.stateCrc
      match s.pair.states.find? (fun p => p.1 == g.stateTick) with
      | none => s.updPair (fun p => { p with fullDue := true })
      | some (_, c) =>
        if c = g.stateCrc then s.updPair (fun p => { p with stateOk := true })
        else ((s.stepErr 2).updPair (fun p => { p with differ := true, stateOk := false })).readySpoil
  -- readiness
  let spoilt := (s.pair.spoilt.map (fun t => decide (g.readyTick ≤ t + 2))).getD false
  if fl 2 then (if s.pair.partnerAt.isNone && decide (n < g.readyTick) && !spoilt then s.updPair (fun p => { p with partnerAt := some g.readyTick }) else s)
  else s.updPair (fun p => { p with partnerAt := none })

/-- `n` barges of VC 1 with these lengths arrive in sequence; `f` handles what they carry together. -/
def State.rxAll (s : State) (q : Nat) : Nat → List Nat → (State → State) → State
  | _, [], f => f s
  | seq, l :: ls, f => s.rxBarge q seq 1 l (fun s => if ls.isEmpty then f s else s.rxAll q ((seq + 1) % 4096) ls f)

/-- AGREEMENT_MESSAGE: the barges of a message arrive on quad Q22 + q (R447, R449). -/
def execAgreementMessage (q : Fin 2) (seq : BitVec 12) (g : AgreeMsg) (s : State) : Out :=
  .next <| s.ifRun fun s =>
    let lens := [64, 1024, 192] ++ (pieces 1024 (g.cmds.length + 1) 0 g.cmds).map (fun p => p.2.length) ++ [16]
    s.rxAll (22 + q) seq.toNat lens fun s =>
      let n := s.tickNo
      if s.role = 0 || !agreeComplete g then s
      else if s.bit F.TICK_STATUS_RUNNING && g.tick = n then
        if s.pair.cur.isSome || !s.pair.deadlineDue || s.tickB n + 38000 < s.nowNs then s else s.countMsg g
      else if (if s.bit F.TICK_STATUS_RUNNING then decide (n < g.tick) else true) && s.pair.msgs.all (fun x => x.tick != g.tick) then
        s.updPair (fun p => { p with msgs := (g :: p.msgs).take 4 })
      else s

/-! ### The tick (R438, R441, R449, R450, R455, R465, R470) -/

/-- What boundary `n` does in the STEP block, once TICK_COUNT holds `n`. -/
def State.pairBoundary (s : State) (n : Nat) : State :=
  -- pins, IN_STEP at the ready tick, role
  let s := s.pinsDue
  let s := if s.pair.readyAt = some n || s.pair.partnerAt = some n then
      (((s.setInStep true).setReady false).updPair (fun p => { p with readyAt := none, partnerAt := none, joinedAt := some n })) else s
  -- digest of the tick that ends; nothing of the partner's is known of the new one
  let s := if n = 0 then s else
    let d := s.digest (n - 1)
    s.updPair (fun p => { p with dig := some (n - 1, d.1, d.2) })
  let s := (s.updPair (fun p => { p with alike := false, partner := 0 })).setBit F.STEP_STATUS_PARTNER_SEEN false
  let s := s.evalRole true
  let s := (s.fullCompare n).katRun n
  -- readiness
  let joins := (List.range 4).all (fun k => s.fld (F.STEP_JOIN_ARM k) = 0)
  let run : Nat := max 1 (s.fld F.STEP_CFG_READY_TICKS)
  let s := if s.ready && s.role = 3 && s.pair.readyAt.isNone && joins && s.pair.stateOk && decide (run ≤ s.pair.eqRun) &&
      decide (n ≤ s.pair.eqTick + 2) then s.updPair (fun p => { p with readyAt := some (n + 2) }) else s
  -- swap
  let swap := s.reg64 R.STEP_SWAP_LO R.STEP_SWAP_HI
  let s := if swap ≠ 0 && decide (swap ≤ n) && !s.pair.swapped then s.setBit F.STEP_STATUS_SWAP_DUE true else s
  -- the new tick's window
  let s := s.touchReport
  let held := s.pair.msgs.find? (fun g => g.tick == n)
  let s : State := s.updPair (fun (p : PairSt) => { p with
    wasKicked := p.kicked, kicked := false, miss := false, differ := false, cur := none, list := none,
    stream := s.sampleStream, input := s.sampleInput, msgs := p.msgs.filter (fun (g : AgreeMsg) => decide (n < g.tick)), deadlineDue := true, releaseDue := true })
  let s := if s.role = 1 then let p := s.ownList; p.1.updPair (fun x => { x with list := some p.2 }) else s
  let s := s.agreeSend n
  match held with
  | some g => if s.role = 0 then s else s.countMsg g
  | none => s

/-- AGREE_DEADLINE (R449): B(n) + 38 µs passes. -/
def State.agreeDeadline (s : State) : State :=
  if !s.pair.deadlineDue then s
  else
    let s := s.advanceTo (s.tickB s.tickNo + 38000)
    let s := s.updPair (fun p => { p with deadlineDue := false })
    if s.role = 0 || s.role = 4 || s.pair.cur.isSome then s
    else ((((s.stepErr 0).bump F.STEP_CNT_AGREE_MISS_COUNT).setInStep false).updPair (fun p => { p with miss := true })).readySpoil
def execAgreeDeadline (s : State) : Out := .next (s.ifRun State.agreeDeadline)

/-- The inbox of tick `n` by role (R450): state after it, STREAM, INPUT, commands (count, bytes, CARRIED), AGREED. -/
def State.formInbox (s : State) : State × List Nat × List Nat × (Nat × List Byte × Bool) × Bool :=
  let p := s.pair
  let lo (a b : List Nat) : List Nat := (a.zip b).map (fun x => min x.1 x.2)
  let own := match p.list with
    | some l => (s, l)
    | none => if s.role = 0 || s.role = 1 then s.ownList else (s, (0, [], false))
  let copied (g : AgreeMsg) : Nat × List Byte × Bool :=
    let q := areaSeqs g.cmdCount g.cmds
    (g.cmdCount, g.cmds, p.carry.any (fun (c : Cmd) => q.contains c.seq && decide (c.since < p.releases)))
  match p.cur with
  | some g =>
    if s.role = 1 && g.role = 2 && g.flags / 2 % 2 = 1 then (own.1, lo p.stream g.stream, lo p.input g.input, own.2, true)
    else if s.role = 2 && g.role = 1 then (s, lo p.stream g.stream, lo p.input g.input, copied g, true)
    else if s.role = 3 && g.role = 1 then (s, g.stream, g.input, copied g, false)
    else (own.1, p.stream, p.input, own.2, false)
  | none => (own.1, p.stream, p.input, own.2, false)

/-- The bytes of an inbox that are not zero, by offset (R103). -/
def inboxBytes (n : Nat) (agreed carried : Bool) (count : Nat) (st inp : List Nat) (cmds : List Byte) : List (Nat × List Byte) :=
  [(0, leBytes 8 n), (8, leBytes 8 (agreed.toNat + 2 * carried.toNat)), (0x10, leBytes 4 count), (0x14, leBytes 4 cmds.length),
   (0x40, qwords st), (0x440, qwords inp), (0x800, cmds), (0x3FF8, leBytes 8 n)]

/-- INBOX_RELEASE at B(n) + 40 µs (R104, R105, R306, R450, R455), but for the sequencers. -/
def State.inboxRelease (s : State) : State :=
  let s := s.agreeDeadline
  let n := s.tickNo
  let s := s.advanceTo (s.tickB n + 40000)
  let r := s.formInbox
  let s := r.1
  let st := r.2.1
  let inp := r.2.2.1
  let l := r.2.2.2.1
  let agreed := r.2.2.2.2
  let box := (inboxBytes n agreed l.2.2 l.1 st inp l.2.1).foldl (fun t p => Tbl.setN (fun _ => (0 : Byte)) t p.1 p.2) ([] : Tbl Byte)
  let s := { s with inboxPrev := s.inboxCur, inboxCur := box }
  let s := s.setBit F.STEP_STATUS_AGREED agreed
  let hi := (areaSeqs l.1 l.2.1).foldl (fun h q => if q ≠ 0 && seqAfter q h then some q else h) s.pair.hiSeq
  let s : State := s.updPair (fun (p : PairSt) => { p with
    hiSeq := hi, releases := p.releases + 1, releaseDue := false, list := none,
    carry := p.carry.filter (fun (c : Cmd) => seqAfter c.seq hi) })
  let s := ((List.range 128).zip st).foldl (fun s p => { s with seen := Tbl.set (fun _ => {}) s.seen p.1 ((s.seenOf p.1).release p.2 n) }) s
  let s := ((List.range 24).zip inp).foldl (fun s p =>
    { s with seen := Tbl.set (fun _ => {}) s.seen (128 + p.1) ((s.seenOf (128 + p.1)).release p.2 n) }) s
  let s :=
    if !s.bit F.TICK_STATUS_RUNNING then s.updPair (fun p => { p with pulse := 0 })
    else if s.pair.wasKicked then
      s.updPair (fun p => { p with pulse := if s.health ≠ 0 || p.miss || p.differ then 6 else 2 })
    else (s.updPair (fun p => { p with pulse := 0 })).stepErr 7
  s.showHealth

/-- A write of 0 to RUN, once RUNNING is 0 (R438, R441). -/
def State.pairStop (s : State) : State :=
  let s := s.setInStep false
  let s := s.updPair (fun p => { p with kicked := false })
  if !s.pair.taken.isEmpty then s.pinsAct.evalRole false else s

/-! ### STEP registers (R441, R454, R455, R465, R470, R473) -/

/-- STEP_CTL. -/
def State.stepCtlReg (a : Admit) : State :=
  let s := a.plain R.STEP_CTL
  let s := if a.one F.STEP_CTL_LEAVE then s.setInStep false else s
  if !a.took F.STEP_CTL_READY then s
  else if a.one F.STEP_CTL_READY then
    if s.role = 3 then (s.setReady true).updPair (fun p => if a.st.ready then p else { p with stateOk := false }) else s.setReady a.st.ready
  else (s.setReady false).updPair (fun p => { p with readyAt := none })
def execStepFullReq (m : Mst) (w : Word) (s : State) : Out := .next (s.runReg m.toNat R.STEP_CTL w.toNat State.stepCtlReg)
def execStepLeave (m : Mst) (w : Word) (s : State) : Out := .next (s.runReg m.toNat R.STEP_CTL w.toNat State.stepCtlReg)
def execStepReady (m : Mst) (w : Word) (s : State) : Out := .next (s.runReg m.toNat R.STEP_CTL w.toNat State.stepCtlReg)

/-- STEP_HB. -/
def State.stepHb (a : Admit) : State := if a.one F.STEP_HB_KICK then a.st.updPair (fun p => { p with kicked := true }) else a.st
def execStepHbKick (m : Mst) (w : Word) (s : State) : Out := .next (s.runReg m.toNat R.STEP_HB w.toNat State.stepHb)

/-- STEP_SWAP_LO and STEP_SWAP_HI. -/
def State.stepSwap (off : Nat) (a : Admit) : State :=
  let s := a.plain off
  if !a.wrote off then s else (s.setBit F.STEP_STATUS_SWAP_DUE false).updPair (fun p => { p with swapped := false })

/-- The registers of R473 while a snapshot is being sent. -/
def State.stepGuard (off : Nat) (a : Admit) : State :=
  if a.st.bit F.STEP_SNAP_STAT_BUSY then (if a.wrote off then a.st.stepErr 10 else a.st) else a.plain off

/-- STEP_JOIN_k (R468). -/
def State.stepJoin (k : Nat) (a : Admit) : State :=
  let was := a.st.fld (F.STEP_JOIN_ARM k)
  let s := State.stepGuard (R.STEP_JOIN k) a
  let now := s.fld (F.STEP_JOIN_ARM k)
  let s := (List.range 32).foldl (fun s b =>
    if now / 2 ^ b % 2 = 1 && was / 2 ^ b % 2 = 0 then s.updDc (32 * k + b) (fun (c : DecCtx) => { c with joinJ := 0, joinKept := [] }) else s) s
  s.setBit F.STEP_STATUS_JOIN_PENDING ((List.range 4).any (fun k => s.fld (F.STEP_JOIN_ARM k) ≠ 0))
def execJoinArm (m : Mst) (k : Fin 4) (w : Word) (s : State) : Out :=
  .next (s.runReg m.toNat (R.STEP_JOIN k.val) w.toNat (State.stepJoin k.val))

/-! ### The snapshot (R466, R467) -/

/-- The quad a snapshot travels on, if one is up. -/
def State.snapQuad (s : State) : Option Nat := if s.up 23 then some 23 else if s.up 22 then some 22 else none

/-- The ranges of the list, none where it or an entry breaks R466. -/
def State.snapRanges : Nat → Nat → State → State × Option (List (Nat × Nat))
  | 0, _, s => (s, some [])
  | n + 1, a, s =>
    if s.region a ≠ .gen then (s, none)
    else
    let r := s.read 0x5F a 16
    let s := r.noted 0x5F a 7
    let b := leNat (slice r.data 0 8)
    let len := leNat (slice r.data 8 8)
    let g := if len = 0 then s.region b else s.regionN b len
    if r.poisoned || b % 32 ≠ 0 || len % 32 ≠ 0 || !(g = .dram || g = .gen) then (s, none)
    else
      let p := State.snapRanges n (a + 16) s
      (p.1, p.2.map ((b, len) :: ·))

/-- One SNAP_DATA barge: at most 992 bytes from `a`, poisoned bytes as zero (R371). -/
def State.snapData (s : State) (q a n : Nat) : State × List Byte :=
  let r := s.read (0x48 + q) a n
  (r.noted (0x48 + q) a 7, r.dmaBytes a n)

/-- SNAP_START, the data of the ranges and SNAP_END (R466), on quad `q`. -/
def State.snapSend (s : State) (q t : Nat) (rs : List (Nat × Nat)) : State :=
  let total := (rs.map (·.2)).foldl (· + ·) 0
  let cuts := rs.flatMap (fun r => (List.range (ceilDiv r.2 992)).map (fun i => (r.1 + 992 * i, min 992 (r.2 - 992 * i))))
  let s := s.stepSendOne ⟨0x65, 0, 0, leBytes 8 t ++ leBytes 4 rs.length ++ leBytes 4 0 ++ leBytes 8 total ++ leBytes 8 0, none⟩
  let p := cuts.foldl (fun (p : State × Nat) c =>
    let d := p.1.snapData q c.1 c.2
    (d.1.stepSendOne ⟨0x66, 0, 0, leBytes 8 c.1 ++ d.2, none⟩, crc32cFrom p.2 d.2)) (s, 0xFFFFFFFF)
  p.1.stepSendOne ⟨0x67, 0, 0, leBytes 8 t ++ leBytes 4 (p.2 ^^^ 0xFFFFFFFF) ++ leBytes 4 cuts.length, none⟩

/-- A write of GO; ranges in DRAM wait for a frequency change to end (R355). -/
def State.snapGo (s : State) : State :=
  let n := s.fld F.STEP_SNAP_CTL_COUNT
  let a := s.fld F.STEP_SNAP_LIST_LO_ADDR * 16 + s.fld F.STEP_SNAP_LIST_HI_ADDR * 2 ^ 32
  let s := s.setBit F.STEP_SNAP_CTL_GO false
  let rs := if s.role = 1 && s.fld F.STEP_STATUS_PARTNER_ROLE = 3 && 1 ≤ n && n ≤ 64 then State.snapRanges n a s else (s, none)
  let s := rs.1
  match rs.2 with
  | none => (s.setBit F.STEP_SNAP_STAT_REFUSED true).stepErr 5
  | some rs => match s.snapQuad with
    | none => (s.setBit F.STEP_SNAP_STAT_FAIL true).stepErr 5
    | some q =>
      let t := s.reg64 R.STEP_SNAP_TICK_LO R.STEP_SNAP_TICK_HI
      let s := s.setBit F.STEP_SNAP_STAT_BUSY true
      if rs.any (fun r => s.waits (s.region r.1)) then s.defer (.snap q t rs) else s.snapSend q t rs

/-- STEP_SNAP_CTL. -/
def State.snapCtl (a : Admit) : State :=
  if a.st.bit F.STEP_SNAP_STAT_BUSY then (if a.wrote R.STEP_SNAP_CTL then a.st.stepErr 10 else a.st)
  else
    let s := a.plain R.STEP_SNAP_CTL
    if s.bit F.STEP_SNAP_CTL_GO then s.snapGo else s
def execSnapSend (m : Mst) (w : Word) (s : State) : Out := .next (s.runReg m.toNat R.STEP_SNAP_CTL w.toNat State.snapCtl)

def State.snapFail (s : State) : State := (s.setBit F.STEP_SNAP_STAT_FAIL true).stepErr 5

/-- SNAP_START on quad Q22 + q. -/
def execSnapStart (q : Fin 2) (seq : BitVec 12) (tick : DWord) (_ranges : Word) (_total : DWord) (s : State) : Out :=
  .next <| s.rxBarge (22 + q) seq.toNat 0 32 fun s =>
    if s.role = 3 then s.updPair (fun p => { p with snap := some ⟨tick.toNat, 0, 0xFFFFFFFF, false⟩ }) else s

/-- SNAP_DATA on quad Q22 + q. -/
def execSnapData (q : Fin 2) (seq : BitVec 12) (addr : BitVec 48) (d : List Byte) (s : State) : Out :=
  .next <| s.rxBarge (22 + q) seq.toNat 0 (8 + d.length) fun s =>
    if s.role ≠ 3 then s
    else
      let w := s.writeEach (0x46 + q) (d.length + 1) addr.toNat d
      let s := if w.2 then w.1 else w.1.snapFail
      s.updPair (fun p => { p with snap := p.snap.map (fun (x : SnapRx) => { x with count := x.count + 1, crc := crc32cFrom x.crc d, bad := x.bad || !w.2 }) })

/-- SNAP_END on quad Q22 + q. -/
def execSnapEnd (q : Fin 2) (seq : BitVec 12) (tick : DWord) (crc count : Word) (s : State) : Out :=
  .next <| s.rxBarge (22 + q) seq.toNat 0 16 fun s =>
    if s.role ≠ 3 then s
    else
      let x := s.pair.snap
      let s := s.updPair (fun p => { p with snap := none })
      match x with
      | none => s.snapFail
      | some x =>
        if !x.bad && x.tick = tick.toNat && x.count = count.toNat && (x.crc ^^^ 0xFFFFFFFF) = crc.toNat then
          (s.setBit F.STEP_SNAP_STAT_RECEIVED true).setReg64 R.STEP_SNAP_RTICK_LO R.STEP_SNAP_RTICK_HI tick.toNat
        else s.snapFail

/-! ### Marks and the arbiter (R456, R463) -/

/-- RAP_MARK on quad Q22 + q: the copy of a mark already held is discarded. -/
def execRapMark (q : Fin 2) (seq : BitVec 12) (ctx : Fin 128) (num : DWord) (capture : BitVec 96) (len : Word) (noTime : Bool) (s : State) : Out :=
  .next <| s.rxBarge (22 + q) seq.toNat 1 32 fun s =>
    let k : Mark := ⟨num.toNat, leBytes 12 capture.toNat, noTime, len.toNat, s.fld F.STEP_STATUS_PARTNER_ROLE = 1⟩
    if s.role = 0 || ((Tbl.get (fun _ => ({} : DecCtx)) s.dctx ctx.val).marks).contains k then s else s.markReceived ctx k

/-- A response of the SPI target: `n` bytes clocked out, zero after the last byte of `d`. -/
def State.arb (s : State) (d : List Byte) (n : Nat) : State := { s with resp := .bytes (slice d 0 n) }
def execArbHealthRead (n : Nat) (s : State) : Out := .next (s.ifRun fun s => s.arb s.pair.health n)
def execArbIdRead (n : Nat) (s : State) : Out :=
  .next (s.ifRun fun s => s.arb (leBytes 4 s.deviceId ++ leBytes 1 (s.fld F.SYS_STRAP_PAIR_POS)) n)
def execArbOtherCmd (_cmd : Byte) (n : Nat) (s : State) : Out := .next (s.ifRun fun s => { s with resp := .bytes (List.replicate n 0xFF) })

end Sys2Proof.Machine
end

