-- ==== Sys2Proof/Machine/Tele.lean ====
section
/-!
DEFINITION. Telemetry: selections, counters, histograms and the periodic dump (R431 to R436).
Readings and choices beyond the spec's plain words: log entry 60.
-/
namespace Sys2Proof.Machine

def State.teleZero (s : State) (i : Nat) : State := s.setFlds [(F.TELE_CNT_LO_VALUE i, 0), (F.TELE_CNT_HI_VALUE i, 0)]
def State.binsZero (s : State) (k : Nat) : State := (List.range 32).foldl (fun s b => s.setReg (R.TELE_HBIN k b) 0) s

/-- A write to TELE_SEL_i (R431). -/
def State.teleSel (i : Nat) (a : Admit) : State := ((a.plain (R.TELE_SEL i)).teleZero i).setBit (F.TELE_CNT_HI_OVF i) false
def execTeleSelWrite (m : Mst) (i : Fin 256) (w : Word) (s : State) : Out :=
  .next (s.runReg m.toNat (R.TELE_SEL i.val) w.toNat (State.teleSel i.val))

/-- A write to TELE_HSEL_k (R432). -/
def State.teleHsel (k : Nat) (a : Admit) : State := ((a.plain (R.TELE_HSEL k)).binsZero k).setReg (R.TELE_HMAX k) 0
def execTeleHselWrite (m : Mst) (k : Fin 16) (w : Word) (s : State) : Out :=
  .next (s.runReg m.toNat (R.TELE_HSEL k.val) w.toNat (State.teleHsel k.val))

/-- A write to another TELE register at `off` (R431, R436). -/
def State.teleCfg (off : Nat) (a : Admit) : State :=
  if off = R.TELE_DUMP_SKIP then a.st.setReg off 0
  else if 0x72000 ≤ off && off < 0x72800 && off % 8 = 0 then a.st.teleZero ((off - 0x72000) / 8)
  else a.plain off

/-- The slot of a dump but for its DSEQ (R433). -/
def State.dumpImage (s : State) : List Byte :=
  let cnt (i : Nat) : Nat :=
    let e := s.fld (F.TELE_SEL_EVENT i)
    s.fld (F.TELE_CNT_LO_VALUE i) + 2 ^ 32 * s.fld (F.TELE_CNT_HI_VALUE i) + 2 ^ 48 * s.fld (F.TELE_CNT_HI_OVF i) +
      (if 1 ≤ e && e ≤ 0x18 then 2 ^ 63 else 0)
  leBytes 8 0 ++ leBytes 12 s.nowTriple ++ leBytes 8 s.tickNo ++ leBytes 36 0 ++
    (List.range 256).flatMap (fun i => leBytes 8 (cnt i)) ++
    (List.range 512).flatMap (fun j => leBytes 4 (s.fld (F.TELE_HBIN_COUNT (j / 32) (j % 32))))

/-- A dump is taken (R433, R434). -/
def State.dumpTake (s : State) : State :=
  let n := s.reg64 R.TELE_DUMP_SEQ_LO R.TELE_DUMP_SEQ_HI + 1
  let slots := max 2 (s.fld F.TELE_DUMP_SLOTS_SLOTS)
  let a := s.fld F.TELE_DUMP_LO_ADDR * 4096 + s.fld F.TELE_DUMP_HI_ADDR * 2 ^ 32 + 4160 * ((n - 1) % slots)
  let img := s.dumpImage
  let s := if s.bit F.TELE_DUMP_CTL_CLEAR_HIST then (List.range 16).foldl State.binsZero s else s
  let w := s.writeTil 0x62 128 a img
  let w := if w.2 then w.1.writeTil 0x62 4 a (leBytes 8 n ++ (img.drop 8).take 24) else w
  if w.2 then w.1.setReg64 R.TELE_DUMP_SEQ_LO R.TELE_DUMP_SEQ_HI n
  else (w.1.setBit F.TELE_DUMP_CTL_EN false).orFld F.TELE_ERR_ERR 1

/-- TELE_DUMP: due once at each boundary with TICK, else at the next multiple of PERIOD µs. -/
def execTeleDump (busy : Bool) (s : State) : Out :=
  .next <| s.ifRun fun s =>
    if !s.bit F.TELE_DUMP_CTL_EN then s
    else
      let go (s : State) : State := if busy then (s.bump F.TELE_DUMP_SKIP_COUNT).orFld F.TELE_ERR_ERR 2 else s.dumpTake
      if s.bit F.TELE_DUMP_CTL_TICK then
        if s.bit F.TICK_STATUS_RUNNING && s.dump.tick != some s.tickNo then
          go { s with dump := { s.dump with tick := some s.tickNo } }
        else s
      else
        let p := 500 * max 1 (s.fld F.TELE_DUMP_CTL_PERIOD)
        let due := max ((s.dump.clk / p + 1) * p) (ceilDiv s.time.clk p * p)
        let s := s.advance (due - s.time.clk)
        go { s with dump := { s.dump with clk := due } }

end Sys2Proof.Machine
end

