-- ==== Sys2Proof/Machine/Sequence.lean ====
section
/-!
DEFINITION. The tick sequencers (R97 to R117): control, ownership, the T-profile instructions, and what the tick does to them
(R48, R107).
Readings and choices beyond the spec's plain words: log entries 27, 28, 29 and 30.
-/
namespace Sys2Proof.Machine

/-! ### States (R99, R100, R117) -/

def State.sqState (s : State) (k : Nat) : Nat := s.fld (F.TICK_SQ_STATUS_STATE k)
def State.setSqState (s : State) (k v : Nat) : State := s.setFld (F.TICK_SQ_STATUS_STATE k) v
def State.waitOf (s : State) (k : Nat) : SqWait := Tbl.get (fun _ => .none) s.sqWait k
def State.setWait (s : State) (k : Nat) (w : SqWait) : State := { s with sqWait := Tbl.set (fun _ => .none) s.sqWait k w }
def sqSram (k : Nat) : Nat := 0x4300000000 + k * 0x40000

/-- TICK_SQ_CTL_k (R100): an instruction that waits is abandoned by a stop. -/
def State.sqCtl (k : Nat) (a : Admit) : State :=
  let was := a.st.bit (F.TICK_SQ_CTL_EN k)
  let s := a.plain (R.TICK_SQ_CTL k)
  let now := s.bit (F.TICK_SQ_CTL_EN k)
  if was == now || s.bit (F.TICK_SQ_FAULT_VALID k) then s
  else (s.setWait k .none).setSqState k (if now then 1 else 0)
def execSqEnable (m : Mst) (k : Fin 4) (w : Word) (s : State) : Out :=
  .next (s.runReg m.toNat (R.TICK_SQ_CTL k.val) w.toNat (State.sqCtl k.val))
def execSqDisable (m : Mst) (k : Fin 4) (w : Word) (s : State) : Out :=
  .next (s.runReg m.toNat (R.TICK_SQ_CTL k.val) w.toNat (State.sqCtl k.val))

/-- TICK_SQ_FAULT_k (R117). -/
def State.sqFaultClear (k : Nat) (a : Admit) : State :=
  let was := a.st.bit (F.TICK_SQ_FAULT_VALID k)
  let s := a.plain (R.TICK_SQ_FAULT k)
  if was && !s.bit (F.TICK_SQ_FAULT_VALID k) then
    (s.setWait k .none).setSqState k (if s.bit (F.TICK_SQ_CTL_EN k) then 1 else 0)
  else s
def execSqFaultClear (m : Mst) (k : Fin 4) (w : Word) (s : State) : Out :=
  .next (s.runReg m.toNat (R.TICK_SQ_FAULT k.val) w.toNat (State.sqFaultClear k.val))

/-! ### Ownership (R97, R101) -/

def State.ownsHead (s : State) (k h : Nat) : Bool := decide (h < 32) && s.bitAt (F.TICK_SQ_HEADS_HEADS k) h
def State.ownsLp (s : State) (k lp : Nat) : Bool :=
  let b := s.fld (F.TICK_SQ_LP_BASE k)
  decide (b ≤ lp) && decide (lp < b + s.fld (F.TICK_SQ_LP_COUNT k))
def State.ownsDesc (s : State) (k d : Nat) : Bool :=
  let b := s.fld (F.TICK_SQ_DESC_BASE k)
  decide (b ≤ d) && decide (d < b + s.fld (F.TICK_SQ_DESC_COUNT k))

/-- Two ranges share a member. -/
def meets (b n b' n' : Nat) : Bool := decide (b < b' + n') && decide (b' < b + n) && decide (0 < n) && decide (0 < n')

/-- TICK_SQ_HEADS_k, TICK_SQ_LP_k and TICK_SQ_DESC_k, 0, 1 and 2 of `kind`: whether the set that the write leaves is refused. -/
def State.ownBad (s t : State) (k : Nat) (kind : Nat) : Bool :=
  let others := (List.range 4).filter (· != k)
  s.bit (F.TICK_SQ_CTL_EN k) ||
    (if kind = 0 then others.any (fun j => (t.fld (F.TICK_SQ_HEADS_HEADS k) &&& s.fld (F.TICK_SQ_HEADS_HEADS j)) != 0)
     else if kind = 1 then
       let b := t.fld (F.TICK_SQ_LP_BASE k)
       let n := t.fld (F.TICK_SQ_LP_COUNT k)
       decide (384 < b + n) || others.any (fun j => meets b n (s.fld (F.TICK_SQ_LP_BASE j)) (s.fld (F.TICK_SQ_LP_COUNT j)))
     else
       let b := t.fld (F.TICK_SQ_DESC_BASE k)
       let n := t.fld (F.TICK_SQ_DESC_COUNT k)
       decide (16384 < b + n) || others.any (fun j => meets b n (s.fld (F.TICK_SQ_DESC_BASE j)) (s.fld (F.TICK_SQ_DESC_COUNT j))))
def sqOwnReg (k kind : Nat) : Nat := if kind = 0 then R.TICK_SQ_HEADS k else if kind = 1 then R.TICK_SQ_LP k else R.TICK_SQ_DESC k
def State.sqOwn (k kind : Nat) (a : Admit) : State :=
  let t := a.plain (sqOwnReg k kind)
  if a.st.ownBad t k kind then a.st.setBit F.TICK_STATUS_CFG_REFUSED true else t
def execSqOwnershipWrite (m : Mst) (k : Fin 4) (kind : Fin 3) (w : Word) (s : State) : Out :=
  .next (s.runReg m.toNat (sqOwnReg k.val kind.val) w.toNat (State.sqOwn k.val kind.val))

/-! ### The tick (R48, R107) -/

/-- Boundary: a sequencer that is executing or stalled has overrun its tick (R48). -/
def State.sqOverrun (s : State) (k : Nat) : State :=
  if s.sqState k = 2 || s.sqState k = 3 then
    (((s.setWait k .none).setSqState k 1).putBitAt F.TICK_STATUS_SQ_OVERRUN k true).tele 0x18 k
  else s

/-- Inbox release: a sequencer at WAIT.TICK goes on, any other that waits starts at its restart address (R100, R107). -/
def State.sqRelease (s : State) (k : Nat) : State :=
  if s.sqState k ≠ 1 then s
  else
    let x := s.core (8 + k)
    let s := match s.waitOf k with
      | .tick => s.retire (8 + k) (x.pc + 4)
      | _ => s.setCore (8 + k) { x with
          pc := BitVec.ofNat 64 (sqSram k + 4 * s.fld (F.TICK_SQ_RESTART_ADDR k))
          xip := x.xip.map (fun (l : XipLoad) => { l with moved := true }) }
    (s.setWait k .none).setSqState k 2

/-! ### T-profile instructions (R106 to R115) -/

/-- An instruction of the T profile: legal on T cores alone. -/
def State.instrT (s : State) (c : Fin 13) (pf : BitVec 4) (word : Nat) (zero : Bool) (f : State → CoreSt → Fx) : State :=
  s.instr c.val pf word (isT c.val && zero) f

def execWaitTick (c : Fin 13) (pf : BitVec 4) (z : BitVec 22) (s : State) : Out :=
  .next <| s.instrT c pf (wordHead pf 0x30 + z.toNat) (z == 0) fun s _ =>
    let k := c.val - 8
    .hold { (s.setWait k .tick).setSqState k 1 with sqReached := Tbl.set (fun _ => 0) s.sqReached k s.time.clk }

/-- INBOX (R108). -/
def execInbox (c : Fin 13) (pf : BitVec 4) (rd ra : BitVec 5) (imm : BitVec 12) (s : State) : Out :=
  .next <| s.instrT c pf (wordI pf 0x31 rd.toNat ra.toNat imm) true fun s x =>
    let o := effAddr (x.rg ra.toNat) imm
    if o.toNat % 8 ≠ 0 then .raise s 8 o
    else if 16383 < o.toNat then .raise s 0x21 o
    else Fx.write s c.val x rd.toNat (BitVec.ofNat 64 (leNat (Tbl.getN (fun _ => 0) s.inboxCur o.toNat 8)))

/-- 64 bytes at `a` of the sequencer's own SRAM, or the fault met (R108, R114). -/
def State.ownBlock (s : State) (k : Nat) (a : DWord) : State × Except Nat (List Byte) :=
  if a.toNat % 64 ≠ 0 then (s, .error 8)
  else if a.toNat < sqSram k || sqSram k + 0x40000 ≤ a.toNat then (s, .error 10)
  else
    let r := s.read (8 + k) a.toNat 64
    if r.poisoned then (r.st.poisonRec (8 + k) a.toNat 0, .error 13) else (r.st, .ok r.data)

/-- LDSC (R108). -/
def execLdsc (c : Fin 13) (pf : BitVec 4) (rd ra rb : BitVec 5) (fn : BitVec 7) (s : State) : Out :=
  .next <| s.instrT c pf (wordR pf 0x32 rd.toNat ra.toNat rb.toNat fn.toNat) (rd == 0 && fn == 0) fun s x =>
    let k := c.val - 8
    let a := x.rg ra.toNat
    let e := x.rg rb.toNat
    if a.toNat % 64 = 0 && decide (sqSram k ≤ a.toNat) && decide (a.toNat < sqSram k + 0x40000) && !s.ownsDesc k e.toNat then .raise s 0x20 e
    else
      let p := s.ownBlock k a
      match p.2 with
      | .error q => .raise p.1 q a
      | .ok d => .done { p.1 with desc := Tbl.set (fun _ => List.replicate 64 0) p.1.desc e.toNat d }

/-- The chamber that an operand names, or the fault met (R97, R109). -/
def chamberOf (k : Nat) (v : DWord) : Except Nat Nat :=
  if 256 ≤ v.toNat then .error 0x22 else if v.toNat / 64 ≠ k then .error 0x20 else .ok v.toNat

/-- A chamber operation of core `c`. -/
def State.chamber (s : State) (c : Fin 13) (pf : BitVec 4) (op rd ra rb fn : Nat) (legal : Bool) (f : State → CoreSt → Nat → Fx) : State :=
  s.instrT c pf (wordR pf op rd ra rb fn) legal fun s x =>
    match chamberOf (c.val - 8) (x.rg ra) with
    | .error q => .raise s q (x.rg ra)
    | .ok n => f s x n

def execChamOpen (c : Fin 13) (pf : BitVec 4) (rd ra rb : BitVec 5) (s : State) : Out :=
  .next <| s.chamber c pf 0x33 rd.toNat ra.toNat rb.toNat 0 (rd == 0 && rb == 0) fun s x n =>
    if (s.cham n).armed then .raise s 0x22 (x.rg ra.toNat) else .done (s.setCham n { s.cham n with members := [] })

/-- A member word (R110): its listed bits, and whether it is well formed. DESIGN CHOICE: an LP outside 0 to 383 is a malformed word, not a
pipe that the sequencer does not own (log entry 30). -/
def memberOk (w : Nat) : Bool :=
  bits w 15 14 == 0 && bits w 31 25 == 0 && bits w 39 37 == 0 && bits w 47 44 == 0 && bits w 63 49 == 0 && decide (bits w 24 16 < 384)

/-- CHAM ADD (R109). -/
def execChamAdd (c : Fin 13) (pf : BitVec 4) (rd ra rb : BitVec 5) (s : State) : Out :=
  .next <| s.chamber c pf 0x33 rd.toNat ra.toNat rb.toNat 1 (rd.toNat % 2 == 0) fun s x n =>
    let k := c.val - 8
    let w := (x.rg rb.toNat).toNat
    let lp := bits w 24 16
    let h := bits w 36 32
    let d := bits w 13 0
    let detach := bits w 48 48 == 1
    let ch := s.cham n
    let rest := ch.members.filter (fun (m : Member) => m.lp != lp)
    let heads := ((rest.map (·.head)) ++ [h]).eraseDups
    if ch.armed || !memberOk w || decide (64 ≤ rest.length) || decide (8 < heads.length) then .raise s 0x22 (x.rg ra.toNat)
    else if !s.ownsHead k h || !s.ownsLp k lp || (!detach && !s.ownsDesc k d) then .raise s 0x20 (x.rg rb.toNat)
    else
      let fence := if rd = 0 then none else some ((x.rg rd.toNat).toNat, (x.rg (rd.toNat + 1)).toNat)
      let m : Member := ⟨Tbl.get (fun _ => List.replicate 64 0) s.desc d, d, lp, h, bits w 43 40, detach, fence⟩
      .done (s.setCham n { ch with members := rest ++ [m] })

/-- The status word of CHAM STAT. -/
def Chamber.stat (x : Chamber) : Nat :=
  x.armed.toNat + 2 * x.passed.toNat + 256 * x.members.length + 65536 * (((x.last.map (·.1)).getD 0) % 2 ^ 48)
def execChamStat (c : Fin 13) (pf : BitVec 4) (rd ra rb : BitVec 5) (s : State) : Out :=
  .next <| s.chamber c pf 0x33 rd.toNat ra.toNat rb.toNat 2 (rb == 0) fun s x n =>
    Fx.write s c.val x rd.toNat (BitVec.ofNat 64 (s.cham n).stat)

def execChamCancel (c : Fin 13) (pf : BitVec 4) (rd ra rb : BitVec 5) (s : State) : Out :=
  .next <| s.chamber c pf 0x33 rd.toNat ra.toNat rb.toNat 3 (rb == 0) fun s x n =>
    let ch := s.cham n
    Fx.write (s.setCham n { ch with armed := false }) c.val x rd.toNat (if ch.armed then 1 else 0)

/-- FLIP (R111). -/
def execFlip (c : Fin 13) (pf : BitVec 4) (rd ra rb : BitVec 5) (fn : BitVec 7) (s : State) : Out :=
  .next <| s.chamber c pf 0x34 rd.toNat ra.toNat rb.toNat fn.toNat (rd == 0 && fn == 0) fun s x n =>
    let ch := s.cham n
    if ch.armed || ch.members.isEmpty then .raise s 0x22 (x.rg ra.toNat)
    else
      let s := s.setCham n { ch with armed := true, target := (x.rg rb.toNat).toNat, order := s.flips, after := 0, passed := false }
      .done { s with flips := s.flips + 1 }

/-- What an FWAIT of sequencer `k` finds: an exception, met, or not met (R113). -/
def State.fwaitRead (s : State) (k : Nat) (a : DWord) (v : Nat) : State × Except Nat Bool :=
  if a.toNat % 8 ≠ 0 then (s, .error 8)
  else
    let p := s.bytesAt (8 + k) a.toNat 8 2
    match p.2 with
    | .error e => (p.1, .error e)
    | .ok d => (p.1, .ok (decide (v ≤ leNat d)))

def execFwait (c : Fin 13) (pf : BitVec 4) (rd ra rb : BitVec 5) (fn : BitVec 7) (s : State) : Out :=
  .next <| s.instrT c pf (wordR pf 0x35 rd.toNat ra.toNat rb.toNat fn.toNat) (rd == 0 && fn == 0) fun s x =>
    let k := c.val - 8
    let a := x.rg ra.toNat
    let v := (x.rg rb.toNat).toNat
    if a.toNat % 8 = 0 && s.dramWaits c.val a.toNat then .hold s else
    let p := s.fwaitRead k a v
    match p.2 with
    | .error e => .raise p.1 e a
    | .ok true => .done p.1
    | .ok false => .hold ((p.1.setWait k (.fwait a.toNat v)).setSqState k 3)

/-- A stalled sequencer goes on after the instruction that held it. -/
def State.sqResume (s : State) (k : Nat) : State :=
  (((s.setWait k .none).setSqState k 2).retire (8 + k) ((s.core (8 + k)).pc + 4))

/-- FWAIT_COMPLETE (R113). -/
def execFwaitComplete (k : Fin 4) (s : State) : Out :=
  .next <| s.ifRun fun s =>
    match s.waitOf k.val with
    | .fwait a v =>
      if s.dramWaits (8 + k.val) a then s else
      let p := s.fwaitRead k.val (BitVec.ofNat 64 a) v
      match p.2 with
      | .error e => (p.1.setWait k.val .none).sqFault k.val e (BitVec.ofNat 64 a)
      | .ok true => p.1.sqResume k.val
      | .ok false => p.1
    | _ => s

/-- FSIG (R113): AMO MAXU on on-chip SRAM. -/
def execFsig (c : Fin 13) (pf : BitVec 4) (rd ra rb : BitVec 5) (fn : BitVec 7) (s : State) : Out :=
  .next <| s.instrT c pf (wordR pf 0x36 rd.toNat ra.toNat rb.toNat fn.toNat) (fn == 0) fun s x =>
    s.atomic c.val x rd.toNat (x.rg ra.toNat) (fun o => some (aluMaxu o (x.rg rb.toNat)))

/-- A kick of context `i` with record `d` (R114, R207, R240): none where the engine's queue is full. -/
def State.kickDec (s : State) (i : Nat) (d : List Byte) : Option State :=
  if !s.bit (F.DEC_CTX_CTL_EN i) then some s
  else
    let j := s.decJob i d
    if s.ctxState i = 5 then some (s.updDc i (fun (c : DecCtx) => { c with pend := mergeJob c.pend j }))
    else if 16 ≤ (s.de (s.ctxEngine i)).queue.length then none
    else some (s.decQueue (s.ctxEngine i) j)
def State.kickEnc (s : State) (i : Nat) (d : List Byte) : Option State :=
  if !s.bit (F.ENC_CTX_CTL_EN i) then some s
  else
    let j := s.encJob i d
    if s.encState i = 5 then some (s.updEc i (fun (c : EncCtx) => { c with pend := mergeEnc c.pend j }))
    else if 16 ≤ (s.ee (s.encEngine i)).queue.length then none
    else some (s.encQueue (s.encEngine i) j)
def State.kick (s : State) (dec : Bool) (i : Nat) (d : List Byte) : Option State := if dec then s.kickDec i d else s.kickEnc i d

/-- KDEC and KENC (R114): the context number is judged first, then EN, which the rest of the kick needs, then the record. DESIGN CHOICE: the
spec gives no order between the number's fault and the record's (log entry 30). -/
def State.kickInstr (s : State) (c : Fin 13) (pf : BitVec 4) (op : Nat) (rd ra rb : BitVec 5) (fn : BitVec 7) (dec : Bool) : State :=
  s.instrT c pf (wordR pf op rd.toNat ra.toNat rb.toNat fn.toNat) (rd == 0 && fn == 0) fun s x =>
    let k := c.val - 8
    let i := x.rg ra.toNat
    let a := x.rg rb.toNat
    if (if dec then 128 else 32) ≤ i.toNat then .raise s 0x23 i
    else if !s.bit (if dec then F.DEC_CTX_CTL_EN i.toNat else F.ENC_CTX_CTL_EN i.toNat) then .done s
    else
      let p := s.ownBlock k a
      match p.2 with
      | .error e => .raise p.1 e a
      | .ok d => match p.1.kick dec i.toNat d with
        | some s => .done s
        | none => .hold ((p.1.setWait k (.kick dec i.toNat d)).setSqState k 3)
def execKdec (c : Fin 13) (pf : BitVec 4) (rd ra rb : BitVec 5) (fn : BitVec 7) (s : State) : Out :=
  .next (s.kickInstr c pf 0x37 rd ra rb fn true)
def execKenc (c : Fin 13) (pf : BitVec 4) (rd ra rb : BitVec 5) (fn : BitVec 7) (s : State) : Out :=
  .next (s.kickInstr c pf 0x38 rd ra rb fn false)

/-- KICK_QUEUE_FREE (R114). -/
def execKickQueueFree (k : Fin 4) (s : State) : Out :=
  .next <| s.ifRun fun s =>
    match s.waitOf k.val with
    | .kick dec i d => match s.kick dec i d with
      | some t => t.sqResume k.val
      | none => s
    | _ => s

/-- LOG.EV (R115). -/
def execLogEv (c : Fin 13) (pf : BitVec 4) (rd ra : BitVec 5) (imm : BitVec 12) (s : State) : Out :=
  .next <| s.instrT c pf (wordI pf 0x39 rd.toNat ra.toNat imm) (rd.toNat % 4 == 0 && ra == 0) fun s x =>
    .done (s.logWait (s.logEvent (0x8000 + imm.toNat) c.val (x.group rd.toNat) true))

end Sys2Proof.Machine
end

