-- ==== Sys2Proof/Machine/Tick.lean ====
section
/-!
DEFINITION. The tick (R39 to R50): rate, epoch, starting and stopping, boundaries, midpoints and inbox releases.
Readings and choices beyond the spec's plain words: log entry 40.
-/
namespace Sys2Proof.Machine

def State.cfgRefused (s : State) : State := s.setBit F.TICK_STATUS_CFG_REFUSED true

/-- A change of rate or epoch moves no instant that has come: each head that still scans goes on from the start of its line in hand, at the
new line time (R275, R284). -/
def State.reAnchor (s t : State) : State :=
  (List.range 32).foldl (fun u h =>
    if u.headRuns h then u.updHd h (fun x => { x with skewT := x.skewT + ((s.lineAt40 h x.line : Int) - t.lineAt40 h x.line) }) else u) t

/-- TICK_RATE (R41). -/
def State.tickRate (a : Admit) : State :=
  let s := a.plain R.TICK_RATE
  let n := s.fld F.TICK_RATE_NUM
  let d := s.fld F.TICK_RATE_DEN
  let ok := d ≠ 0 && decide (23976 * d ≤ n * 1000) && decide (n ≤ 120 * d)
  if !a.took F.TICK_RATE_NUM then s
  else if a.st.bit F.TICK_CTRL_RUN || !ok then a.st.cfgRefused else a.st.reAnchor s
def execTickRateWrite (m : Mst) (w : Word) (s : State) : Out := .next (s.runReg m.toNat R.TICK_RATE w.toNat State.tickRate)

/-- A register of the TICK_EPOCH triple (R41). -/
def State.tickEpoch (off : Nat) (a : Admit) : State :=
  if !a.wrote off then a.st else if a.st.bit F.TICK_CTRL_RUN then a.st.cfgRefused else a.st.reAnchor (a.plain off)
def execTickEpochWrite (m : Mst) (i : Fin 3) (w : Word) (s : State) : Out :=
  .next (s.runReg m.toNat (R.TICK_EPOCH_0 + 4 * i.val) w.toNat (State.tickEpoch (R.TICK_EPOCH_0 + 4 * i.val)))

/-- The smallest n whose boundary lies at least 1 ms after the counter (R42). -/
def State.firstTick (s : State) : Nat :=
  let x := ceilDiv s.time.now (2 ^ 40) + 1000000 - s.epochNs
  ceilDiv (x * s.tickNum) (max 1 s.tickDen * 1000000000)

/-- RUN goes to 1. -/
def State.runStart (s : State) : State :=
  if s.fld F.TIME_STATUS_STATE = 0 || s.time.now < s.epochNs * 2 ^ 40 then (s.setBit F.TICK_CTRL_RUN false).cfgRefused
  else { s with time := { s.time with nextN := some s.firstTick }, pair := { s.pair with kicked := false } }

/-- RUN goes to 0 (R35, R42, R283, R438, R441). -/
def State.runStop (s : State) : State :=
  let s := { s with time := { s.time with nextN := none, midDue := false } }
  let s := s.setFlds [(F.TICK_STATUS_RUNNING, 0), (F.TICK_LOCK_LOCK, 0)]
  let s := (List.range 32).foldl (fun s h => s.headHalt h) s
  s.stepDue.pairStop

/-- TICK_CTRL (R42). -/
def State.tickCtrl (a : Admit) : State :=
  let was := a.st.bit F.TICK_CTRL_RUN
  let s := a.plain R.TICK_CTRL
  let now := s.bit F.TICK_CTRL_RUN
  if now && !was then s.runStart else if was && !now then s.runStop else s
def execTickRunStart (m : Mst) (w : Word) (s : State) : Out := .next (s.runReg m.toNat R.TICK_CTRL w.toNat State.tickCtrl)
def execTickRunStop (m : Mst) (w : Word) (s : State) : Out := .next (s.runReg m.toNat R.TICK_CTRL w.toNat State.tickCtrl)

/-- The midpoint of the current tick (R35, R40). -/
def State.midpoint (s : State) : State :=
  if !s.time.midDue then s
  else
    let s := s.advanceTo (s.tickM s.tickNo)
    ({ s with time := { s.time with midDue := false } }).stepDue
def execTickMidpoint (s : State) : Out := .next (s.ifRun State.midpoint)

/-- The inbox of the current tick is released and the sequencers go on (R47, R107, R450). -/
def State.release40 (s : State) : State :=
  if !s.pair.releaseDue then s else (List.range 4).foldl (fun s k => s.sqRelease k) s.inboxRelease
def execInboxRelease (s : State) : Out := .next (s.ifRun State.release40)

/-- A sequencer that waits at WAIT.TICK gives its slack (R432). -/
def State.slack (s : State) (k : Nat) : State :=
  match s.waitOf k with
  | .tick => s.sample 5 k (2 * (s.time.clk - Tbl.get (fun _ => 0) s.sqReached k))
  | _ => s

/-- TICK_BOUNDARY (R40, R47, R48): what of the tick that ends is still due comes first. -/
def State.boundary (s : State) (n : Nat) : State :=
  let s := s.release40.midpoint
  let s := s.advanceTo (s.tickB n)
  let s := { s with time := { s.time with nextN := some (n + 1), midDue := true } }
  let s := (s.setReg64 R.TICK_COUNT_LO R.TICK_COUNT_HI n).setReg96 R.TICK_NOMINAL_0 (nsTriple (s.tickB n))
  let s := (s.setBit F.TICK_STATUS_RUNNING true).tele 0x02 0
  let s := (List.range 4).foldl (fun s k => (s.slack k).sqOverrun k) s
  (s.pairBoundary n).decideAtBoundary n
def execTickBoundary (s : State) : Out :=
  .next <| s.ifRun fun s => match s.time.nextN with
    | some n => s.boundary n
    | none => s

end Sys2Proof.Machine
end

