-- ==== Sys2Proof/Machine/RegAccess.lean ====
section
/-!
DEFINITION. One register access of any master (R2 to R5, R28, R549): what a read returns and latches, and which function a write
starts. SW, DEBUG_ACCESS and REG_WRITE come here; a register with a row of its own has the same function there.
Readings and choices beyond the spec's plain words: log entries 33, 34 and 38.
-/
namespace Sys2Proof.Machine

/-! ### Reads -/

/-- The head whose Age Map region holds entry `n`, among the heads that `p` picks (R322). -/
def State.ageHead (s : State) (n : Nat) (p : Nat → Bool) : Option Nat :=
  (List.range 32).find? (fun h =>
    let b := s.lfld (F.FG_HEAD_AMAP_BASE h)
    p h && decide (b ≤ n) && decide (n < b + s.tilesX h * s.tilesY h))
/-- Entry `n` of the Age Map; a head that is OFF leaves its entries as they were. -/
def State.ageEntry (s : State) (n : Nat) : Nat :=
  match (s.ageHead n (fun h => s.headState h != 0)).orElse (fun _ => s.ageHead n (fun _ => true)) with
  | some h => (s.hd h).amap.getD (n - s.lfld (F.FG_HEAD_AMAP_BASE h)) 0
  | none => 0
/-- AGE_OWNER. -/
def State.ageOwner (s : State) : Nat :=
  match s.ageHead (s.fld F.AGE_SEL_INDEX) (fun h => s.headState h != 0) with
  | some h => 2 ^ 31 + h
  | none => 0

/-- The descriptor that COMP_DESC_SEL selects (R270). -/
def State.descShown (s : State) : List Byte :=
  let n := s.fld F.COMP_DESC_SEL_INDEX
  if s.bit F.COMP_DESC_SEL_LP then ((s.layerOf n).map (·.desc)).getD [] else Tbl.get (fun _ => List.replicate 64 0) s.desc n

/-- 4 bytes as a register word. -/
def wordOf (d : List Byte) : Word := BitVec.ofNat 32 (leNat d)

/-- A register's field replaced in what a read returns. -/
def State.withFld (s : State) (f : Fld) (v : Nat) : Word := BitVec.ofNat 32 (putBits (s.reg f.addr).toNat f.hi f.lo v)

/-- Instance `i` of an array register that lies at `off`. -/
def instOf (reg : Nat → Nat) (n off : Nat) : Option Nat := (List.range n).find? (fun i => reg i == off)
/-- `f` of that instance. -/
def onInst {α : Type} (reg : Nat → Nat) (n off : Nat) (f : Nat → α) : Option α := (instOf reg n off).map f

/-- The registers that show something the bank does not hold. -/
def State.viewOf? (s : State) (off : Nat) : Option Word :=
  match off / 0x10000 with
  | 0x01 => if off = R.PWR_VCORE then some (s.withFld F.PWR_VCORE_MV s.vcoreMv) else none
  | 0x02 => if R.TIME_NOW_0 ≤ off && off ≤ R.TIME_NOW_2 then some (BitVec.ofNat 32 (s.nowTriple / 2 ^ (8 * (off - R.TIME_NOW_0)))) else none
  | 0x04 =>
    (onInst R.ICTL_PEND 8 off fun k => wordOf (leBytes 4 ((List.range 32).foldl (fun v b => v + (s.hwLine (32 * k + b)).toNat * 2 ^ b) 0)))
      <|> onInst R.ICTL_WDOG_STAT 8 off fun c => s.withFld (F.ICTL_WDOG_STAT_REMAIN c) (s.wdRemain c)
  | 0x05 =>
    if off = R.KEEP_WDOG_STAT then some (s.withFld F.KEEP_WDOG_STAT_REMAIN s.kwRemain)
    else if off = R.KEEP_FUSE_MINVER then some (BitVec.ofNat 32 s.pwr.fuses)
    else onInst R.KEEP_FUSE_HASH 8 off fun w => wordOf (slice s.pwr.keyHash (4 * w) 4)
  | 0x08 =>
    (onInst R.CVU_RESULT 16 off fun n => BitVec.ofNat 32 (s.cvuResult n))
      <|> (onInst R.CVU_CTL 16 off fun n => s.cvuShown n (R.CVU_CTL n))
      <|> (onInst R.CVU_EXPECT 16 off fun n => s.cvuShown n (R.CVU_EXPECT n))
      <|> (onInst R.CVU_STAT 16 off fun n => s.cvuStat n)
      <|> (onInst R.CVU_LAST 16 off fun n => (s.cvuSettle n).reg (R.CVU_LAST n))
  | 0x40 => onInst R.COMP_DESC_DATA 16 off fun w => wordOf (slice s.descShown (4 * w) 4)
  | 0x70 =>
    if 0x700800 ≤ off && off < 0x700900 then
      some (wordOf ((List.range 4).map fun r => Config.font ((off - 0x700800) / 16) ((off - 0x700800) % 16 + r)))
    else none
  | 0x71 =>
    if off = R.AGE_ENTRY_LO then some (BitVec.ofNat 32 (s.ageEntry (s.fld F.AGE_SEL_INDEX)))
    else if off = R.AGE_ENTRY_HI then some (BitVec.ofNat 32 (s.ageEntry (s.fld F.AGE_SEL_INDEX) / 2 ^ 32))
    else if off = R.AGE_OWNER then some (BitVec.ofNat 32 s.ageOwner)
    else none
  | _ => onInst R.HEAD_STATUS 32 off fun h => s.withFld (F.HEAD_STATUS_QUIET h) (s.quiet h).toNat
/-- What the register at `off` holds as a read sees it, latches apart. -/
def State.viewAt (s : State) (off : Nat) : Word :=
  if off = R.STEP_STATUS then s.withFld F.STEP_STATUS_HEALTH s.health else (s.viewOf? off).getD (s.reg off)

/-- How many of the registers after `off` a read of `off` latches for its master (R28 and the chapters that cite it). -/
def latchWords (off : Nat) : Nat :=
  let b := off / 0x10000
  let p := off % 0x10000
  let one (l : List Nat) : Nat := if l.contains p then 1 else 0
  let two (l : List Nat) : Nat := if l.contains p then 2 else 0
  if b = 0x02 then two [0x24, 0x30, 0x4C, 0x58]
  else if b = 0x03 then two [0x20] + one [0x18]
  else if b = 0x06 then one [0x20, 0x28, 0x3C, 0x64, 0x70]
  else if b = 0x07 then if 0x2000 ≤ p && p < 0x2800 then (if p % 8 = 0 then 1 else 0) else one [0x14, 0x20]
  else if b = 0x09 then two [0x08]
  else if b = 0x18 then one [0x30, 0x38, 0x404]
  else if b = 0x19 then if 0x40 ≤ p && p < 0x80 then (if p % 8 = 0 then 1 else 0) else one [0x10, 0x18, 0x20]
  else if 0x20 ≤ b && b < 0x30 then if p % 0x100 = 0x14 || p % 0x100 = 0x1C then (if 0x1000 ≤ p then 1 else 0) else 0
  else if b = 0x40 then if 0x3000 ≤ p && p < 0x3200 && p % 0x40 = 0x30 then 1 else 0
  else if 0x50 ≤ b && b < 0x70 then two [0x50, 0x5C, 0x68] + one [0x48, 0x74]
  else if b = 0x71 then one [0x04]
  else if 0x80 ≤ b && b < 0x98 then one [0x110]
  else if b = 0x98 then one [0x24, 0x44]
  else 0
/-- Whether a read of `off` returns a latched value. -/
def latchedAt (off : Nat) : Bool := decide (1 ≤ latchWords (off - 4)) || decide (2 ≤ latchWords (off - 8))

/-- The inbox windows: the inbox the tick's programs read, and the one of the tick before (R447). -/
def State.inboxAt (s : State) (off : Nat) : Option Word :=
  if 0x988000 ≤ off && off < 0x98C000 then some (wordOf (Tbl.getN (fun _ => 0) s.inboxCur (off - 0x988000) 4))
  else if 0x98C000 ≤ off && off < 0x990000 then some (wordOf (Tbl.getN (fun _ => 0) s.inboxPrev (off - 0x98C000) 4))
  else none

/-- A read of a check-value unit's value or result waits for the unit (R409). -/
def State.readWait (s : State) (off : Nat) : State :=
  if off / 0x10000 ≠ 8 then s
  else match instOf R.CVU_VALUE 16 off, instOf R.CVU_RESULT 16 off with
    | some n, _ => s.cvuDrain n
    | none, some n => s.cvuDrain n
    | none, none => s

/-- An aligned 32-bit read of register offset `off` by master `m`: `none` is a bus error (R2). -/
def State.regRead (s : State) (m off : Nat) : State × Option Word :=
  match s.inboxAt off with
  | some w => (s, some w)
  | none =>
    match rowAt off with
    | none => (s, none)
    | some _ =>
      if latchedAt off then (s, some (s.getLatch m off))
      else
        match instOf R.ICTL_CLAIM 9 off, instOf R.MGMT_UART_RX 2 off with
        | some t, _ => let r := s.claim t m; (r.1, some (BitVec.ofNat 32 r.2))
        | none, some u => let r := s.uartRx u; (r.1, some r.2)
        | none, none =>
          let s := s.readWait off
          let n := latchWords off
          let t := if 1 ≤ n then s.setLatch m (off + 4) (s.viewAt (off + 4)) else s
          let t := if 2 ≤ n then t.setLatch m (off + 8) (s.viewAt (off + 8)) else t
          (t, some (s.viewAt off))

/-! ### Writes, block by block -/

def writePwr (off : Nat) (a : Admit) : State :=
  if off = R.PWR_STATE then State.pwrStateWrite a
  else if off = R.PWR_DVFS then State.dvfsWrite a
  else if off = R.PWR_DDR_RESUME then State.ddrResume a
  else if off = R.PWR_LOCK then State.stickyLock a R.PWR_LOCK F.PWR_LOCK_LOCK
  else if off = R.PWR_DIP_CNT then a.st.setReg off 0
  else a.plain off

def writeTime (off : Nat) (a : Admit) : State :=
  if off = R.TIME_CTRL then State.timeCtrl a
  else if off = R.TIME_RATE then State.rateWrite a
  else if off = R.TIME_STEP_CTL then State.stepCtl a
  else if off = R.TIME_LOAD then State.timeLoad a
  else if off = R.TIME_PPS_CTL then State.ppsCtl a
  else if off = R.TIME_TS_POP then State.tsPop a
  else a.plain off

def writeTick (off : Nat) (a : Admit) : State :=
  if off = R.TICK_CTRL then State.tickCtrl a
  else if off = R.TICK_RATE then State.tickRate a
  else if R.TICK_EPOCH_0 ≤ off && off ≤ R.TICK_EPOCH_2 then State.tickEpoch off a
  else
    ((onInst R.TICK_HPHASE 32 off fun h => State.hphase h a)
      <|> (onInst R.TICK_SQ_CTL 4 off fun k => State.sqCtl k a)
      <|> (onInst R.TICK_SQ_HEADS 4 off fun k => State.sqOwn k 0 a)
      <|> (onInst R.TICK_SQ_LP 4 off fun k => State.sqOwn k 1 a)
      <|> (onInst R.TICK_SQ_DESC 4 off fun k => State.sqOwn k 2 a)
      <|> (onInst R.TICK_SQ_FAULT 4 off fun k => State.sqFaultClear k a)).getD (a.plain off)

def writeIctl (m off : Nat) (a : Admit) : State :=
  if off = R.ICTL_SWI_SET then State.swiSet a
  else
    ((onInst R.ICTL_DONE 9 off fun t => State.endService t m a)
      <|> (onInst R.ICTL_WDOG_CTL 8 off fun c => State.wdogCtl c a)).getD (a.plain off)

def writeKeep (off : Nat) (a : Admit) : State :=
  if off = R.KEEP_RESET then State.keepReset a
  else if off = R.KEEP_WDOG_CTL then State.stickyLock a R.KEEP_WDOG_CTL F.KEEP_WDOG_CTL_LOCK
  else if off = R.KEEP_WDOG_KICK then State.keepKick a
  else if off = R.KEEP_APP_RELEASE then State.appRelease a
  else if off = R.KEEP_FUSE_BURN then State.fuseBurn a
  else a.plain off

def writeLog (m off : Nat) (a : Admit) : State :=
  if off = R.LOG_CTL then State.logCtl a
  else if off = R.LOG_SUBMIT then a.st.logSubmit m a.w
  else if off = R.LOG_SPILL_CTL then State.logSpillCtl a
  else if off = R.LOG_SPILL_LO || off = R.LOG_SPILL_HI then State.logSpillAddr off a
  else if off = R.LOG_LOST || off = R.LOG_SPILL_MISS then a.st.setReg off 0
  else a.plain off

def writeTele (off : Nat) (a : Admit) : State :=
  ((onInst R.TELE_SEL 256 off fun i => State.teleSel i a)
    <|> (onInst R.TELE_HSEL 16 off fun k => State.teleHsel k a)).getD (State.teleCfg off a)

def writeCvu (off : Nat) (a : Admit) : State :=
  ((onInst R.CVU_CTL 16 off fun n => State.cvuCtl n a)
    <|> (onInst R.CVU_FEED_B 16 off fun n => a.st.cvuFeed n off 1 a.w)
    <|> (onInst R.CVU_FEED_H 16 off fun n => a.st.cvuFeed n off 2 a.w)
    <|> (onInst R.CVU_FEED_W 16 off fun n => a.st.cvuFeed n off 4 a.w)
    <|> (onInst R.CVU_VALUE 16 off fun n => State.cvuValue n a)
    <|> (onInst R.CVU_EXPECT 16 off fun n => State.cvuExpect n a)
    <|> (onInst R.CVU_CMP 16 off fun n => State.cvuCmp n a)
    <|> (onInst R.CVU_STAT 16 off fun n => State.cvuClear n a)).getD (a.plain off)

def writeMpu (m off : Nat) (a : Admit) : State :=
  if off = R.MPU_MAINT then State.mpuMaint a
  else if off = R.MPU_NOTICE_CNT then a.st.setReg off 0
  else (onInst R.MPU_EPOCH 77 off fun u => State.mpuApply m u a).getD (a.plain off)

def writeDdr (off : Nat) (a : Admit) : State :=
  let c := off / 0x10000 - 0x10
  if off = R.DDR_GCTL then State.ddrGctl a
  else if off = R.DDR_FC_CTL then State.fcCtl a
  else if off = R.DDR_FC_STAT || off = R.DDR_TOP then a.plain off
  else if off = R.DDR_CTL c then State.ddrCtl c a
  else if off = R.DDR_TRN_CTL c then State.trnCtl c a
  else State.ddrCfg c off a

def writeEcc (off : Nat) (a : Admit) : State := if off = R.ECC_DIAG_CTL then State.diagCtl a else State.eccCfg off a
def writeChurn (off : Nat) (a : Admit) : State := if off = R.CHURN_CTL then State.churnCtl a else State.churnCfg off a

def writeDec (off : Nat) (a : Admit) : State :=
  let n := off / 0x10000 - 0x20
  let p := off % 0x10000
  let i := 8 * n + (p - 0x1000) / 0x100
  if p < 0x1000 then (if p = 0 then State.decEngCtl n a else a.plain off)
  else if off = R.DEC_CTX_CTL i then State.decCtxCtl i a
  else if off = R.DEC_CTX_STATUS i || off = R.DEC_CTX_ERR i then a.plain off
  else State.decCfg i off a

def writeEnc (off : Nat) (a : Admit) : State :=
  let n := off / 0x10000 - 0x30
  let p := off % 0x10000
  let i := 4 * n + (p - 0x1000) / 0x100
  if p < 0x1000 then (if p = 0 then State.encEngCtl n a else a.plain off)
  else if off = R.ENC_CTX_CTL i then State.encCtxCtl i a
  else if off = R.ENC_CTX_STATUS i || off = R.ENC_CTX_ERR i then a.plain off
  else if off = R.ENC_CTX_OUT_RD i then State.encOutRd i a
  else State.encCfg i off a

def writeComp (off : Nat) (a : Admit) : State :=
  if 0x400400 ≤ off && off < 0x400700 then
    let j := (off - 0x400400) / 0x20
    if off = R.COMP_IN_CTL j then State.inCtl j a else State.inCfg j off a
  else if 0x403000 ≤ off && off < 0x403200 then
    let w := (off - 0x403000) / 0x40
    if off = R.COMP_WB_CTL w then State.wbCtl w a
    else if off < R.COMP_WB_ERR w then State.wbCfg w off a
    else a.plain off
  else a.plain off

def writeScl (off : Nat) (a : Admit) : State :=
  if 0x411000 ≤ off && off < 0x411800 then State.sclCoef ((off - 0x411000) / 0x400) off a
  else if 0x412000 ≤ off && off < 0x412400 then State.sclCoef ((off - 0x412000) / 0x200) off a
  else a.plain off

def writeHead (off : Nat) (a : Admit) : State :=
  let h := off / 0x10000 - 0x50
  if off = R.HEAD_CTL h then State.headCtl h a
  else if off = R.HEAD_COMMIT h then State.headCommit h a
  else a.plain off

def writeLink (off : Nat) (a : Admit) : State :=
  let q := off / 0x10000 - 0x80
  if off = R.BL_CTRL q then State.blCtrl q a
  else if off = R.BL_TXQ_CMD q then State.txqCmd q a
  else if off = R.BL_HEADMAP q then State.headMap q a
  else if off = R.BL_TEST_CTL q then State.testCtl q a
  else if off = R.BL_TEST_INJ q then State.testInj q a
  else if off = R.BL_EYE_CTL q then State.eyeCtl q a
  else a.plain off

def writeStep (off : Nat) (a : Admit) : State :=
  if off = R.STEP_CTL then State.stepCtlReg a
  else if off = R.STEP_HB then State.stepHb a
  else if off = R.STEP_SWAP_LO || off = R.STEP_SWAP_HI then State.stepSwap off a
  else if off = R.STEP_SNAP_CTL then State.snapCtl a
  else if off = R.STEP_CNT_MISMATCH || off = R.STEP_CNT_AGREE_MISS then a.st.setReg off 0
  else if (R.STEP_SNAP_LIST_LO ≤ off && off ≤ R.STEP_SNAP_TICK_HI) || off = R.STEP_SNAP_RTICK_LO || off = R.STEP_SNAP_RTICK_HI then State.stepGuard off a
  else (onInst R.STEP_JOIN 4 off fun k => State.stepJoin k a).getD (a.plain off)

def writeTouch (off : Nat) (a : Admit) : State :=
  if off = R.TOUCH_CTL then State.touchCtl a
  else if off = R.TOUCH_CFG || off = R.TOUCH_PIN_EN_LO || off = R.TOUCH_PIN_EN_HI then State.touchCfg off a
  else if 0xA01000 ≤ off && off < 0xA02000 then State.touchBaseReg ((off - 0xA01000) / 4) a
  else a.plain off

def writeMgmt (off : Nat) (a : Admit) : State :=
  if off = R.MGMT_XSPI_CMD then State.xspiCmd a
  else
    ((onInst R.MGMT_I2C_CTL 4 off fun k => State.i2cCtl k a)
      <|> (onInst R.MGMT_UART_CFG 2 off fun u => State.uartCfg u a)
      <|> (onInst R.MGMT_UART_TX 2 off fun u => State.uartTx u a)).getD (State.mgmtCfg off a)

/-- The function of an admitted write to the register at `off` (R3 where the register describes none). -/
def writeFn (m off : Nat) (a : Admit) : State :=
  let b := off / 0x10000
  if b = 0x01 then writePwr off a
  else if b = 0x02 then writeTime off a
  else if b = 0x03 then writeTick off a
  else if b = 0x04 then writeIctl m off a
  else if b = 0x05 then writeKeep off a
  else if b = 0x06 then writeLog m off a
  else if b = 0x07 then writeTele off a
  else if b = 0x08 then writeCvu off a
  else if b = 0x09 then writeMpu m off a
  else if 0x10 ≤ b && b < 0x18 then writeDdr off a
  else if b = 0x18 then writeEcc off a
  else if b = 0x19 then writeChurn off a
  else if 0x20 ≤ b && b < 0x30 then writeDec off a
  else if 0x30 ≤ b && b < 0x38 then writeEnc off a
  else if b = 0x40 then writeComp off a
  else if b = 0x41 then writeScl off a
  else if 0x50 ≤ b && b < 0x70 then writeHead off a
  else if b = 0x70 then (if off = R.FG_LOCK then State.stickyLock a R.FG_LOCK F.FG_LOCK_LOCK else a.plain off)
  else if 0x80 ≤ b && b < 0x98 then writeLink off a
  else if b = 0x98 then writeStep off a
  else if b = 0xA0 then writeTouch off a
  else if b = 0xB0 then writeMgmt off a
  else a.plain off

/-- An aligned 32-bit write of `w` to register offset `off` by master `m`; the inbox windows hold no register that takes one. -/
def State.regWrite (s : State) (m off w : Nat) : State × WrEnd :=
  match s.inboxAt off, rowAt off with
  | none, some _ =>
    let a := s.accept m off w (writeFn m off)
    (writeFn m off a, if a.refused then .refused else .done)
  | _, _ => (s, .bus)

/-! ### Commands -/

def WrEnd.resp : WrEnd → Resp
  | .done => .ok
  | .bus => .busError
  | .refused => .refused

/-- REG_WRITE (R549). A write of APPLY completes later (R391). -/
def execRegWrite (m : Mst) (off : BitVec 24) (w : Word) (s : State) : Out :=
  .next <| s.ifRun fun s =>
    let r := s.regWrite m.toNat off.toNat w.toNat
    { r.1 with resp := if s.applies.length < r.1.applies.length then .stalled else r.2.resp }

/-- TIME_TRIPLE_READ (R28): a read of a register that latches those above it. -/
def execTimeTripleRead (m : Mst) (off : BitVec 24) (s : State) : Out :=
  .next <| s.ifRun fun s =>
    match s.regRead m.toNat off.toNat with
    | (t, some v) => { t with resp := .value v.toNat }
    | (t, none) => { t with resp := .busError }

/-! ### The debug master (R545) -/

/-- The fields of a DEBUG request, and their outcome bits. -/
def dbgAddr (r : Nat) : Nat := r / 2 ^ 256 % 2 ^ 48
def dbgSize (r : Nat) : Nat := r / 2 ^ 304 % 4
def dbgBytes (r : Nat) : Nat := if dbgSize r = 0 then 4 else if dbgSize r = 1 then 8 else 32
def dbgWrites (r : Nat) : Bool := r / 2 ^ 306 % 2 == 1
def dbgOut (err poison refused : Bool) (d : Nat) : Nat :=
  2 ^ 308 + err.toNat * 2 ^ 309 + poison.toNat * 2 ^ 310 + refused.toNat * 2 ^ 311 + d

def dbgWrEnd : WrEnd → Nat
  | .done => dbgOut false false false 0
  | .bus => dbgOut true false false 0
  | .refused => dbgOut false false true 0

/-- DEBUG_ACCESS: Update-DR while the port is attached and no access is under way. -/
def execDebugAccess (dr : BitVec 312) (s : State) : Out :=
  .next <| s.ifTap fun s =>
    if s.tap.ir ≠ 0x20 || s.tap.req.isSome then s
    else { s with tap := { s.tap with req := some (dr.toNat % 2 ^ 308), out := 0 } }

/-- The access itself, as master 0x7F: state and outcome. -/
def State.dbgAccess (s : State) (r : Nat) : State × Nat :=
  let a := dbgAddr r
  let n := dbgBytes r
  let d := leBytes n (r % 2 ^ 256)
  if dbgSize r = 3 || a % n ≠ 0 then (s, dbgOut true false false 0)
  else if s.region a = .reg then
    if n ≠ 4 then (s, dbgOut true false false 0)
    else if dbgWrites r then
      let w := s.regWrite 0x7F (a - 0x5000000000) (leNat d)
      (w.1, dbgWrEnd w.2)
    else
      match s.regRead 0x7F (a - 0x5000000000) with
      | (t, some v) => (t, dbgOut false false false v.toNat)
      | (t, none) => (t, dbgOut true false false 0)
  else if dbgWrites r then
    let w := s.write 0x7F a d false false
    (w.1, dbgWrEnd w.2)
  else
    let x := s.read 0x7F a n
    if x.bus then (x.st, dbgOut true false false 0)
    else (if x.poisoned then x.st.poisonRec 0x7F a 8 else x.st, dbgOut false x.poisoned false (leNat x.data))

/-- DEBUG_ACCESS_DONE: the outcome that Capture-DR returns. A read waits for the flash (R527) or for a frequency change
(R355). -/
def execDebugAccessDone (s : State) : Out :=
  .next <| s.ifTap fun s =>
    match s.tap.req with
    | none => s
    | some r =>
      if s.pwr.phase ≠ .run then
        { s with tap := { s.tap with req := none, out := dbgOut true false false 0 }, resp := .bytes (leBytes 39 (dbgOut true false false 0)) }
      else if s.waits (s.region (dbgAddr r)) && !dbgWrites r then s
      else
        let p := s.dbgAccess r
        { p.1 with tap := { p.1.tap with req := none, out := p.2 }, resp := .bytes (leBytes 39 p.2) }

end Sys2Proof.Machine
end

