-- ==== Sys2Proof/Machine/Loads.lean ====
section
/-!
DEFINITION. Loads, stores and CACHE (R65 to R71, R77, R78, R83, R86, R379, R386, R395), and the load that waits for the boot
flash (R527).
Readings and choices beyond the spec's plain words: log entries 23, 24, 25 and 26.
-/
namespace Sys2Proof.Machine

/-! ### Loads -/

/-- `n` bytes at `a` as a load of core `c` gets them, or the exception it meets, in the order of R83. -/
def State.coreLoad (s : State) (c a n : Nat) : State × Except Nat (List Byte) :=
  if a % n ≠ 0 then (s, .error 8)
  else if s.region a = .reg then
    let off := a - 0x5000000000
    if (s.core c).user && !(off / 0x10000 == 0x07 && s.bit F.TELE_CTL_USER) then (s, .error 9)
    else if n ≠ 4 then (s, .error 12)
    else match s.regRead c off with
      | (t, some v) => (t, .ok (leBytes 4 v.toNat))
      | (t, none) => (t, .error 12)
  else
    let s := s.drainOver c a n
    if s.region a = .dram && isA c then s.cachedBytes c a n else s.bytesAt c a n 0

/-- The registers after a load: one register, sign- or zero-extended, or a group of four (R65). -/
def CoreSt.loaded (x : CoreSt) (rd n : Nat) (signed : Bool) (d : List Byte) : CoreSt :=
  if n = 32 then x.setGroup rd d
  else x.setRg rd (BitVec.ofInt 64 (if signed then sext (8 * n) (leNat d) else (leNat d : Int)))

/-- A load of core `c` performed now. -/
def State.loadFx (s : State) (c rd n : Nat) (signed : Bool) (a : DWord) : Fx :=
  let p := s.coreLoad c a.toNat n
  match p.2 with
  | .error e => .raise p.1 e a
  | .ok d => .done (p.1.setCore c ((p.1.core c).loaded rd n signed d))

/-- An access of a core that waits for DRAM (R355). A T core's is an instruction in progress, which a stop lets complete (R48, R100); any
other core's has not begun. -/
def State.dramHold (s : State) (c : Nat) (x : CoreSt) (l : XipLoad) : Fx := .hold (if isT c then s.setCore c { x with xip := some l } else s)

/-- A load instruction: a read of the execute-in-place window waits while the flash works (R527), one of DRAM while a frequency change
runs (R355). -/
def State.load (s : State) (c : Fin 13) (pf : BitVec 4) (op : Nat) (rd ra : BitVec 5) (imm : BitVec 12) (n : Nat) (signed : Bool) : State :=
  s.instr c.val pf (wordI pf op rd.toNat ra.toNat imm) (n ≠ 32 || rd.toNat % 4 = 0) fun s x =>
    let a := effAddr (x.rg ra.toNat) imm
    if s.region a.toNat = .xspi && s.pwr.xop.isSome && a.toNat % n = 0 then
      let run : RunSt := if isT c.val then x.run else .xip
      .hold (s.setCore c.val { x with run := run, xip := some ⟨rd.toNat, n, signed, a.toNat, x.pc, false, none⟩ })
    else if a.toNat % n = 0 && s.accessWaits c.val a.toNat n then s.dramHold c.val x ⟨rd.toNat, n, signed, a.toNat, x.pc, false, none⟩
    else s.loadFx c.val rd.toNat n signed a

def execLb (c : Fin 13) (pf : BitVec 4) (rd ra : BitVec 5) (imm : BitVec 12) (s : State) : Out := .next (s.load c pf 0x08 rd ra imm 1 true)
def execLbu (c : Fin 13) (pf : BitVec 4) (rd ra : BitVec 5) (imm : BitVec 12) (s : State) : Out := .next (s.load c pf 0x09 rd ra imm 1 false)
def execLh (c : Fin 13) (pf : BitVec 4) (rd ra : BitVec 5) (imm : BitVec 12) (s : State) : Out := .next (s.load c pf 0x0A rd ra imm 2 true)
def execLhu (c : Fin 13) (pf : BitVec 4) (rd ra : BitVec 5) (imm : BitVec 12) (s : State) : Out := .next (s.load c pf 0x0B rd ra imm 2 false)
def execLw (c : Fin 13) (pf : BitVec 4) (rd ra : BitVec 5) (imm : BitVec 12) (s : State) : Out := .next (s.load c pf 0x0C rd ra imm 4 true)
def execLwu (c : Fin 13) (pf : BitVec 4) (rd ra : BitVec 5) (imm : BitVec 12) (s : State) : Out := .next (s.load c pf 0x0D rd ra imm 4 false)
def execLd (c : Fin 13) (pf : BitVec 4) (rd ra : BitVec 5) (imm : BitVec 12) (s : State) : Out := .next (s.load c pf 0x0E rd ra imm 8 true)
def execLdq (c : Fin 13) (pf : BitVec 4) (rd ra : BitVec 5) (imm : BitVec 12) (s : State) : Out := .next (s.load c pf 0x0F rd ra imm 32 false)

/-- How a write that core `c` waits for ends, as an effect: `t` is the state after it. -/
def WrEnd.fx (t : State) (a : DWord) : WrEnd → Fx
  | .done => .done t
  | .bus => .raise t 12 a
  | .refused => .raise t 11 a

/-- The access that waits is performed on what memory holds now; a store was checked when it was issued. It completes although its core
was stopped at an instruction boundary meanwhile (R48, R100), where a sequencer may have been given another pc; a core held in reset
drops it. -/
def State.xipResume (s : State) (c : Nat) (x : CoreSt) (l : XipLoad) : State :=
  if !isT c && x.run = .held then s.setCore c { x with xip := none }
  else
    let run : RunSt := if x.run = .xip then .running else x.run
    let t := s.setCore c { x with run := run, xip := none }
    let a := BitVec.ofNat 64 l.addr
    match (match l.data with
      | some d => let w := t.land c l.addr d false; w.2.fx w.1 a
      | none => t.loadFx c l.rd l.width l.signed a) with
    | .done t => t.retire c (if l.moved then x.pc else x.pc + 4)
    | .raise t cause val => (t.setCore c { t.core c with pc := l.pc }).raise c cause val
    | .jump t pc => t.retire c pc
    | .hold t => t
/-- XIP_READ_RESUME (R527). -/
def execXipReadResume (m : Mst) (s : State) : Out :=
  .next <| s.ifRun fun s =>
    let c := m.toNat
    match (s.core c).xip with
    | some l => if s.pwr.xop.isSome || s.waits (s.region l.addr) then s else s.xipResume c (s.core c) l
    | none => s

/-! ### Stores -/

/-- A store of core `c` to register space. A store that resets the core, or ends its power state, does not retire there. -/
def State.regStore (s : State) (c : Nat) (x : CoreSt) (a : DWord) (d : List Byte) : Fx :=
  if d.length ≠ 4 then .raise s 12 a
  else
    let w := s.regWrite c (a.toNat - 0x5000000000) (leNat d)
    if w.1.pwr.phase ≠ .run || (w.1.core c).pc ≠ x.pc || (w.1.core c).g ≠ x.g then .hold w.1 else w.2.fx w.1 a

/-- A store that is checked before it retires (R86, R386), in DRAM whole code words only (R67), where it waits for a frequency change to
end (R72, R355). -/
def State.preciseStore (s : State) (c : Nat) (x : CoreSt) (a : DWord) (d : List Byte) : Fx :=
  match s.preciseCheck c a with
  | some f => f
  | none =>
    if s.dramWaits c a.toNat && a.toNat % 32 = 0 && d.length % 32 = 0 then
      s.dramHold c x ⟨0, d.length, false, a.toNat, x.pc, false, some d⟩
    else let w := s.land c a.toNat d false; w.2.fx w.1 a

/-- A store of `d` by core `c`; those of A cores to normal memory wait for their check (R86). -/
def State.storeFx (s : State) (c : Nat) (x : CoreSt) (a : DWord) (d : List Byte) : Fx :=
  let r := s.region a.toNat
  if a.toNat % d.length ≠ 0 then .raise s 8 a
  else if r = .reg then (if x.user then .raise s 9 a else s.regStore c x a d)
  else if !isA c || r = .logb || r = .none then s.preciseStore c x a d
  else if r = .dram && s.retired a.toNat then .raise (s.noteRetired c a.toNat) 12 a
  else .done (s.setCore c { x with stores := x.stores ++ [⟨a.toNat, d⟩] })

def State.store (s : State) (c : Fin 13) (pf : BitVec 4) (op : Nat) (rs ra : BitVec 5) (imm : BitVec 12) (n : Nat) : State :=
  s.instr c.val pf (wordI pf op rs.toNat ra.toNat imm) (n ≠ 32 || rs.toNat % 4 = 0) fun s x =>
    s.storeFx c.val x (effAddr (x.rg ra.toNat) imm) (if n = 32 then x.group rs.toNat else leBytes n (x.rg rs.toNat).toNat)

def execSb (c : Fin 13) (pf : BitVec 4) (rs ra : BitVec 5) (imm : BitVec 12) (s : State) : Out := .next (s.store c pf 0x10 rs ra imm 1)
def execSh (c : Fin 13) (pf : BitVec 4) (rs ra : BitVec 5) (imm : BitVec 12) (s : State) : Out := .next (s.store c pf 0x11 rs ra imm 2)
def execSw (c : Fin 13) (pf : BitVec 4) (rs ra : BitVec 5) (imm : BitVec 12) (s : State) : Out := .next (s.store c pf 0x12 rs ra imm 4)
def execSd (c : Fin 13) (pf : BitVec 4) (rs ra : BitVec 5) (imm : BitVec 12) (s : State) : Out := .next (s.store c pf 0x13 rs ra imm 8)
def execStq (c : Fin 13) (pf : BitVec 4) (rs ra : BitVec 5) (imm : BitVec 12) (s : State) : Out := .next (s.store c pf 0x14 rs ra imm 32)

/-! ### CACHE -/

/-- A cache operation of an A core on a line of DRAM, or of the execute-in-place window, whose lines are never held dirty. `check`
tells that write protection checks it as a store to the whole line (R77); `f` acts on the line. One that `cleans` waits to write a dirty
line back while a frequency change runs (R355). -/
def State.lineOp (s : State) (c : Nat) (a : DWord) (check cleans : Bool) (f : State → Nat → State) : Fx :=
  let b := a.toNat / 64 * 64
  let r := s.region a.toNat
  if !isA c || (r ≠ .dram && r ≠ .xspi) then .done s
  else match (if check then s.preciseCheck c (BitVec.ofNat 64 b) else none) with
    | some e => e
    | none =>
      if r = .dram && s.retired b then .raise (s.noteRetired c b) 12 a
      else if r = .dram then
        if (s.storeOver c b 64 && s.storesWait c) || (cleans && s.waits r && (s.lineAt b).isSome) then .hold s
        else .done (f (s.drainOver c b 64) b)
      else .done s

/-- CACHE ZERO on `a` (R71, R77): checked before it retires. It waits where another line would have to be written back for it during a
frequency change (R355). -/
def State.zeroFx (s : State) (c : Nat) (x : CoreSt) (a : DWord) : Fx :=
  let b := a.toNat / 64 * 64
  let z := List.replicate 64 0
  let r := s.region a.toNat
  if x.user && r = .reg then .raise s 9 a
  else if r = .reg || r = .logb then .raise s 10 a
  else if r = .dram && isA c then
    match s.preciseCheck c (BitVec.ofNat 64 b) with
    | some e => e
    | none =>
      if s.retired b then .raise (s.noteRetired c b) 12 a
      else
        let line (s : State) : Line := ((s.lineAt b).getD ⟨b, z, false, false, []⟩).store c b z
        if (s.storeOver c b 64 && s.storesWait c) || (s.waits r && linesOverflow (s.linesWith (line s))) then .hold s
        else
          let s := s.drainOver c b 64
          .done (s.putLine (line s))
  else (if isA c then s.drainOver c b 64 else s).preciseStore c x (BitVec.ofNat 64 b) z

/-- The CACHE instruction with its operation in the rd field; `priv` where only S mode may use it. -/
def State.cacheOp (s : State) (c : Fin 13) (pf : BitVec 4) (op : Nat) (ra : BitVec 5) (imm : BitVec 12) (priv : Bool)
    (f : State → CoreSt → DWord → Fx) : State :=
  let word := wordI pf 0x29 op ra.toNat imm
  s.instr c.val pf word true fun s x =>
    if priv && x.user then .raise s 5 (BitVec.ofNat 64 word) else f s x (effAddr (x.rg ra.toNat) imm)

/-- A line is discarded, dirty or not. -/
def State.dropLine (s : State) (b : Nat) : State := { s with lines := s.lines.filter (fun l => l.base != b) }

def execCacheClean (c : Fin 13) (pf : BitVec 4) (ra : BitVec 5) (imm : BitVec 12) (s : State) : Out :=
  .next (s.cacheOp c pf 0 ra imm false fun s _ a => s.lineOp c.val a false true State.spillLine)
def execCacheInval (c : Fin 13) (pf : BitVec 4) (ra : BitVec 5) (imm : BitVec 12) (s : State) : Out :=
  .next (s.cacheOp c pf 1 ra imm true fun s _ a => s.lineOp c.val a true false State.dropLine)
def execCacheCleaninv (c : Fin 13) (pf : BitVec 4) (ra : BitVec 5) (imm : BitVec 12) (s : State) : Out :=
  .next (s.cacheOp c pf 2 ra imm false fun s _ a => s.lineOp c.val a true true State.spillLine)
def execCacheZero (c : Fin 13) (pf : BitVec 4) (ra : BitVec 5) (imm : BitVec 12) (s : State) : Out :=
  .next (s.cacheOp c pf 3 ra imm false fun s x a => s.zeroFx c.val x a)
/-- Instruction caches hold nothing that memory does not. -/
def execCacheIinval (c : Fin 13) (pf : BitVec 4) (ra : BitVec 5) (imm : BitVec 12) (s : State) : Out :=
  .next (s.cacheOp c pf 4 ra imm true fun s _ a => s.lineOp c.val a false false fun s _ => s)

end Sys2Proof.Machine
end

