-- ==== Sys2Proof/Machine/Pins.lean ====
section
/-!
DEFINITION. The balls of the package that software or a test reaches (R474, R530), the levels the device drives on them, and the boundary
register over them (R543, R544).
Readings and choices beyond the spec's plain words: log entries 70 and 73.
-/
namespace Sys2Proof.Machine

/-- A ball with cells in the boundary register. -/
inductive Ball where
  | pairSel
  | role (i : Nat)
  | ppsIn
  | hbOut
  | arbSck
  | arbMosi
  | arbCsN
  | arbMiso
  | xClk
  | xCsN
  | xDqs
  | xIo (i : Nat)
  | xResetN
  | scl (k : Nat)
  | sda (k : Nat)
  | uartTx (u : Nat)
  | uartRx (u : Nat)
  | gpio (g : Nat)
  | ts (i : Nat)
  deriving DecidableEq, Repr

/-- The level of a ball. -/
inductive Level where
  | low | high
  /-- High impedance, or released. -/
  | open
  deriving DecidableEq, Repr

def levelOf (b : Bool) : Level := if b then .high else .low

/-- HB_OUT: high for the width of the pulse of the tick in hand, from B(n) + 40 µs (R455). -/
def State.hbOut (s : State) : Level :=
  let t := s.tickB s.tickNo + 40000
  levelOf (decide (s.pair.pulse ≠ 0) && decide (t ≤ s.nowNs) && decide (s.nowNs < t + 1000 * s.pair.pulse))
/-- TSi (R474): a pin that the mode does not use, or of a chip that does not drive its pins, is at high impedance; between measurements a
used one is low. -/
def State.tsLevel (s : State) (i : Nat) : Option Level :=
  if !s.touch.driving || !s.tUsed i then some .open
  else if s.touch.scan || s.bit F.TOUCH_STATUS_TEST_BUSY then none
  else some .low

/-- What the device itself puts on a ball (R530); none for an input, and where the spec gives no level because a transfer is under way. In a
reset of the core domain a ball has the state that R507 and R530 give it there. -/
def State.drives (s : State) (b : Ball) : Option Level :=
  if s.pwr.phase ≠ .run then
    match b with
    | .hbOut | .xClk | .xResetN => some .low
    | .xCsN => some .high
    | .arbMiso | .xIo _ | .scl _ | .sda _ | .uartTx _ | .gpio _ | .ts _ => some .open
    | .pairSel | .role _ | .ppsIn | .arbSck | .arbMosi | .arbCsN | .xDqs | .uartRx _ => none
  else
    match b with
    | .hbOut => some s.hbOut
    | .arbMiso => some .open
    | .xClk => if s.pwr.xop.isSome then none else some .low
    | .xCsN => if s.pwr.xop.isSome then none else some .high
    | .xIo _ => if s.pwr.xop.isSome then none else some .open
    | .xResetN => some (levelOf (decide (s.pwr.released + 5000 ≤ s.time.clk)))
    | .scl k | .sda k => if s.bit (F.MGMT_I2C_STAT_BUSY k) then none else some .open
    | .uartTx u =>
      if !s.bit (F.MGMT_UART_CFG_EN u) then some .open else if (s.uart u).tx.isEmpty then some .high else none
    | .gpio g => some (if s.bitAt F.MGMT_GPIO_OE_OE g then levelOf (s.bitAt F.MGMT_GPIO_OUT_OUT g) else .open)
    | .ts i => s.tsLevel i
    | .pairSel | .role _ | .ppsIn | .arbSck | .arbMosi | .arbCsN | .xDqs | .uartRx _ => none

/-- The level that the board holds on an input, where State has it. -/
def State.boardHolds (s : State) (b : Ball) : Option Bool :=
  match b with
  | .pairSel => some s.pwr.pairSel
  | .role i => some (s.pwr.rolePins / 2 ^ i % 2 == 1)
  | .ppsIn => some s.time.ppsLevel
  | .gpio g => some (s.gpio.toNat / 2 ^ g % 2 == 1)
  | _ => none

/-! ### The boundary register (R543, R544) -/

inductive CellKind where
  | input | output | control
  deriving DecidableEq, Repr

def inCell (b : Ball) : List (Ball × CellKind) := [(b, .input)]
def outCells (b : Ball) : List (Ball × CellKind) := [(b, .output), (b, .control)]
def ioCells (b : Ball) : List (Ball × CellKind) := (b, .input) :: outCells b

/-- The 312 cells, bit 0 first: the balls in the order of R530's table, a bus in ascending order. -/
def boundaryCells : List (Ball × CellKind) :=
  inCell .pairSel ++ inCell (.role 0) ++ inCell (.role 1) ++ inCell .ppsIn ++ outCells .hbOut ++
    inCell .arbSck ++ inCell .arbMosi ++ inCell .arbCsN ++ outCells .arbMiso ++
    outCells .xClk ++ outCells .xCsN ++ inCell .xDqs ++ (List.range 8).flatMap (fun i => ioCells (.xIo i)) ++ outCells .xResetN ++
    (List.range 4).flatMap (fun k => ioCells (.scl k) ++ ioCells (.sda k)) ++
    (List.range 2).flatMap (fun u => outCells (.uartTx u) ++ inCell (.uartRx u)) ++
    (List.range 32).flatMap (fun g => ioCells (.gpio g)) ++ (List.range 48).flatMap (fun i => ioCells (.ts i))

/-- The bit of a cell in a boundary-register value. -/
def cellBit (v : Nat) (c : Ball × CellKind) : Bool := v / 2 ^ (boundaryCells.idxOf c) % 2 == 1
/-- What is on the device's side of a ball: in EXTEST the boundary register drives it (R543). -/
def State.onBall (s : State) (b : Ball) : Option Level :=
  if s.tap.ir = 0 && boundaryCells.contains (b, .output) then
    some (if cellBit s.tap.bsr (b, .control) then levelOf (cellBit s.tap.bsr (b, .output)) else .open)
  else s.drives b
/-- What cell `c` samples: the level on a ball, what the device drives there, and whether it drives. `ext` is the level that the test sees on a
ball whose level State does not give. -/
def State.sampled (s : State) (c : Ball × CellKind) (ext : Bool) : Bool :=
  match c.2 with
  | .input => match s.onBall c.1 with
    | some .low => false
    | some .high => true
    | _ => (s.boardHolds c.1).getD ext
  | .output => match s.drives c.1 with
    | some .low => false
    | some .high => true
    | _ => ext
  | .control => match s.drives c.1 with
    | some .open => false
    | some _ => true
    | none => ext
/-- The capture of the boundary register. -/
def State.boundaryCapture (s : State) (ext : Nat) : Nat :=
  (boundaryCells.zip (List.range 312)).foldl (fun v p => v + (s.sampled p.1 (ext / 2 ^ p.2 % 2 == 1)).toNat * 2 ^ p.2) 0

/-- A scan of the boundary register: the levels captured are shifted out, and `shift` stays in the register. -/
def State.boundaryScan (s : State) (ir : Nat) (levels shift : BitVec 312) : State :=
  { s with tap := { s.tap with ir := ir, bsr := shift.toNat }, resp := .bytes (leBytes 39 (s.boundaryCapture levels.toNat)) }
def execExtest (levels shift : BitVec 312) (s : State) : Out := .next (s.ifTap fun s => s.boundaryScan 0x00 levels shift)
def execSamplePreload (levels shift : BitVec 312) (s : State) : Out := .next (s.ifTap fun s => s.boundaryScan 0x01 levels shift)

end Sys2Proof.Machine
end

