-- ==== Sys2Proof/Machine/Resume.lean ====
section
/-!
DEFINITION. The end of a DRAM frequency change (R355): what every master waited for is done, in order.
Readings and choices beyond the spec's plain words: log entry 56.
-/
namespace Sys2Proof.Machine

/-- What a master asked of DRAM while the change ran is done. -/
def State.lateOp (s : State) : LateOp → State
  | .read m us => s.readUnits m .dram us
  | .diag op u d chk => s.diagRun op u d chk
  | .abort => s.churnStop
  | .txq q t sp a n => s.txqForm q t sp a n
  | .mark i k => s.markCompare i k
  | .snap q t rs => if s.bit F.STEP_SNAP_STAT_BUSY then s.snapSend q t rs else s

/-- The access to DRAM that core `c` waits for is performed. -/
def State.coreResume (s : State) (c : Nat) : State :=
  match (s.core c).xip with
  | some l => if s.region l.addr = .dram then s.xipResume c (s.core c) l else s
  | none => s

/-- Queued reads are served on every channel, then the reads and the writes that waited at their ports, then what waits behind them. -/
def State.resumeTraffic (s : State) : State :=
  let r := ddrChans.foldl (fun (p : State × List (Nat × Nat × List Byte × List Bool)) c =>
    State.serveReads c 0 (p.1.ddrCh c).rq.length p.1 p.2) (s, [])
  let late := r.1.fc.late
  let isRead (o : LateOp) : Bool := match o with
    | .read _ _ => true
    | _ => false
  let s := { r.1 with fc := { r.1.fc with late := [] } }
  let s := (late.filter isRead).foldl State.lateOp s
  let s := s.fc.writes.foldl (fun s w => (s.land w.m w.a w.d w.bad).1) s
  let s := { s with fc := { s.fc with writes := [] } }
  let s := (late.filter (fun o => !isRead o)).foldl State.lateOp s
  let s := (List.range 13).foldl State.coreResume s
  let s := (List.range 16).foldl State.decSched (ddrChans.foldl State.queueRoom s)
  { s with resp := .reads r.2 }

/-- DDR_FC_DONE (R355): the change ends `ns` after it began, 13 µs where nothing lengthens it. -/
def execDdrFcDone (ns : Nat) (s : State) : Out :=
  .next <| s.ifRun fun s =>
    if s.fc.stage ≠ .change then s
    else
      let s := s.advance (s.fc.clk + ceilDiv ns 2 - s.time.clk)
      let s := ddrChans.foldl (fun s c => s.updDdr c (fun ch => { ch with next := s.refNs + c * s.fld (F.DDR_REF_REFI_NS c) / 8 })) s
      let s := s.setFlds [(F.DDR_FC_STAT_BUSY, 0), (F.DDR_FC_STAT_PREP, 0), (F.DDR_FC_STAT_DONE, 1), (F.DDR_FC_STAT_DURATION, ceilDiv ns 1000)]
      ({ s with fc := { s.fc with stage := .idle } }).resumeTraffic

end Sys2Proof.Machine
end

