-- ==== Sys2Proof/Machine/Dispatch.lean ====
section
/-!
DEFINITION. exec: one arm per command, each a call of its meaning. The queue is step's alone.
-/
namespace Sys2Proof.Machine

def exec (i : Instr) (s : State) : Host.Outcome State Fault Refusal :=
  match i with
  | .regWrite m off w => Sys2Proof.Machine.execRegWrite m off w s
  | .timeTripleRead m off => Sys2Proof.Machine.execTimeTripleRead m off s
  | .xipReadResume m => Sys2Proof.Machine.execXipReadResume m s
  | .timeLoad m w => Sys2Proof.Machine.execTimeLoad m w s
  | .timeStepArm m frac => Sys2Proof.Machine.execTimeStepArm m frac s
  | .timeStepDisarm m frac => Sys2Proof.Machine.execTimeStepDisarm m frac s
  | .timeRateWrite m w => Sys2Proof.Machine.execTimeRateWrite m w s
  | .timeTrackWrite m w => Sys2Proof.Machine.execTimeTrackWrite m w s
  | .holdoverEnter => Sys2Proof.Machine.execHoldoverEnter s
  | .tsPop m w => Sys2Proof.Machine.execTsPop m w s
  | .timestamp k seq rpl seqId msgType interval orgSec orgNs orgValid => Sys2Proof.Machine.execTimestamp k seq rpl seqId msgType interval orgSec orgNs orgValid s
  | .ppsEdge wait => Sys2Proof.Machine.execPpsEdge wait s
  | .tickRateWrite m w => Sys2Proof.Machine.execTickRateWrite m w s
  | .tickEpochWrite m ix w => Sys2Proof.Machine.execTickEpochWrite m ix w s
  | .tickRunStart m w => Sys2Proof.Machine.execTickRunStart m w s
  | .tickRunStop m w => Sys2Proof.Machine.execTickRunStop m w s
  | .tickHphaseWrite m h v => Sys2Proof.Machine.execTickHphaseWrite m h v s
  | .tickBoundary => Sys2Proof.Machine.execTickBoundary s
  | .tickMidpoint => Sys2Proof.Machine.execTickMidpoint s
  | .agreeDeadline => Sys2Proof.Machine.execAgreeDeadline s
  | .inboxRelease => Sys2Proof.Machine.execInboxRelease s
  | .aluAdd c pf rd ra rb => Sys2Proof.Machine.execAluAdd c pf rd ra rb s
  | .aluSub c pf rd ra rb => Sys2Proof.Machine.execAluSub c pf rd ra rb s
  | .aluAnd c pf rd ra rb => Sys2Proof.Machine.execAluAnd c pf rd ra rb s
  | .aluOr c pf rd ra rb => Sys2Proof.Machine.execAluOr c pf rd ra rb s
  | .aluXor c pf rd ra rb => Sys2Proof.Machine.execAluXor c pf rd ra rb s
  | .aluAndn c pf rd ra rb => Sys2Proof.Machine.execAluAndn c pf rd ra rb s
  | .aluSll c pf rd ra rb => Sys2Proof.Machine.execAluSll c pf rd ra rb s
  | .aluSrl c pf rd ra rb => Sys2Proof.Machine.execAluSrl c pf rd ra rb s
  | .aluSra c pf rd ra rb => Sys2Proof.Machine.execAluSra c pf rd ra rb s
  | .aluRor c pf rd ra rb => Sys2Proof.Machine.execAluRor c pf rd ra rb s
  | .aluMul c pf rd ra rb => Sys2Proof.Machine.execAluMul c pf rd ra rb s
  | .aluMulh c pf rd ra rb => Sys2Proof.Machine.execAluMulh c pf rd ra rb s
  | .aluMulhu c pf rd ra rb => Sys2Proof.Machine.execAluMulhu c pf rd ra rb s
  | .aluDiv c pf rd ra rb => Sys2Proof.Machine.execAluDiv c pf rd ra rb s
  | .aluDivu c pf rd ra rb => Sys2Proof.Machine.execAluDivu c pf rd ra rb s
  | .aluRem c pf rd ra rb => Sys2Proof.Machine.execAluRem c pf rd ra rb s
  | .aluRemu c pf rd ra rb => Sys2Proof.Machine.execAluRemu c pf rd ra rb s
  | .aluMin c pf rd ra rb => Sys2Proof.Machine.execAluMin c pf rd ra rb s
  | .aluMax c pf rd ra rb => Sys2Proof.Machine.execAluMax c pf rd ra rb s
  | .aluMinu c pf rd ra rb => Sys2Proof.Machine.execAluMinu c pf rd ra rb s
  | .aluMaxu c pf rd ra rb => Sys2Proof.Machine.execAluMaxu c pf rd ra rb s
  | .aluClz c pf rd ra rb => Sys2Proof.Machine.execAluClz c pf rd ra rb s
  | .aluCtz c pf rd ra rb => Sys2Proof.Machine.execAluCtz c pf rd ra rb s
  | .aluPopc c pf rd ra rb => Sys2Proof.Machine.execAluPopc c pf rd ra rb s
  | .aluSextw c pf rd ra rb => Sys2Proof.Machine.execAluSextw c pf rd ra rb s
  | .aluZextw c pf rd ra rb => Sys2Proof.Machine.execAluZextw c pf rd ra rb s
  | .addi c pf rd ra imm => Sys2Proof.Machine.execAddi c pf rd ra imm s
  | .andi c pf rd ra imm => Sys2Proof.Machine.execAndi c pf rd ra imm s
  | .ori c pf rd ra imm => Sys2Proof.Machine.execOri c pf rd ra imm s
  | .xori c pf rd ra imm => Sys2Proof.Machine.execXori c pf rd ra imm s
  | .shi c pf rd ra z kind amt => Sys2Proof.Machine.execShi c pf rd ra z kind amt s
  | .lui c pf rd imm => Sys2Proof.Machine.execLui c pf rd imm s
  | .auipc c pf rd imm => Sys2Proof.Machine.execAuipc c pf rd imm s
  | .lb c pf rd ra imm => Sys2Proof.Machine.execLb c pf rd ra imm s
  | .lbu c pf rd ra imm => Sys2Proof.Machine.execLbu c pf rd ra imm s
  | .lh c pf rd ra imm => Sys2Proof.Machine.execLh c pf rd ra imm s
  | .lhu c pf rd ra imm => Sys2Proof.Machine.execLhu c pf rd ra imm s
  | .lw c pf rd ra imm => Sys2Proof.Machine.execLw c pf rd ra imm s
  | .lwu c pf rd ra imm => Sys2Proof.Machine.execLwu c pf rd ra imm s
  | .ld c pf rd ra imm => Sys2Proof.Machine.execLd c pf rd ra imm s
  | .ldq c pf rd ra imm => Sys2Proof.Machine.execLdq c pf rd ra imm s
  | .sb c pf rs ra imm => Sys2Proof.Machine.execSb c pf rs ra imm s
  | .sh c pf rs ra imm => Sys2Proof.Machine.execSh c pf rs ra imm s
  | .sw c pf rs ra imm => Sys2Proof.Machine.execSw c pf rs ra imm s
  | .sd c pf rs ra imm => Sys2Proof.Machine.execSd c pf rs ra imm s
  | .stq c pf rs ra imm => Sys2Proof.Machine.execStq c pf rs ra imm s
  | .amoSwap c pf rd ra rb => Sys2Proof.Machine.execAmoSwap c pf rd ra rb s
  | .amoAdd c pf rd ra rb => Sys2Proof.Machine.execAmoAdd c pf rd ra rb s
  | .amoAnd c pf rd ra rb => Sys2Proof.Machine.execAmoAnd c pf rd ra rb s
  | .amoOr c pf rd ra rb => Sys2Proof.Machine.execAmoOr c pf rd ra rb s
  | .amoXor c pf rd ra rb => Sys2Proof.Machine.execAmoXor c pf rd ra rb s
  | .amoMax c pf rd ra rb => Sys2Proof.Machine.execAmoMax c pf rd ra rb s
  | .amoMin c pf rd ra rb => Sys2Proof.Machine.execAmoMin c pf rd ra rb s
  | .amoMaxu c pf rd ra rb => Sys2Proof.Machine.execAmoMaxu c pf rd ra rb s
  | .amoMinu c pf rd ra rb => Sys2Proof.Machine.execAmoMinu c pf rd ra rb s
  | .cas c pf rd ra rb => Sys2Proof.Machine.execCas c pf rd ra rb s
  | .cmp c pf pd cond ra rb z => Sys2Proof.Machine.execCmp c pf pd cond ra rb z s
  | .cmpi c pf pd cond ra imm => Sys2Proof.Machine.execCmpi c pf pd cond ra imm s
  | .predAnd c pf pd pa pb z => Sys2Proof.Machine.execPredAnd c pf pd pa pb z s
  | .predOr c pf pd pa pb z => Sys2Proof.Machine.execPredOr c pf pd pa pb z s
  | .predXor c pf pd pa pb z => Sys2Proof.Machine.execPredXor c pf pd pa pb z s
  | .predAndn c pf pd pa pb z => Sys2Proof.Machine.execPredAndn c pf pd pa pb z s
  | .sel c pf rd ra rb p z => Sys2Proof.Machine.execSel c pf rd ra rb p z s
  | .br c pf off => Sys2Proof.Machine.execBr c pf off s
  | .call c pf off => Sys2Proof.Machine.execCall c pf off s
  | .jr c pf rd ra imm => Sys2Proof.Machine.execJr c pf rd ra imm s
  | .trap c pf z code => Sys2Proof.Machine.execTrap c pf z code s
  | .breakpoint c pf z code => Sys2Proof.Machine.execBreakpoint c pf z code s
  | .eret c pf z code => Sys2Proof.Machine.execEret c pf z code s
  | .wfi c pf z code => Sys2Proof.Machine.execWfi c pf z code s
  | .wfiWake c => Sys2Proof.Machine.execWfiWake c s
  | .syncLl c pf z => Sys2Proof.Machine.execSyncLl c pf z s
  | .syncSs c pf z => Sys2Proof.Machine.execSyncSs c pf z s
  | .syncLs c pf z => Sys2Proof.Machine.execSyncLs c pf z s
  | .syncSl c pf z => Sys2Proof.Machine.execSyncSl c pf z s
  | .syncAll c pf z => Sys2Proof.Machine.execSyncAll c pf z s
  | .syncDone c pf z => Sys2Proof.Machine.execSyncDone c pf z s
  | .syncI c pf z => Sys2Proof.Machine.execSyncI c pf z s
  | .csrrw c pf rd ra csr => Sys2Proof.Machine.execCsrrw c pf rd ra csr s
  | .csrrs c pf rd ra csr => Sys2Proof.Machine.execCsrrs c pf rd ra csr s
  | .csrrc c pf rd ra csr => Sys2Proof.Machine.execCsrrc c pf rd ra csr s
  | .wdkick c pf rd ra => Sys2Proof.Machine.execWdkick c pf rd ra s
  | .cacheClean c pf ra imm => Sys2Proof.Machine.execCacheClean c pf ra imm s
  | .cacheInval c pf ra imm => Sys2Proof.Machine.execCacheInval c pf ra imm s
  | .cacheCleaninv c pf ra imm => Sys2Proof.Machine.execCacheCleaninv c pf ra imm s
  | .cacheZero c pf ra imm => Sys2Proof.Machine.execCacheZero c pf ra imm s
  | .cacheIinval c pf ra imm => Sys2Proof.Machine.execCacheIinval c pf ra imm s
  | .interruptEntry c => Sys2Proof.Machine.execInterruptEntry c s
  | .nmiEntry c => Sys2Proof.Machine.execNmiEntry c s
  | .storeNotice c => Sys2Proof.Machine.execStoreNotice c s
  | .cacheWriteback l => Sys2Proof.Machine.execCacheWriteback l s
  | .ictlSwiSet m w => Sys2Proof.Machine.execIctlSwiSet m w s
  | .ictlPendClear k m w => Sys2Proof.Machine.execIctlPendClear k m w s
  | .ictlClaim t m => Sys2Proof.Machine.execIctlClaim t m s
  | .ictlDone t m w => Sys2Proof.Machine.execIctlDone t m w s
  | .appWdogCtlWrite c m w => Sys2Proof.Machine.execAppWdogCtlWrite c m w s
  | .appWdogWarn c => Sys2Proof.Machine.execAppWdogWarn c s
  | .appWdogExpire c => Sys2Proof.Machine.execAppWdogExpire c s
  | .sqEnable m k w => Sys2Proof.Machine.execSqEnable m k w s
  | .sqDisable m k w => Sys2Proof.Machine.execSqDisable m k w s
  | .sqOwnershipWrite m k kind w => Sys2Proof.Machine.execSqOwnershipWrite m k kind w s
  | .sqFaultClear m k w => Sys2Proof.Machine.execSqFaultClear m k w s
  | .waitTick c pf z => Sys2Proof.Machine.execWaitTick c pf z s
  | .inbox c pf rd ra imm => Sys2Proof.Machine.execInbox c pf rd ra imm s
  | .ldsc c pf rd ra rb fn => Sys2Proof.Machine.execLdsc c pf rd ra rb fn s
  | .chamOpen c pf rd ra rb => Sys2Proof.Machine.execChamOpen c pf rd ra rb s
  | .chamAdd c pf rd ra rb => Sys2Proof.Machine.execChamAdd c pf rd ra rb s
  | .chamStat c pf rd ra rb => Sys2Proof.Machine.execChamStat c pf rd ra rb s
  | .chamCancel c pf rd ra rb => Sys2Proof.Machine.execChamCancel c pf rd ra rb s
  | .flip c pf rd ra rb fn => Sys2Proof.Machine.execFlip c pf rd ra rb fn s
  | .fwait c pf rd ra rb fn => Sys2Proof.Machine.execFwait c pf rd ra rb fn s
  | .fwaitComplete k => Sys2Proof.Machine.execFwaitComplete k s
  | .fsig c pf rd ra rb fn => Sys2Proof.Machine.execFsig c pf rd ra rb fn s
  | .kdec c pf rd ra rb fn => Sys2Proof.Machine.execKdec c pf rd ra rb fn s
  | .kenc c pf rd ra rb fn => Sys2Proof.Machine.execKenc c pf rd ra rb fn s
  | .kickQueueFree k => Sys2Proof.Machine.execKickQueueFree k s
  | .logEv c pf rd ra imm => Sys2Proof.Machine.execLogEv c pf rd ra imm s
  | .bargeSend q => Sys2Proof.Machine.execBargeSend q s
  | .badBarge q b => Sys2Proof.Machine.execBadBarge q b s
  | .ackSend q => Sys2Proof.Machine.execAckSend q s
  | .ack q seq => Sys2Proof.Machine.execAck q seq s
  | .nak q seq => Sys2Proof.Machine.execNak q seq s
  | .replayTimerExpire q => Sys2Proof.Machine.execReplayTimerExpire q s
  | .credit q init c0 c1 c2 => Sys2Proof.Machine.execCredit q init c0 c1 c2 s
  | .creditPeriodic q => Sys2Proof.Machine.execCreditPeriodic q s
  | .idleCredit q => Sys2Proof.Machine.execIdleCredit q s
  | .alignRowSend q => Sys2Proof.Machine.execAlignRowSend q s
  | .alignRowRx q start skewOk => Sys2Proof.Machine.execAlignRowRx q start skewOk s
  | .deskewLoss q => Sys2Proof.Machine.execDeskewLoss q s
  | .pixels q seq slot line x last d => Sys2Proof.Machine.execPixels q seq slot line x last d s
  | .frameStart q seq slot w h fmt => Sys2Proof.Machine.execFrameStart q seq slot w h fmt s
  | .bridgeStatus q seq d => Sys2Proof.Machine.execBridgeStatus q seq d s
  | .auStart k seq len ctx flags capture => Sys2Proof.Machine.execAuStart k seq len ctx flags capture s
  | .auData k seq ctx final d => Sys2Proof.Machine.execAuData k seq ctx final d s
  | .cmd seq first final d => Sys2Proof.Machine.execCmd seq first final d s
  | .blTxqSend m q w => Sys2Proof.Machine.execBlTxqSend m q w s
  | .blHeadmapWrite m q w => Sys2Proof.Machine.execBlHeadmapWrite m q w s
  | .blTxEn m q w => Sys2Proof.Machine.execBlTxEn m q w s
  | .blRxEn m q w => Sys2Proof.Machine.execBlRxEn m q w s
  | .blRateWrite m q w => Sys2Proof.Machine.execBlRateWrite m q w s
  | .blRetrain m q w => Sys2Proof.Machine.execBlRetrain m q w s
  | .blClrCnt m q w => Sys2Proof.Machine.execBlClrCnt m q w s
  | .blAlignEnter q => Sys2Proof.Machine.execBlAlignEnter q s
  | .tsRowRx q n locked lanes rate role id confAck fresh => Sys2Proof.Machine.execTsRowRx q n locked lanes rate role id confAck fresh s
  | .blTrainTimeout q tx => Sys2Proof.Machine.execBlTrainTimeout q tx s
  | .blTrainRestart q tx => Sys2Proof.Machine.execBlTrainRestart q tx s
  | .blIdleEnter q => Sys2Proof.Machine.execBlIdleEnter q s
  | .idleEnterRx q sleep => Sys2Proof.Machine.execIdleEnterRx q sleep s
  | .blWake q => Sys2Proof.Machine.execBlWake q s
  | .testModeSet m q w => Sys2Proof.Machine.execTestModeSet m q w s
  | .testClr m q w => Sys2Proof.Machine.execTestClr m q w s
  | .injectSingle m q w => Sys2Proof.Machine.execInjectSingle m q w s
  | .injectPeriodic q => Sys2Proof.Machine.execInjectPeriodic q s
  | .checkerLock q lane => Sys2Proof.Machine.execCheckerLock q lane s
  | .checkerLockLost q lane errs => Sys2Proof.Machine.execCheckerLockLost q lane errs s
  | .eyeScanStart m q w => Sys2Proof.Machine.execEyeScanStart m q w s
  | .eyeScanAbort m q w => Sys2Proof.Machine.execEyeScanAbort m q w s
  | .eyeScanDone q errs => Sys2Proof.Machine.execEyeScanDone q errs s
  | .decAuDone n e => Sys2Proof.Machine.execDecAuDone n e s
  | .decBufferFree ix => Sys2Proof.Machine.execDecBufferFree ix s
  | .decRetire m n v => Sys2Proof.Machine.execDecRetire m n v s
  | .decEngineFault n parity a => Sys2Proof.Machine.execDecEngineFault n parity a s
  | .decWdogExpire n => Sys2Proof.Machine.execDecWdogExpire n s
  | .decEngEnable m n v => Sys2Proof.Machine.execDecEngEnable m n v s
  | .decCtxEnable m ix v => Sys2Proof.Machine.execDecCtxEnable m ix v s
  | .decCtxDisable m ix v => Sys2Proof.Machine.execDecCtxDisable m ix v s
  | .decCtxRebind m ix v => Sys2Proof.Machine.execDecCtxRebind m ix v s
  | .encJobStart n => Sys2Proof.Machine.execEncJobStart n s
  | .encFrameDone n e => Sys2Proof.Machine.execEncFrameDone n e s
  | .encOutRoom ix => Sys2Proof.Machine.execEncOutRoom ix s
  | .encOutRdWrite m ix v => Sys2Proof.Machine.execEncOutRdWrite m ix v s
  | .encRetire m n v => Sys2Proof.Machine.execEncRetire m n v s
  | .encEngineFault n parity a => Sys2Proof.Machine.execEncEngineFault n parity a s
  | .encWdogExpire n => Sys2Proof.Machine.execEncWdogExpire n s
  | .encEngEnable m n v => Sys2Proof.Machine.execEncEngEnable m n v s
  | .encCtxEnable m ix v => Sys2Proof.Machine.execEncCtxEnable m ix v s
  | .encCtxDisable m ix v => Sys2Proof.Machine.execEncCtxDisable m ix v s
  | .encCtxRebind m ix v => Sys2Proof.Machine.execEncCtxRebind m ix v s
  | .inputEnable m j v => Sys2Proof.Machine.execInputEnable m j v s
  | .sclCoefWrite m vert t p k v => Sys2Proof.Machine.execSclCoefWrite m vert t p k v s
  | .headCommitGo m h v => Sys2Proof.Machine.execHeadCommitGo m h v s
  | .headStart m h v => Sys2Proof.Machine.execHeadStart m h v s
  | .headStop m h v => Sys2Proof.Machine.execHeadStop m h v s
  | .headLatchLine h => Sys2Proof.Machine.execHeadLatchLine h s
  | .headLineStart h full bad => Sys2Proof.Machine.execHeadLineStart h full bad s
  | .layerFetchReturn h lp plane row n par ecc => Sys2Proof.Machine.execLayerFetchReturn h lp plane row n par ecc s
  | .headFrameEnd h => Sys2Proof.Machine.execHeadFrameEnd h s
  | .wbEnable m w v => Sys2Proof.Machine.execWbEnable m w v s
  | .fgLockSet m v => Sys2Proof.Machine.execFgLockSet m v s
  | .dramRead m a n hold r => Sys2Proof.Machine.execDramRead m a n hold r s
  | .dramWrite m a d => Sys2Proof.Machine.execDramWrite m a d s
  | .ddrReadPromote c => Sys2Proof.Machine.execDdrReadPromote c s
  | .ddrIdleDrain c n => Sys2Proof.Machine.execDdrIdleDrain c n s
  | .ddrRefresh c => Sys2Proof.Machine.execDdrRefresh c s
  | .ddrInit m c w => Sys2Proof.Machine.execDdrInit m c w s
  | .ddrInitDone c => Sys2Proof.Machine.execDdrInitDone c s
  | .ddrApply m c w => Sys2Proof.Machine.execDdrApply m c w s
  | .trnCa m c w => Sys2Proof.Machine.execTrnCa m c w s
  | .trnWckLevel m c w => Sys2Proof.Machine.execTrnWckLevel m c w s
  | .trnReadDq m c w => Sys2Proof.Machine.execTrnReadDq m c w s
  | .trnWriteDq m c w => Sys2Proof.Machine.execTrnWriteDq m c w s
  | .trnOsc m c w => Sys2Proof.Machine.execTrnOsc m c w s
  | .trnMrr m c w => Sys2Proof.Machine.execTrnMrr m c w s
  | .ddrTrnDone c dq dmi ca count => Sys2Proof.Machine.execDdrTrnDone c dq dmi ca count s
  | .ddrReady m w => Sys2Proof.Machine.execDdrReady m w s
  | .ddrFcGo m w => Sys2Proof.Machine.execDdrFcGo m w s
  | .ddrFcPrep => Sys2Proof.Machine.execDdrFcPrep s
  | .ddrFcWindow => Sys2Proof.Machine.execDdrFcWindow s
  | .ddrFcDone ns => Sys2Proof.Machine.execDdrFcDone ns s
  | .ddrFcTimeout => Sys2Proof.Machine.execDdrFcTimeout s
  | .churnGo m w => Sys2Proof.Machine.execChurnGo m w s
  | .churnAbort m w => Sys2Proof.Machine.execChurnAbort m w s
  | .churnUnit split => Sys2Proof.Machine.execChurnUnit split s
  | .diagReadRaw m w => Sys2Proof.Machine.execDiagReadRaw m w s
  | .diagWriteRaw m w => Sys2Proof.Machine.execDiagWriteRaw m w s
  | .diagWriteData m w => Sys2Proof.Machine.execDiagWriteData m w s
  | .mpuApply m u w => Sys2Proof.Machine.execMpuApply m u w s
  | .mpuApplyComplete u => Sys2Proof.Machine.execMpuApplyComplete u s
  | .maintOpen m w => Sys2Proof.Machine.execMaintOpen m w s
  | .cvuCtlWrite m n w => Sys2Proof.Machine.execCvuCtlWrite m n w s
  | .cvuFeed m n sz w => Sys2Proof.Machine.execCvuFeed m n sz w s
  | .cvuValueWrite m n w => Sys2Proof.Machine.execCvuValueWrite m n w s
  | .cvuExpectWrite m n w => Sys2Proof.Machine.execCvuExpectWrite m n w s
  | .cvuCompare m n w => Sys2Proof.Machine.execCvuCompare m n w s
  | .cvuResultRead m n val => Sys2Proof.Machine.execCvuResultRead m n val s
  | .logRearm m w => Sys2Proof.Machine.execLogRearm m w s
  | .logRearmDone => Sys2Proof.Machine.execLogRearmDone s
  | .logSubmit m w => Sys2Proof.Machine.execLogSubmit m w s
  | .logAppend => Sys2Proof.Machine.execLogAppend s
  | .logSpill => Sys2Proof.Machine.execLogSpill s
  | .logSpillEnable m w => Sys2Proof.Machine.execLogSpillEnable m w s
  | .teleSelWrite m ix w => Sys2Proof.Machine.execTeleSelWrite m ix w s
  | .teleHselWrite m k w => Sys2Proof.Machine.execTeleHselWrite m k w s
  | .teleDump busy => Sys2Proof.Machine.execTeleDump busy s
  | .rolePinTake v => Sys2Proof.Machine.execRolePinTake v s
  | .agreementMessage q seq g => Sys2Proof.Machine.execAgreementMessage q seq g s
  | .rapMark q seq ctx num capture len noTime => Sys2Proof.Machine.execRapMark q seq ctx num capture len noTime s
  | .snapData q seq addr d => Sys2Proof.Machine.execSnapData q seq addr d s
  | .snapEnd q seq tick crc count => Sys2Proof.Machine.execSnapEnd q seq tick crc count s
  | .touchBase q seq ix mode vals => Sys2Proof.Machine.execTouchBase q seq ix mode vals s
  | .arbHealthRead n => Sys2Proof.Machine.execArbHealthRead n s
  | .arbIdRead n => Sys2Proof.Machine.execArbIdRead n s
  | .arbOtherCmd cmd n => Sys2Proof.Machine.execArbOtherCmd cmd n s
  | .stepFullReq m w => Sys2Proof.Machine.execStepFullReq m w s
  | .stepLeave m w => Sys2Proof.Machine.execStepLeave m w s
  | .stepReady m w => Sys2Proof.Machine.execStepReady m w s
  | .stepHbKick m w => Sys2Proof.Machine.execStepHbKick m w s
  | .snapSend m w => Sys2Proof.Machine.execSnapSend m w s
  | .joinArm m k w => Sys2Proof.Machine.execJoinArm m k w s
  | .touchEnable m w => Sys2Proof.Machine.execTouchEnable m w s
  | .touchScanStart => Sys2Proof.Machine.execTouchScanStart s
  | .touchScanEnd caps => Sys2Proof.Machine.execTouchScanEnd caps s
  | .touchTest m w => Sys2Proof.Machine.execTouchTest m w s
  | .touchTestDone pins pairs => Sys2Proof.Machine.execTouchTestDone pins pairs s
  | .touchBaseWrite m ix w => Sys2Proof.Machine.execTouchBaseWrite m ix w s
  | .touchOwnerStart => Sys2Proof.Machine.execTouchOwnerStart s
  | .touchBaseSend => Sys2Proof.Machine.execTouchBaseSend s
  | .resetPor src => Sys2Proof.Machine.execResetPor src s
  | .railGood => Sys2Proof.Machine.execRailGood s
  | .railBringupFail => Sys2Proof.Machine.execRailBringupFail s
  | .resetDip => Sys2Proof.Machine.execResetDip s
  | .dipBegin mv => Sys2Proof.Machine.execDipBegin mv s
  | .dipEnd ns mv => Sys2Proof.Machine.execDipEnd ns mv s
  | .railWarn rail => Sys2Proof.Machine.execRailWarn rail s
  | .resetPin => Sys2Proof.Machine.execResetPin s
  | .keeperWdogExpire => Sys2Proof.Machine.execKeeperWdogExpire s
  | .keeperMismatch => Sys2Proof.Machine.execKeeperMismatch s
  | .refclkLoss => Sys2Proof.Machine.execRefclkLoss s
  | .resetSys m index code => Sys2Proof.Machine.execResetSys m index code s
  | .resetApp m index code => Sys2Proof.Machine.execResetApp m index code s
  | .resetHead m index code => Sys2Proof.Machine.execResetHead m index code s
  | .resetEngine m index code => Sys2Proof.Machine.execResetEngine m index code s
  | .resetRelease role pair ok0 ok1 => Sys2Proof.Machine.execResetRelease role pair ok0 ok1 s
  | .dvfsGo m w => Sys2Proof.Machine.execDvfsGo m w s
  | .dvfsDone => Sys2Proof.Machine.execDvfsDone s
  | .retainEnter m w => Sys2Proof.Machine.execRetainEnter m w s
  | .deepEnter m w => Sys2Proof.Machine.execDeepEnter m w s
  | .retainWake src role ok0 ok1 => Sys2Proof.Machine.execRetainWake src role ok0 ok1 s
  | .pwrDdrResume m w => Sys2Proof.Machine.execPwrDdrResume m w s
  | .tempSample k t => Sys2Proof.Machine.execTempSample k t s
  | .keepWdogKick m w => Sys2Proof.Machine.execKeepWdogKick m w s
  | .keepAppRelease m w => Sys2Proof.Machine.execKeepAppRelease m w s
  | .keepFuseBurn m w => Sys2Proof.Machine.execKeepFuseBurn m w s
  | .xspiProgram m w => Sys2Proof.Machine.execXspiProgram m w s
  | .xspiErase4k m w => Sys2Proof.Machine.execXspiErase4k m w s
  | .xspiErase64k m w => Sys2Proof.Machine.execXspiErase64k m w s
  | .xspiOpDone err => Sys2Proof.Machine.execXspiOpDone err s
  | .xspiTimeout => Sys2Proof.Machine.execXspiTimeout s
  | .extest levels shift => Sys2Proof.Machine.execExtest levels shift s
  | .samplePreload levels shift => Sys2Proof.Machine.execSamplePreload levels shift s
  | .idcode => Sys2Proof.Machine.execIdcode s
  | .debug => Sys2Proof.Machine.execDebug s
  | .bypass code => Sys2Proof.Machine.execBypass code s
  | .tapReset trst => Sys2Proof.Machine.execTapReset trst s
  | .debugAccess dr => Sys2Proof.Machine.execDebugAccess dr s
  | .debugAccessDone => Sys2Proof.Machine.execDebugAccessDone s
  | .i2cTransfer m k w => Sys2Proof.Machine.execI2cTransfer m k w s
  | .i2cTransferEnd k ack d => Sys2Proof.Machine.execI2cTransferEnd k ack d s
  | .i2cArbLost k => Sys2Proof.Machine.execI2cArbLost k s
  | .i2cTimeout k => Sys2Proof.Machine.execI2cTimeout k s
  | .uartTxWrite m u w => Sys2Proof.Machine.execUartTxWrite m u w s
  | .uartRxByte u b parity frame => Sys2Proof.Machine.execUartRxByte u b parity frame s
  | .uartRxRead m u => Sys2Proof.Machine.execUartRxRead m u s
  | .gpioEdge g level => Sys2Proof.Machine.execGpioEdge g level s
  | .snapStart q seq tick ranges total => Sys2Proof.Machine.execSnapStart q seq tick ranges total s
  | .protocolError q seq vc typ len => Sys2Proof.Machine.execProtocolError q seq vc typ len s
  | .railLowClear rail => Sys2Proof.Machine.execRailLowClear rail s
  | .uartTxByteSent u => Sys2Proof.Machine.execUartTxByteSent u s

end Sys2Proof.Machine
end

