-- ==== Sys2Proof/Machine/Step.lean ====
section
/-!
DEFINITION. One step: the oldest waiting command runs; with none waiting, one clock of the time counter passes.
Readings and choices beyond the spec's plain words: log entries 3 and 4.
-/
namespace Sys2Proof.Machine

/-- The command at the front of the queue is taken from it and executed. -/
def step (s : State) : Host.Outcome State Fault Refusal :=
  match s.pending with
  | [] => .next s.idle
  | c :: cs => exec c { s with pending := cs }

/-- The command that a word spells, put at the front of the queue. -/
def State.withFetchWord (s : State) (nbits w : Nat) : State :=
  match Sys2Proof.decodeTableWord nbits w with
  | some c => { s with pending := c :: s.pending }
  | none => s

end Sys2Proof.Machine
end

