-- ==== Sys2Proof/Safety.lean ====
section
/-!
DEFINITION. The terms in which the statements speak of states and commands.
-/
namespace Sys2Proof.Machine

/-- The canonical form of the memory: addresses strictly rising, no byte equal to what an unlisted address reads as. -/
abbrev Memory.wf (m : List Host.Cell) : Bool := Tbl.wf (fun _ => 0) m

/-- Command `i` answers a next state in `s`, and that state satisfies `P`. -/
def Gives (i : Instr) (s : State) (P : State → Prop) : Prop := ∃ t, exec i s = .next t ∧ P t

/-- Core `c` executes the instruction at its pc, and the predicate field `pf` holds (R56, R85, R83 priorities 1 to 3): the core domain
runs, no NMI, notice or interrupt is taken first, and the fetch meets no exception, corrects no error and does not wait for the flash. -/
abbrev State.Executes (s : State) (c : Fin 13) (pf : BitVec 4) : Prop :=
  s.pwr.phase = .run ∧ s.executing c.val = true ∧ (s.boundary? c.val).isNone = true ∧
    (s.fetchFault? c.val (s.core c.val).pc).isNone = true ∧ s.fetchCorrects (s.core c.val).pc = false ∧
    s.waits (s.region (s.core c.val).pc.toNat) = false ∧ pf ≠ 8 ∧ (s.core c.val).holds pf = true

/-- `s` after core `c` retires an instruction that leaves it with registers `x`: pc and INSTRET move on, nothing else changes. -/
def State.ran (s : State) (c : Nat) (x : CoreSt) : State := s.setCore c { x with pc := x.pc + 4, instret := x.instret + 1 }

/-- The same for an instruction that jumps to `pc`. -/
def State.jumped (s : State) (c : Nat) (x : CoreSt) (pc : DWord) : State := s.setCore c { x with pc := pc, instret := x.instret + 1 }

/-- Master `m` may write every field of the register at `off`: it is the Keeper, or no field is RWK, and no lock holds a field. -/
abbrev State.MayWrite (s : State) (m : Mst) (off : Nat) : Prop :=
  (rowAt off).isSome = true ∧ ∀ f ∈ ((rowAt off).map (·.fields)).getD [], s.turnsAway m.toNat off f = false

/-- The little-endian words at `a` of bytes `b` (R55), and those that memory holds. -/
def half (b : Nat → Byte) (a : Nat) : BitVec 16 := b (a + 1) ++ b a
def word32 (b : Nat → Byte) (a : Nat) : Word := half b (a + 2) ++ half b a
def word64 (b : Nat → Byte) (a : Nat) : DWord := word32 b (a + 4) ++ word32 b a
def State.mem64 (s : State) (a : Nat) : DWord := word64 s.byte a
/-- The byte at `a` as the A cores see it: of the line that they hold dirty, else of memory. -/
def State.cached (s : State) (a : Nat) : Byte := match s.lineAt a with
  | some l => l.data.getD (a - l.base) 0
  | none => s.byte a

/-- A register write of `w` at `off` with no field refused: the old value and the value written. -/
def freeWrite (s : State) (off w : Nat) : Admit := ⟨s, (s.reg off).toNat, w % 2 ^ 32, 2 ^ 32 - 1, false⟩

/-- `s` after that write took effect by the access types of the register's fields alone (R3). -/
def State.written (s : State) (off w : Nat) : State := (freeWrite s off w).plain off

/-- The port answers that the write was taken. -/
def State.taken (s : State) : State := { s with resp := .ok }

/-- Outside the `n` bytes from `a`, memory holds in `t` what it holds in `s`. -/
def State.SameMemBut (s t : State) (a n : Nat) : Prop := ∀ x, ¬(a ≤ x ∧ x < a + n) → t.byte x = s.byte x

/-- Outside the 16 MiB that begin at the Logbook SRAM, memory holds in `t` what it holds in `s`. -/
def State.SameMemButLog (s t : State) : Prop := ∀ x, x / 2 ^ 24 ≠ 0x4200 → t.byte x = s.byte x

/-- Every register of the register space but those at the offsets `l` holds in `t` what it holds in `s`, the live copies too. -/
def State.SameRegsBut (s t : State) (l : List Nat) : Prop := ∀ o, o ∉ l → t.reg o = s.reg o ∧ t.lreg o = s.lreg o

/-- The same, the telemetry block's registers apart. -/
def State.SameRegsButTele (s t : State) (l : List Nat) : Prop := ∀ o, o / 0x10000 ≠ 7 → o ∉ l → t.reg o = s.reg o ∧ t.lreg o = s.lreg o

/-- Every core but `c` is in `t` as it is in `s`. -/
def State.SameCoresBut (s t : State) (c : Nat) : Prop := ∀ d, d ≠ c → t.core d = s.core d

/-- Core `c` fetches an instruction at its pc and meets no exception there and no error to correct, whatever the instruction's predicate. -/
abbrev State.Fetches (s : State) (c : Fin 13) : Prop :=
  s.pwr.phase = .run ∧ s.executing c.val = true ∧ (s.boundary? c.val).isNone = true ∧
    (s.fetchFault? c.val (s.core c.val).pc).isNone = true ∧ s.fetchCorrects (s.core c.val).pc = false ∧
    s.waits (s.region (s.core c.val).pc.toNat) = false

/-- The same but that the fetch meets an error that it corrects. -/
abbrev State.Corrects (s : State) (c : Fin 13) : Prop :=
  s.pwr.phase = .run ∧ s.executing c.val = true ∧ (s.boundary? c.val).isNone = true ∧
    (s.fetchFault? c.val (s.core c.val).pc).isNone = true ∧ s.fetchCorrects (s.core c.val).pc = true ∧
    s.waits (s.region (s.core c.val).pc.toNat) = false

/-- No store that core `c` has retired waits to be checked within the `n` bytes at `a` (R73, R86). -/
abbrev State.NoneWaits (s : State) (c a n : Nat) : Prop :=
  (s.core c).stores.any (fun p => decide (p.addr < a + n) && decide (a < p.addr + p.data.length)) = false

/-- The `n` bytes at `a`, on-chip SRAM, lie in words whose check bits are correct, and no store of core `c` waits there. -/
abbrev State.PlainSram (s : State) (c a n : Nat) : Prop :=
  (s.regionN a n).sram = true ∧ (unitsOf (s.regionN a n) a n).all (fun u => s.delta u == 0) = true ∧ s.NoneWaits c a n

/-- The same for DRAM, outside the retired pages and while no frequency change holds accesses up. -/
abbrev State.PlainDram (s : State) (c a n : Nat) : Prop :=
  s.regionN a n = .dram ∧ (unitsOf .dram a n).all (fun u => s.delta u == 0) = true ∧ s.NoneWaits c a n ∧ s.retired a = false ∧ s.fc.stage ≠ .change

/-- The instruction of a core that command `i` is: the core and the predicate field. -/
def coreOf : Instr → Option (Fin 13 × BitVec 4)
  | .aluAdd c pf _ _ _ => some (c, pf)
  | .aluSub c pf _ _ _ => some (c, pf)
  | .aluAnd c pf _ _ _ => some (c, pf)
  | .aluOr c pf _ _ _ => some (c, pf)
  | .aluXor c pf _ _ _ => some (c, pf)
  | .aluAndn c pf _ _ _ => some (c, pf)
  | .aluSll c pf _ _ _ => some (c, pf)
  | .aluSrl c pf _ _ _ => some (c, pf)
  | .aluSra c pf _ _ _ => some (c, pf)
  | .aluRor c pf _ _ _ => some (c, pf)
  | .aluMul c pf _ _ _ => some (c, pf)
  | .aluMulh c pf _ _ _ => some (c, pf)
  | .aluMulhu c pf _ _ _ => some (c, pf)
  | .aluDiv c pf _ _ _ => some (c, pf)
  | .aluDivu c pf _ _ _ => some (c, pf)
  | .aluRem c pf _ _ _ => some (c, pf)
  | .aluRemu c pf _ _ _ => some (c, pf)
  | .aluMin c pf _ _ _ => some (c, pf)
  | .aluMax c pf _ _ _ => some (c, pf)
  | .aluMinu c pf _ _ _ => some (c, pf)
  | .aluMaxu c pf _ _ _ => some (c, pf)
  | .aluClz c pf _ _ _ => some (c, pf)
  | .aluCtz c pf _ _ _ => some (c, pf)
  | .aluPopc c pf _ _ _ => some (c, pf)
  | .aluSextw c pf _ _ _ => some (c, pf)
  | .aluZextw c pf _ _ _ => some (c, pf)
  | .addi c pf _ _ _ => some (c, pf)
  | .andi c pf _ _ _ => some (c, pf)
  | .ori c pf _ _ _ => some (c, pf)
  | .xori c pf _ _ _ => some (c, pf)
  | .shi c pf _ _ _ _ _ => some (c, pf)
  | .lui c pf _ _ => some (c, pf)
  | .auipc c pf _ _ => some (c, pf)
  | .lb c pf _ _ _ => some (c, pf)
  | .lbu c pf _ _ _ => some (c, pf)
  | .lh c pf _ _ _ => some (c, pf)
  | .lhu c pf _ _ _ => some (c, pf)
  | .lw c pf _ _ _ => some (c, pf)
  | .lwu c pf _ _ _ => some (c, pf)
  | .ld c pf _ _ _ => some (c, pf)
  | .ldq c pf _ _ _ => some (c, pf)
  | .sb c pf _ _ _ => some (c, pf)
  | .sh c pf _ _ _ => some (c, pf)
  | .sw c pf _ _ _ => some (c, pf)
  | .sd c pf _ _ _ => some (c, pf)
  | .stq c pf _ _ _ => some (c, pf)
  | .amoSwap c pf _ _ _ => some (c, pf)
  | .amoAdd c pf _ _ _ => some (c, pf)
  | .amoAnd c pf _ _ _ => some (c, pf)
  | .amoOr c pf _ _ _ => some (c, pf)
  | .amoXor c pf _ _ _ => some (c, pf)
  | .amoMax c pf _ _ _ => some (c, pf)
  | .amoMin c pf _ _ _ => some (c, pf)
  | .amoMaxu c pf _ _ _ => some (c, pf)
  | .amoMinu c pf _ _ _ => some (c, pf)
  | .cas c pf _ _ _ => some (c, pf)
  | .cmp c pf _ _ _ _ _ => some (c, pf)
  | .cmpi c pf _ _ _ _ => some (c, pf)
  | .predAnd c pf _ _ _ _ => some (c, pf)
  | .predOr c pf _ _ _ _ => some (c, pf)
  | .predXor c pf _ _ _ _ => some (c, pf)
  | .predAndn c pf _ _ _ _ => some (c, pf)
  | .sel c pf _ _ _ _ _ => some (c, pf)
  | .br c pf _ => some (c, pf)
  | .call c pf _ => some (c, pf)
  | .jr c pf _ _ _ => some (c, pf)
  | .trap c pf _ _ => some (c, pf)
  | .breakpoint c pf _ _ => some (c, pf)
  | .eret c pf _ _ => some (c, pf)
  | .wfi c pf _ _ => some (c, pf)
  | .syncLl c pf _ => some (c, pf)
  | .syncSs c pf _ => some (c, pf)
  | .syncLs c pf _ => some (c, pf)
  | .syncSl c pf _ => some (c, pf)
  | .syncAll c pf _ => some (c, pf)
  | .syncDone c pf _ => some (c, pf)
  | .syncI c pf _ => some (c, pf)
  | .csrrw c pf _ _ _ => some (c, pf)
  | .csrrs c pf _ _ _ => some (c, pf)
  | .csrrc c pf _ _ _ => some (c, pf)
  | .wdkick c pf _ _ => some (c, pf)
  | .cacheClean c pf _ _ => some (c, pf)
  | .cacheInval c pf _ _ => some (c, pf)
  | .cacheCleaninv c pf _ _ => some (c, pf)
  | .cacheZero c pf _ _ => some (c, pf)
  | .cacheIinval c pf _ _ => some (c, pf)
  | .waitTick c pf _ => some (c, pf)
  | .inbox c pf _ _ _ => some (c, pf)
  | .ldsc c pf _ _ _ _ => some (c, pf)
  | .chamOpen c pf _ _ _ => some (c, pf)
  | .chamAdd c pf _ _ _ => some (c, pf)
  | .chamStat c pf _ _ _ => some (c, pf)
  | .chamCancel c pf _ _ _ => some (c, pf)
  | .flip c pf _ _ _ _ => some (c, pf)
  | .fwait c pf _ _ _ _ => some (c, pf)
  | .fsig c pf _ _ _ _ => some (c, pf)
  | .kdec c pf _ _ _ _ => some (c, pf)
  | .kenc c pf _ _ _ _ => some (c, pf)
  | .logEv c pf _ _ _ => some (c, pf)
  | _ => none

end Sys2Proof.Machine
end

