-- ==== Sys2Proof/WellFormed.lean ====
section
/-!
DEFINITION. Which commands the spec's forms and the table accept: reserved predicate field, fields that must be zero, listed masters,
and the sizes of what an event carries. The meanings are total all the same: an instruction whose encoding is reserved raises
ILLEGAL.
-/
namespace Sys2Proof

/-- The master identifiers of R24. -/
def listed (m : Mst) : Bool :=
  let n := m.toNat
  decide (n ≤ 12) || (decide (0x10 ≤ n) && decide (n ≤ 0x62)) || (decide (0x64 ≤ n) && decide (n ≤ 0x67)) || n == 0x70 || n == 0x7F

/-- A core with the T profile (R106). -/
def isSq (c : Fin 13) : Bool := decide (8 ≤ c.val) && decide (c.val < 12)

/-- A CSR of core `c`'s profile (R80, R106): the exception registers are not the T profile's, WDOG is the A profile's alone. -/
def csrNamed (c : Fin 13) (n : Nat) : Bool :=
  n == 0 || n == 6 || n == 7 || n == 0x010 || (decide (0x020 ≤ n) && decide (n ≤ 0x022)) || n == 0x031 ||
    (!isSq c && decide (n ≤ 0x009)) || (decide (c.val < 8) && n == 0x030)

/-- A payload of `lo` to `hi` bytes (R130). -/
def okLen (lo hi : Nat) (d : List Byte) : Bool := decide (lo ≤ d.length) && decide (d.length ≤ hi)

/-- Barge type `typ` belongs to quad `q`'s receive direction (R134). -/
def receives (q typ : Nat) : Bool :=
  (decide (1 ≤ typ) && decide (typ ≤ 3)) ||
  ((typ == 0x10 || typ == 0x11) && decide (12 ≤ q) && decide (q < 20)) ||
  (typ == 0x13 && decide (q < 20)) ||
  ((typ == 0x20 || typ == 0x21 || typ == 0x30) && (q == 20 || q == 21)) ||
  (typ == 0x40 && q == 20) ||
  (decide (0x60 ≤ typ) && decide (typ ≤ 0x6F) && decide (22 ≤ q))

/-- Offsets whose read latches the registers above them (R28, R177, R328, R425 and the register tables that cite R28). -/
def latches (off : Nat) : Bool :=
  let b := off / 0x10000
  let p := off % 0x10000
  if b == 0x02 then [0x24, 0x30, 0x4C, 0x58].contains p
  else if b == 0x03 then [0x18, 0x20].contains p
  else if b == 0x06 then [0x20, 0x28, 0x3C, 0x64, 0x70].contains p
  else if b == 0x07 then [0x14, 0x20].contains p || (decide (0x2000 ≤ p) && decide (p < 0x2800) && p % 8 == 0)
  else if b == 0x09 then p == 0x08
  else if b == 0x18 then [0x30, 0x38, 0x404].contains p
  else if b == 0x19 then [0x10, 0x18, 0x20].contains p || (decide (0x40 ≤ p) && decide (p < 0x80) && p % 8 == 0)
  else if decide (0x20 ≤ b) && decide (b < 0x30) then decide (0x1000 ≤ p) && decide (p < 0x1800) && (p % 0x100 == 0x14 || p % 0x100 == 0x1C)
  else if b == 0x40 then decide (0x3000 ≤ p) && decide (p < 0x3200) && p % 0x40 == 0x30
  else if decide (0x50 ≤ b) && decide (b < 0x70) then [0x48, 0x50, 0x5C, 0x68, 0x74].contains p
  else if b == 0x71 then p == 0x04
  else if decide (0x80 ≤ b) && decide (b < 0x98) then p == 0x110
  else b == 0x98 && (p == 0x24 || p == 0x44)

/-- An agreement message's parts have the sizes of R446. -/
def AgreeMsg.ok (g : AgreeMsg) : Bool :=
  g.stream.length == 128 && g.input.length == 24 && decide (g.cmds.length ≤ 14328) && g.cmds.length % 8 == 0

/-- The checks, one arm a constructor. -/
def Instr.wellFormed (i : Instr) : Bool :=
  match i with
  | .regWrite m _ _ => listed m
  | .timeTripleRead m off => listed m && latches off.toNat
  | .xipReadResume m => listed m
  | .timeLoad m _ => listed m
  | .timeStepArm m _ => listed m
  | .timeStepDisarm m _ => listed m
  | .timeRateWrite m _ => listed m
  | .timeTrackWrite m _ => listed m
  | .holdoverEnter => true
  | .tsPop m _ => listed m
  | .timestamp _ _ _ _ _ _ _ _ _ => true
  | .ppsEdge _ => true
  | .tickRateWrite m _ => listed m
  | .tickEpochWrite m _ _ => listed m
  | .tickRunStart m _ => listed m
  | .tickRunStop m _ => listed m
  | .tickHphaseWrite m _ _ => listed m
  | .tickBoundary => true
  | .tickMidpoint => true
  | .agreeDeadline => true
  | .inboxRelease => true
  | .aluAdd _ pf _ _ _ => pf != 8
  | .aluSub _ pf _ _ _ => pf != 8
  | .aluAnd _ pf _ _ _ => pf != 8
  | .aluOr _ pf _ _ _ => pf != 8
  | .aluXor _ pf _ _ _ => pf != 8
  | .aluAndn _ pf _ _ _ => pf != 8
  | .aluSll _ pf _ _ _ => pf != 8
  | .aluSrl _ pf _ _ _ => pf != 8
  | .aluSra _ pf _ _ _ => pf != 8
  | .aluRor _ pf _ _ _ => pf != 8
  | .aluMul _ pf _ _ _ => pf != 8
  | .aluMulh _ pf _ _ _ => pf != 8
  | .aluMulhu _ pf _ _ _ => pf != 8
  | .aluDiv _ pf _ _ _ => pf != 8
  | .aluDivu _ pf _ _ _ => pf != 8
  | .aluRem _ pf _ _ _ => pf != 8
  | .aluRemu _ pf _ _ _ => pf != 8
  | .aluMin _ pf _ _ _ => pf != 8
  | .aluMax _ pf _ _ _ => pf != 8
  | .aluMinu _ pf _ _ _ => pf != 8
  | .aluMaxu _ pf _ _ _ => pf != 8
  | .aluClz _ pf _ _ rb => pf != 8 && rb == 0
  | .aluCtz _ pf _ _ rb => pf != 8 && rb == 0
  | .aluPopc _ pf _ _ rb => pf != 8 && rb == 0
  | .aluSextw _ pf _ _ rb => pf != 8 && rb == 0
  | .aluZextw _ pf _ _ rb => pf != 8 && rb == 0
  | .addi _ pf _ _ _ => pf != 8
  | .andi _ pf _ _ _ => pf != 8
  | .ori _ pf _ _ _ => pf != 8
  | .xori _ pf _ _ _ => pf != 8
  | .shi _ pf _ _ z _ _ => pf != 8 && z == 0
  | .lui _ pf _ _ => pf != 8
  | .auipc _ pf _ _ => pf != 8
  | .lb _ pf _ _ _ => pf != 8
  | .lbu _ pf _ _ _ => pf != 8
  | .lh _ pf _ _ _ => pf != 8
  | .lhu _ pf _ _ _ => pf != 8
  | .lw _ pf _ _ _ => pf != 8
  | .lwu _ pf _ _ _ => pf != 8
  | .ld _ pf _ _ _ => pf != 8
  | .ldq _ pf rd _ _ => pf != 8 && rd.toNat % 4 == 0
  | .sb _ pf _ _ _ => pf != 8
  | .sh _ pf _ _ _ => pf != 8
  | .sw _ pf _ _ _ => pf != 8
  | .sd _ pf _ _ _ => pf != 8
  | .stq _ pf rs _ _ => pf != 8 && rs.toNat % 4 == 0
  | .amoSwap _ pf _ _ _ => pf != 8
  | .amoAdd _ pf _ _ _ => pf != 8
  | .amoAnd _ pf _ _ _ => pf != 8
  | .amoOr _ pf _ _ _ => pf != 8
  | .amoXor _ pf _ _ _ => pf != 8
  | .amoMax _ pf _ _ _ => pf != 8
  | .amoMin _ pf _ _ _ => pf != 8
  | .amoMaxu _ pf _ _ _ => pf != 8
  | .amoMinu _ pf _ _ _ => pf != 8
  | .cas _ pf _ _ _ => pf != 8
  | .cmp _ pf _ _ _ _ z => pf != 8 && z == 0
  | .cmpi _ pf _ _ _ _ => pf != 8
  | .predAnd _ pf _ _ _ z => pf != 8 && z == 0
  | .predOr _ pf _ _ _ z => pf != 8 && z == 0
  | .predXor _ pf _ _ _ z => pf != 8 && z == 0
  | .predAndn _ pf _ _ _ z => pf != 8 && z == 0
  | .sel _ pf _ _ _ _ z => pf != 8 && z == 0
  | .br _ pf _ => pf != 8
  | .call _ pf _ => pf != 8
  | .jr _ pf _ _ _ => pf != 8
  | .trap _ pf z _ => pf != 8 && z == 0
  | .breakpoint _ pf z code => pf != 8 && z == 0 && code == 0
  | .eret c pf z code => pf != 8 && !isSq c && z == 0 && code == 0
  | .wfi c pf z code => pf != 8 && !isSq c && z == 0 && code == 0
  | .wfiWake _ => true
  | .syncLl _ pf z => pf != 8 && z == 0
  | .syncSs _ pf z => pf != 8 && z == 0
  | .syncLs _ pf z => pf != 8 && z == 0
  | .syncSl _ pf z => pf != 8 && z == 0
  | .syncAll _ pf z => pf != 8 && z == 0
  | .syncDone _ pf z => pf != 8 && z == 0
  | .syncI _ pf z => pf != 8 && z == 0
  | .csrrw c pf _ _ csr => pf != 8 && csrNamed c csr.toNat
  | .csrrs c pf _ _ csr => pf != 8 && csrNamed c csr.toNat
  | .csrrc c pf _ _ csr => pf != 8 && csrNamed c csr.toNat
  | .wdkick c pf _ _ => pf != 8 && decide (c.val < 8)
  | .cacheClean _ pf _ _ => pf != 8
  | .cacheInval _ pf _ _ => pf != 8
  | .cacheCleaninv _ pf _ _ => pf != 8
  | .cacheZero _ pf _ _ => pf != 8
  | .cacheIinval _ pf _ _ => pf != 8
  | .interruptEntry _ => true
  | .nmiEntry _ => true
  | .storeNotice _ => true
  | .cacheWriteback _ => true
  | .ictlSwiSet m _ => listed m
  | .ictlPendClear _ m _ => listed m
  | .ictlClaim _ m => listed m
  | .ictlDone _ m _ => listed m
  | .appWdogCtlWrite _ m _ => listed m
  | .appWdogWarn _ => true
  | .appWdogExpire _ => true
  | .sqEnable m _ _ => listed m
  | .sqDisable m _ _ => listed m
  | .sqOwnershipWrite m _ _ _ => listed m
  | .sqFaultClear m _ _ => listed m
  | .waitTick c pf z => pf != 8 && isSq c && z == 0
  | .inbox c pf _ _ _ => pf != 8 && isSq c
  | .ldsc c pf rd _ _ fn => pf != 8 && isSq c && rd == 0 && fn == 0
  | .chamOpen c pf rd _ rb => pf != 8 && isSq c && rb == 0 && rd == 0
  | .chamAdd c pf rd _ _ => pf != 8 && isSq c && rd.toNat % 2 == 0
  | .chamStat c pf _ _ rb => pf != 8 && isSq c && rb == 0
  | .chamCancel c pf _ _ rb => pf != 8 && isSq c && rb == 0
  | .flip c pf rd _ _ fn => pf != 8 && isSq c && rd == 0 && fn == 0
  | .fwait c pf rd _ _ fn => pf != 8 && isSq c && rd == 0 && fn == 0
  | .fwaitComplete _ => true
  | .fsig c pf _ _ _ fn => pf != 8 && isSq c && fn == 0
  | .kdec c pf rd _ _ fn => pf != 8 && isSq c && rd == 0 && fn == 0
  | .kenc c pf rd _ _ fn => pf != 8 && isSq c && rd == 0 && fn == 0
  | .kickQueueFree _ => true
  | .logEv c pf rd ra _ => pf != 8 && isSq c && rd.toNat % 4 == 0 && ra == 0
  | .bargeSend _ => true
  | .badBarge _ _ => true
  | .ackSend _ => true
  | .ack _ _ => true
  | .nak _ _ => true
  | .replayTimerExpire _ => true
  | .credit _ _ _ _ _ => true
  | .creditPeriodic _ => true
  | .idleCredit _ => true
  | .alignRowSend _ => true
  | .alignRowRx _ _ _ => true
  | .deskewLoss _ => true
  | .pixels _ _ slot _ _ _ d => slot != 3 && okLen 1 1024 d
  | .frameStart _ _ slot _ _ _ => slot != 3
  | .bridgeStatus _ _ _ => true
  | .auStart _ _ _ _ _ _ => true
  | .auData _ _ _ _ d => okLen 1 1024 d
  | .cmd _ _ _ d => okLen 1 1024 d
  | .blTxqSend m _ _ => listed m
  | .blHeadmapWrite m _ _ => listed m
  | .blTxEn m _ _ => listed m
  | .blRxEn m _ _ => listed m
  | .blRateWrite m _ _ => listed m
  | .blRetrain m _ _ => listed m
  | .blClrCnt m _ _ => listed m
  | .blAlignEnter _ => true
  | .tsRowRx _ _ _ _ _ _ _ _ _ => true
  | .blTrainTimeout _ _ => true
  | .blTrainRestart _ _ => true
  | .blIdleEnter _ => true
  | .idleEnterRx _ _ => true
  | .blWake _ => true
  | .testModeSet m _ _ => listed m
  | .testClr m _ _ => listed m
  | .injectSingle m _ _ => listed m
  | .injectPeriodic _ => true
  | .checkerLock _ _ => true
  | .checkerLockLost _ _ errs => decide (256 ≤ errs.toNat ∧ errs.toNat ≤ 1024)
  | .eyeScanStart m _ _ => listed m
  | .eyeScanAbort m _ _ => listed m
  | .eyeScanDone _ _ => true
  | .decAuDone _ _ => true
  | .decBufferFree _ => true
  | .decRetire m _ _ => listed m
  | .decEngineFault _ _ _ => true
  | .decWdogExpire _ => true
  | .decEngEnable m _ _ => listed m
  | .decCtxEnable m _ _ => listed m
  | .decCtxDisable m _ _ => listed m
  | .decCtxRebind m _ _ => listed m
  | .encJobStart _ => true
  | .encFrameDone _ _ => true
  | .encOutRoom _ => true
  | .encOutRdWrite m _ _ => listed m
  | .encRetire m _ _ => listed m
  | .encEngineFault _ _ _ => true
  | .encWdogExpire _ => true
  | .encEngEnable m _ _ => listed m
  | .encCtxEnable m _ _ => listed m
  | .encCtxDisable m _ _ => listed m
  | .encCtxRebind m _ _ => listed m
  | .inputEnable m _ _ => listed m
  | .sclCoefWrite m _ _ _ _ _ => listed m
  | .headCommitGo m _ _ => listed m
  | .headStart m _ _ => listed m
  | .headStop m _ _ => listed m
  | .headLatchLine _ => true
  | .headLineStart _ _ _ => true
  | .layerFetchReturn _ _ _ _ _ _ _ => true
  | .headFrameEnd _ => true
  | .wbEnable m _ _ => listed m
  | .fgLockSet m _ => listed m
  | .dramRead m a n _ _ => listed m && decide (1 ≤ n.toNat) && decide (a.toNat % 256 + n.toNat ≤ 256)
  | .dramWrite m a d => listed m && a.toNat % 32 == 0 && (d.bytes.length == 32 || d.bytes.length == 64) && decide (a.toNat % 64 + d.bytes.length ≤ 64)
  | .ddrReadPromote _ => true
  | .ddrIdleDrain _ _ => true
  | .ddrRefresh _ => true
  | .ddrInit m _ _ => listed m
  | .ddrInitDone _ => true
  | .ddrApply m _ _ => listed m
  | .trnCa m _ _ => listed m
  | .trnWckLevel m _ _ => listed m
  | .trnReadDq m _ _ => listed m
  | .trnWriteDq m _ _ => listed m
  | .trnOsc m _ _ => listed m
  | .trnMrr m _ _ => listed m
  | .ddrTrnDone _ _ _ _ _ => true
  | .ddrReady m _ => listed m
  | .ddrFcGo m _ => listed m
  | .ddrFcPrep => true
  | .ddrFcWindow => true
  | .ddrFcDone ns => decide (ns ≤ 20000)
  | .ddrFcTimeout => true
  | .churnGo m _ => listed m
  | .churnAbort m _ => listed m
  | .churnUnit _ => true
  | .diagReadRaw m _ => listed m
  | .diagWriteRaw m _ => listed m
  | .diagWriteData m _ => listed m
  | .mpuApply m _ _ => listed m
  | .mpuApplyComplete _ => true
  | .maintOpen m _ => listed m
  | .cvuCtlWrite m _ _ => listed m
  | .cvuFeed m _ _ _ => listed m
  | .cvuValueWrite m _ _ => listed m
  | .cvuExpectWrite m _ _ => listed m
  | .cvuCompare m _ _ => listed m
  | .cvuResultRead m _ _ => listed m
  | .logRearm m _ => listed m
  | .logRearmDone => true
  | .logSubmit m _ => listed m
  | .logAppend => true
  | .logSpill => true
  | .logSpillEnable m _ => listed m
  | .teleSelWrite m _ _ => listed m
  | .teleHselWrite m _ _ => listed m
  | .teleDump _ => true
  | .rolePinTake _ => true
  | .agreementMessage _ _ g => g.ok
  | .rapMark _ _ _ _ _ _ _ => true
  | .snapData _ _ _ d => okLen 32 992 d && d.length % 32 == 0
  | .snapEnd _ _ _ _ _ => true
  | .touchBase _ _ _ _ vals => decide (1 ≤ vals.length) && decide (vals.length ≤ 508)
  | .arbHealthRead _ => true
  | .arbIdRead _ => true
  | .arbOtherCmd _ _ => true
  | .stepFullReq m _ => listed m
  | .stepLeave m _ => listed m
  | .stepReady m _ => listed m
  | .stepHbKick m _ => listed m
  | .snapSend m _ => listed m
  | .joinArm m _ _ => listed m
  | .touchEnable m _ => listed m
  | .touchScanStart => true
  | .touchScanEnd _ => true
  | .touchTest m _ => listed m
  | .touchTestDone pins pairs => pins.length == 48 && pairs.length == 47
  | .touchBaseWrite m _ _ => listed m
  | .touchOwnerStart => true
  | .touchBaseSend => true
  | .resetPor _ => true
  | .railGood => true
  | .railBringupFail => true
  | .resetDip => true
  | .dipBegin _ => true
  | .dipEnd _ _ => true
  | .railWarn _ => true
  | .resetPin => true
  | .keeperWdogExpire => true
  | .keeperMismatch => true
  | .refclkLoss => true
  | .resetSys m _ _ => listed m
  | .resetApp m _ _ => listed m
  | .resetHead m _ _ => listed m
  | .resetEngine m _ _ => listed m
  | .resetRelease _ _ _ _ => true
  | .dvfsGo m _ => listed m
  | .dvfsDone => true
  | .retainEnter m _ => listed m
  | .deepEnter m _ => listed m
  | .retainWake _ _ _ _ => true
  | .pwrDdrResume m _ => listed m
  | .tempSample _ _ => true
  | .keepWdogKick m _ => listed m
  | .keepAppRelease m _ => listed m
  | .keepFuseBurn m _ => listed m
  | .xspiProgram m _ => listed m
  | .xspiErase4k m _ => listed m
  | .xspiErase64k m _ => listed m
  | .xspiOpDone _ => true
  | .xspiTimeout => true
  | .extest _ _ => true
  | .samplePreload _ _ => true
  | .idcode => true
  | .debug => true
  | .bypass code => !([0x00, 0x01, 0x02, 0x20] : List Byte).contains code
  | .tapReset _ => true
  | .debugAccess _ => true
  | .debugAccessDone => true
  | .i2cTransfer m _ _ => listed m
  | .i2cTransferEnd _ _ _ => true
  | .i2cArbLost _ => true
  | .i2cTimeout _ => true
  | .uartTxWrite m _ _ => listed m
  | .uartRxByte _ _ _ _ => true
  | .uartRxRead m _ => listed m
  | .gpioEdge _ _ => true
  | .snapStart _ _ _ _ _ => true
  | .protocolError q _ _ typ _ => !receives q.val typ.toNat
  | .railLowClear _ => true
  | .uartTxByteSent _ => true

end Sys2Proof
end

