-- ==== Sys2Proof/Certificates/Slice0/Obligations.lean ====
section
/-!
DEFINITION. The statements: what each family of commands does, where it completes, and what it leaves as it was.
-/
open Sys2Proof Sys2Proof.Machine

/-! ### Cores: arithmetic, predicates, control flow -/

/-- R52, R53: g0 reads as zero and a write to it is discarded; p0 reads as 1 and a write to it is discarded; every other register takes
what is written to it and keeps it. -/
def Obligations.CoreRegisterFile : Prop :=
  ∀ (x : CoreSt) (i j : BitVec 5) (v : DWord) (p q : BitVec 3) (b : Bool),
    x.rg 0 = 0 ∧ x.setRg 0 v = x ∧
    (i ≠ 0 → (x.setRg i.toNat v).rg i.toNat = v) ∧ (j ≠ i → (x.setRg i.toNat v).rg j.toNat = x.rg j.toNat) ∧
    x.pr 0 = true ∧ x.setPr 0 b = x ∧
    (p ≠ 0 → (x.setPr p.toNat b).pr p.toNat = b) ∧ (q ≠ p → (x.setPr p.toNat b).pr q.toNat = x.pr q.toNat)

/-- R59 to R61 for the operations of ra and rb: each writes rd as the table of R60 says, division by zero and −2^63 by −1 as R61 says,
and changes nothing else but the pc and INSTRET (for rd = g0, not even that register, R52). -/
def Obligations.AluTwoOperandResults : Prop :=
  ∀ (s : State) (c : Fin 13) (pf : BitVec 4) (rd ra rb : BitVec 5), s.Executes c pf →
    let x := s.core c.val
    let a := x.rg ra.toNat
    let b := x.rg rb.toNat
    let n := b.toNat % 64
    let writes (v : DWord) : Out := .next (s.ran c.val (x.setRg rd.toNat v))
    exec (.aluAdd c pf rd ra rb) s = writes (a + b) ∧
    exec (.aluSub c pf rd ra rb) s = writes (a - b) ∧
    exec (.aluAnd c pf rd ra rb) s = writes (a &&& b) ∧
    exec (.aluOr c pf rd ra rb) s = writes (a ||| b) ∧
    exec (.aluXor c pf rd ra rb) s = writes (a ^^^ b) ∧
    exec (.aluAndn c pf rd ra rb) s = writes (a &&& ~~~b) ∧
    exec (.aluSll c pf rd ra rb) s = writes (a <<< n) ∧
    exec (.aluSrl c pf rd ra rb) s = writes (a >>> n) ∧
    exec (.aluSra c pf rd ra rb) s = writes (a.sshiftRight n) ∧
    exec (.aluRor c pf rd ra rb) s = writes (a.rotateRight n) ∧
    exec (.aluMul c pf rd ra rb) s = writes (a * b) ∧
    exec (.aluMulh c pf rd ra rb) s = writes ((a.signExtend 128 * b.signExtend 128).extractLsb' 64 64) ∧
    exec (.aluMulhu c pf rd ra rb) s = writes ((a.zeroExtend 128 * b.zeroExtend 128).extractLsb' 64 64) ∧
    exec (.aluDiv c pf rd ra rb) s = writes (if b = 0 then BitVec.allOnes 64 else a.sdiv b) ∧
    exec (.aluDivu c pf rd ra rb) s = writes (if b = 0 then BitVec.allOnes 64 else a / b) ∧
    exec (.aluRem c pf rd ra rb) s = writes (if b = 0 then a else a.srem b) ∧
    exec (.aluRemu c pf rd ra rb) s = writes (if b = 0 then a else a % b) ∧
    exec (.aluMin c pf rd ra rb) s = writes (if a.slt b then a else b) ∧
    exec (.aluMax c pf rd ra rb) s = writes (if b.slt a then a else b) ∧
    exec (.aluMinu c pf rd ra rb) s = writes (if a.ult b then a else b) ∧
    exec (.aluMaxu c pf rd ra rb) s = writes (if b.ult a then a else b)

/-- R59, R60 for the operations of one register (rb must be g0) and of a register and an immediate, SHI (its zero field zero), LUI and
AUIPC: each writes rd and changes nothing else but the pc and INSTRET. -/
def Obligations.UnaryAndImmediateResults : Prop :=
  ∀ (s : State) (c : Fin 13) (pf : BitVec 4) (rd ra : BitVec 5) (imm : BitVec 12) (u : BitVec 17) (kind : BitVec 2) (amt : BitVec 6),
    s.Executes c pf →
    let x := s.core c.val
    let a := x.rg ra.toNat
    let n := amt.toNat
    let writes (v : DWord) : Out := .next (s.ran c.val (x.setRg rd.toNat v))
    exec (.aluClz c pf rd ra 0) s = writes a.clz ∧
    exec (.aluCtz c pf rd ra 0) s = writes a.ctz ∧
    exec (.aluPopc c pf rd ra 0) s = writes a.cpop ∧
    exec (.aluSextw c pf rd ra 0) s = writes ((a.extractLsb' 0 32).signExtend 64) ∧
    exec (.aluZextw c pf rd ra 0) s = writes ((a.extractLsb' 0 32).zeroExtend 64) ∧
    exec (.addi c pf rd ra imm) s = writes (a + imm.signExtend 64) ∧
    exec (.andi c pf rd ra imm) s = writes (a &&& imm.signExtend 64) ∧
    exec (.ori c pf rd ra imm) s = writes (a ||| imm.zeroExtend 64) ∧
    exec (.xori c pf rd ra imm) s = writes (a ^^^ imm.signExtend 64) ∧
    exec (.shi c pf rd ra 0 kind amt) s =
      writes (if kind = 0 then a <<< n else if kind = 1 then a >>> n else if kind = 2 then a.sshiftRight n else a.rotateRight n) ∧
    exec (.lui c pf rd u) s = writes (u.signExtend 64 <<< 12) ∧
    exec (.auipc c pf rd u) s = writes (x.pc + (u.signExtend 64 <<< 12))

/-- R59, R62: CMP and CMPI set pd to the condition on their operands (CMPI's second operand is the immediate, sign-extended, also for
LTU and GEU), PRED to the operation on pa and pb, SEL writes ra or rb to rd by the predicate it names; nothing else changes but the pc
and INSTRET. -/
def Obligations.ConditionsAndPredicates : Prop :=
  ∀ (s : State) (c : Fin 13) (pf : BitVec 4) (pd pa pb cond : BitVec 3) (rd ra rb : BitVec 5) (imm : BitVec 11), s.Executes c pf →
    let x := s.core c.val
    let a := x.rg ra.toNat
    let cmp (b : DWord) : Bool :=
      if cond = 0 then a == b else if cond = 1 then a != b else if cond = 2 then a.slt b else if cond = 3 then !a.slt b
      else if cond = 4 then a.ult b else if cond = 5 then !a.ult b else if cond = 6 then a &&& b != 0 else a &&& b == 0
    let sets (v : Bool) : Out := .next (s.ran c.val (x.setPr pd.toNat v))
    exec (.cmp c pf pd cond ra rb 0) s = sets (cmp (x.rg rb.toNat)) ∧
    exec (.cmpi c pf pd cond ra imm) s = sets (cmp (imm.signExtend 64)) ∧
    exec (.predAnd c pf pd pa pb 0) s = sets (x.pr pa.toNat && x.pr pb.toNat) ∧
    exec (.predOr c pf pd pa pb 0) s = sets (x.pr pa.toNat || x.pr pb.toNat) ∧
    exec (.predXor c pf pd pa pb 0) s = sets (x.pr pa.toNat ^^ x.pr pb.toNat) ∧
    exec (.predAndn c pf pd pa pb 0) s = sets (x.pr pa.toNat && !x.pr pb.toNat) ∧
    exec (.sel c pf rd ra rb pa 0) s = .next (s.ran c.val (x.setRg rd.toNat (if x.pr pa.toNat then a else x.rg rb.toNat)))

/-- R64: BR and CALL go to the branch's own address plus 4 × sext(off22), CALL with the return address in g31; JR goes to
ra + sext(imm12) with the return address in rd, and where that target is misaligned raises exception 1 with the target instead, rd not
written. -/
def Obligations.BranchTargets : Prop :=
  ∀ (s : State) (c : Fin 13) (pf : BitVec 4) (off : BitVec 22) (rd ra : BitVec 5) (imm : BitVec 12), s.Executes c pf →
    let x := s.core c.val
    let t := x.rg ra.toNat + imm.signExtend 64
    exec (.br c pf off) s = .next (s.jumped c.val x (x.pc + 4 * off.signExtend 64)) ∧
    exec (.call c pf off) s = .next (s.jumped c.val (x.setRg 31 (x.pc + 4)) (x.pc + 4 * off.signExtend 64)) ∧
    (t.extractLsb' 0 2 = 0 → exec (.jr c pf rd ra imm) s = .next (s.jumped c.val (x.setRg rd.toNat (x.pc + 4)) t)) ∧
    (t.extractLsb' 0 2 ≠ 0 → exec (.jr c pf rd ra imm) s = .next (s.raise c.val 1 t))

/-- R83, R84, R87, R88: what raising an exception does. On an A core and on the Keeper with EXL and NMIL at 0: STATUS goes to ESTATUS, the
pc to EPC, cause and value to ECAUSE and EVAL, EXL is set, IE cleared, MODE becomes S (K on the Keeper), the pc is EVEC, and nothing else
changes. On an A core with either at 1 the core stops and its ICTL_HALT.DF bit is set; on the Keeper a WDT reset is taken; on a T core the sequencer
faults. -/
def Obligations.ExceptionEntry : Prop :=
  ∀ (s : State) (c : Fin 13) (cause : Fin 256) (val : DWord),
    let x := s.core c.val
    (¬(8 ≤ c.val ∧ c.val < 12) → x.exl = false → x.nmil = false →
      ∃ y : CoreSt, s.raise c.val cause.val val = s.setCore c.val y ∧
        y.estatus = x.status ∧ y.epc = x.pc ∧ y.ecause = BitVec.ofNat 64 cause.val ∧ y.eval = val ∧ y.pc = x.evec ∧
        y.exl = true ∧ y.ie = false ∧ y.nmil = false ∧ y.mode = (if c.val = 12 then 3 else 1) ∧
        y = { x with estatus := y.estatus, epc := y.epc, ecause := y.ecause, eval := y.eval, pc := y.pc, status := y.status }) ∧
    (c.val < 8 → (x.exl = true ∨ x.nmil = true) →
      s.raise c.val cause.val val = (s.setCore c.val { x with run := .halted }).setReg R.ICTL_HALT (s.reg R.ICTL_HALT ||| (1 <<< c.val))) ∧
    (c.val = 12 → s.pwr.phase = .run → (x.exl = true ∨ x.nmil = true) → s.raise c.val cause.val val = s.coreReset .wdt 2 0) ∧
    (8 ≤ c.val → c.val < 12 →
      let t := s.raise c.val cause.val val
      let k := c.val - 8
      t.fld (F.TICK_SQ_STATUS_STATE k) = 4 ∧ t.fld (F.TICK_SQ_FAULT_VALID k) = 1 ∧ t.fld (F.TICK_SQ_FAULT_CODE k) = cause.val ∧
        t.fld (F.TICK_SQ_FAULT_PC k) = x.pc.toNat / 4 % 65536 ∧
        t.reg64 (R.TICK_SQ_FVAL_LO k) (R.TICK_SQ_FVAL_HI k) = val.toNat ∧ t = { s with regs := t.regs } ∧
        s.SameRegsBut t [R.TICK_SQ_STATUS k, R.TICK_SQ_FAULT k, R.TICK_SQ_FVAL_LO k, R.TICK_SQ_FVAL_HI k])

/-- R63, R78, R84: TRAP raises exception 6 with its code; BREAK raises 7, or halts the core while the debug master is attached; ERET goes
back to NEPC with NSTATUS while NMIL is set and to EPC with ESTATUS otherwise, a MODE the core does not have becoming S, or K on the
Keeper. In user mode ERET is a privilege violation.
The model's readings in it: log entries 32 and 39. -/
def Obligations.TrapBreakEret : Prop :=
  ∀ (s : State) (c : Fin 13) (pf : BitVec 4) (code : BitVec 10), s.Executes c pf →
    let x := s.core c.val
    exec (.trap c pf 0 code) s = .next (s.raise c.val 6 (code.zeroExtend 64)) ∧
    (s.tap.ir ≠ 0x20 → exec (.breakpoint c pf 0 0) s = .next (s.raise c.val 7 0)) ∧
    (s.tap.ir = 0x20 → exec (.breakpoint c pf 0 0) s = .next (s.setCore c.val { x with run := .debug })) ∧
    (¬(8 ≤ c.val ∧ c.val < 12) → x.mode = 0 →
      exec (.eret c pf 0 0) s = .next (s.raise c.val 5 ((pf ++ (0x24 : BitVec 6) ++ (0 : BitVec 15) ++ (2 : BitVec 7)).zeroExtend 64))) ∧
    (¬(8 ≤ c.val ∧ c.val < 12) → x.mode ≠ 0 →
      let from_ := if x.nmil then x.nstatus else x.estatus
      ∃ v : DWord, exec (.eret c pf 0 0) s = .next (s.jumped c.val { x with status := v } (if x.nmil then x.nepc else x.epc)) ∧
        v.extractLsb' 0 3 = from_.extractLsb' 0 3 ∧ v.extractLsb' 5 59 = 0 ∧
        v.extractLsb' 3 2 = (if c.val = 12 then 3 else if (from_.extractLsb' 3 2).ult 2 then from_.extractLsb' 3 2 else 1))

/-! ### Cores: predication, loads and stores, atomics, caches, CSRs, waiting -/

/-- R56, R57, R59, R365, R368: an instruction whose predicate is false only retires, where its encoding is legal on this core; an encoding with
the reserved predicate field, a field that must be zero and is not, a register field that breaks R65, or an operation or CSR that is not the
core's raises exception 4 whatever the predicate. A fetch that corrects an error counts and logs it first, and an SRAM word is written back; the instruction, LUI as the example, then runs.
The model's readings in it: log entry 7. -/
def Obligations.PredicateFalseDoesNothing : Prop :=
  ∀ (i : Instr) (s : State) (c : Fin 13) (pf : BitVec 4), coreOf i = some (c, pf) → s.Fetches c → (s.core c.val).holds pf = false →
    (i.wellFormed = true → exec i s = .next (s.ran c.val (s.core c.val))) ∧
    (i.wellFormed = false → ∃ w, exec i s = .next (s.raise c.val 4 w)) ∧
    ∀ (s' : State) (u : BitVec 17) (rd : BitVec 5), s'.Corrects c → (s'.core c.val).holds 0 = true →
      let f := s'.fetched c.val (s'.core c.val).pc
      exec (.lui c 0 rd u) s' = .next (f.ran c.val ((f.core c.val).setRg rd.toNat (u.signExtend 64 <<< 12))) ∧
      (∀ r a, s'.fetchUnit? (s'.core c.val).pc = some (r, a) → r ≠ .dram → r.sram = true → f.unitEcc r a = .clean)

/-- R65, R70, R78, R83: what each load reads. In on-chip SRAM and in DRAM the value of the bytes at ra + sext(imm12), sign- or
zero-extended, LDQ into four registers; an A core reads its dirty line where it holds one. Nothing but the core changes; a read of DRAM
also moves the counters and write queues of its channel, and nothing of memory. A misaligned address, a poisoned word, an address outside
the map and a user-mode access to register space outside TELE raise their exceptions.
The model's readings in it: log entries 8 and 23. -/
def Obligations.LoadResults : Prop :=
  ∀ (s : State) (c : Fin 13) (pf : BitVec 4) (rd ra : BitVec 5) (imm : BitVec 12), s.Executes c pf →
    let x := s.core c.val
    let a := x.rg ra.toNat + imm.signExtend 64
    let p := a.toNat
    let r := rd.toNat
    let loads (b : Nat → Byte) : List (Instr × Nat × CoreSt) := [
      (.lb c pf rd ra imm, 1, x.setRg r ((b p).signExtend 64)), (.lbu c pf rd ra imm, 1, x.setRg r ((b p).zeroExtend 64)),
      (.lh c pf rd ra imm, 2, x.setRg r ((half b p).signExtend 64)), (.lhu c pf rd ra imm, 2, x.setRg r ((half b p).zeroExtend 64)),
      (.lw c pf rd ra imm, 4, x.setRg r ((word32 b p).signExtend 64)), (.lwu c pf rd ra imm, 4, x.setRg r ((word32 b p).zeroExtend 64)),
      (.ld c pf rd ra imm, 8, x.setRg r (word64 b p)),
      (.ldq c pf rd ra imm, 32, (((x.setRg r (word64 b p)).setRg (r + 1) (word64 b (p + 8))).setRg (r + 2) (word64 b (p + 16))).setRg
        (r + 3) (word64 b (p + 24)))]
    ∀ (b : Nat → Byte), ∀ e ∈ loads b, (e.2.1 = 32 → r % 4 = 0) →
      (p % e.2.1 = 0 → s.PlainSram c.val p e.2.1 → b = s.byte → exec e.1 s = .next (s.ran c.val e.2.2)) ∧
      (p % e.2.1 = 0 → 8 ≤ c.val → s.PlainDram c.val p e.2.1 → b = s.byte →
        Gives e.1 s fun t => t.core c.val = (s.ran c.val e.2.2).core c.val ∧ s.SameCoresBut t c.val ∧
          t = { s with cores := t.cores, regs := t.regs, ddr := t.ddr, wq := t.wq }) ∧
      (∀ l, p % e.2.1 = 0 → c.val < 8 → s.region p = .dram → s.NoneWaits c.val p e.2.1 → s.retired p = false → s.lineAt p = some l →
        (if p % 64 < 32 then l.bad0 else l.bad1) = false → b = (fun y => l.data.getD (y - l.base) 0) →
        exec e.1 s = .next (s.ran c.val e.2.2)) ∧
      (p % e.2.1 = 0 → c.val < 8 → s.lineAt p = none → s.NoneWaits c.val p e.2.1 → s.PlainDram c.val (p / 64 * 64) 64 → b = s.byte →
        Gives e.1 s fun t => t.core c.val = (s.ran c.val e.2.2).core c.val ∧ s.SameCoresBut t c.val ∧
          t = { s with cores := t.cores, regs := t.regs, ddr := t.ddr, wq := t.wq }) ∧
      (p % e.2.1 ≠ 0 → exec e.1 s = .next (s.raise c.val 8 a)) ∧
      (p % e.2.1 = 0 → s.region p = .none → x.stores = [] → exec e.1 s = .next (s.raise c.val 12 a)) ∧
      (p % e.2.1 = 0 → (s.regionN p e.2.1).sram = true → s.NoneWaits c.val p e.2.1 → s.delta (p / 8 * 8) = 0xFF →
        (unitsOf .gen p e.2.1).all (fun u => s.delta u == 0 || s.delta u == 0xFF) = true →
        ∃ u : State, exec e.1 s = .next (u.raise c.val 13 a) ∧ u.cores = s.cores ∧ s.SameMemButLog u) ∧
      (p % e.2.1 = 0 → s.region p = .reg → x.mode = 0 → ¬(p / 0x10000 % 256 = 7 ∧ s.bit F.TELE_CTL_USER = true) →
        exec e.1 s = .next (s.raise c.val 9 a))

/-- R65, R67, R68, R78, R86: what each store does. A store of an A core to DRAM or general, sequencer or island SRAM retires and waits to
be checked. A permitted store of a T or K core to on-chip SRAM writes its bytes and no others; a permitted STQ of theirs writes the
32 bytes of a DRAM code word, waiting while a frequency change runs (R355), and a narrower store to DRAM raises 12 and writes nothing. A store that its unit refuses raises 11 and
writes no memory, a misaligned one 8, one of user mode to register space 9.
The model's readings in it: log entry 23. -/
def Obligations.StoreResults : Prop :=
  ∀ (s : State) (c : Fin 13) (pf : BitVec 4) (rs ra : BitVec 5) (imm : BitVec 12), s.Executes c pf →
    let x := s.core c.val
    let a := x.rg ra.toNat + imm.signExtend 64
    let p := a.toNat
    let v := (x.rg rs.toNat).toNat
    let stores : List (Instr × List Byte) := [
      (.sb c pf rs ra imm, leBytes 1 v), (.sh c pf rs ra imm, leBytes 2 v), (.sw c pf rs ra imm, leBytes 4 v), (.sd c pf rs ra imm, leBytes 8 v),
      (.stq c pf rs ra imm, leBytes 8 v ++ leBytes 8 (x.rg (rs.toNat + 1)).toNat ++ leBytes 8 (x.rg (rs.toNat + 2)).toNat ++
        leBytes 8 (x.rg (rs.toNat + 3)).toNat)]
    ∀ e ∈ stores,
      let d := e.2
      let n := d.length
      (n = 32 → rs.toNat % 4 = 0) →
      (p % n ≠ 0 → exec e.1 s = .next (s.raise c.val 8 a)) ∧
      (p % n = 0 → s.region p = .reg → x.mode = 0 → exec e.1 s = .next (s.raise c.val 9 a)) ∧
      (p % n = 0 → c.val < 8 → (s.region p ∈ [.gen, .seq, .island] ∨ (s.region p = .dram ∧ s.retired p = false)) →
        exec e.1 s = .next (s.ran c.val { x with stores := x.stores ++ [⟨p, d⟩] })) ∧
      (p % n = 0 → 8 ≤ c.val → s.PlainSram c.val p n → s.judge c.val p = .permit →
        Gives e.1 s fun t => t.core c.val = (s.ran c.val x).core c.val ∧ s.SameCoresBut t c.val ∧
          (∀ i, i < n → t.byte (p + i) = d.getD i 0) ∧ s.SameMemBut t p n ∧ (unitsOf .gen p n).all (fun u => t.delta u == 0) = true ∧
          t = { s with cores := t.cores, mem := t.mem, chk := t.chk, churn := t.churn }) ∧
      (n = 32 → p % 32 = 0 → 8 ≤ c.val → s.region p = .dram → s.fc.stage ≠ .change → s.retired p = false → s.lineAt p = none → s.permits c.val p = true →
        Gives e.1 s fun t => t.core c.val = (s.ran c.val x).core c.val ∧ s.SameCoresBut t c.val ∧
          (∀ i, i < 32 → t.byte (p + i) = d.getD i 0) ∧ s.SameMemBut t p 32 ∧ t.delta p = 0 ∧
          t = { s with cores := t.cores, mem := t.mem, chk := t.chk, churn := t.churn, wq := t.wq, ddr := t.ddr, regs := t.regs }) ∧
      (n < 32 → p % n = 0 → 8 ≤ c.val → s.region p = .dram → s.permits c.val p = true → exec e.1 s = .next (s.raise c.val 12 a)) ∧
      (n = 32 → p % 32 = 0 → 8 ≤ c.val → s.region p = .dram → s.fc.stage = .change → s.retired p = false → s.permits c.val p = true →
        exec e.1 s = .next (if c.val < 12 then s.setCore c.val { x with xip := some ⟨0, 32, false, p, x.pc, false, some d⟩ } else s)) ∧
      (p % n = 0 → 8 ≤ c.val → (∃ k, s.judge c.val p = .refuse k) → s.region p ≠ .reg →
        ∃ u : State, exec e.1 s = .next (u.raise c.val 11 a) ∧ u.cores = s.cores ∧ u.chk = s.chk ∧ s.SameMemButLog u)

/-- R69, R70: AMO and CAS on a word that the core may write, on-chip SRAM or, for an A core, DRAM, whose check bits are correct: rd takes the
old value, the word the new one (CAS: only where the old value equals rd), and no other byte that a core of the cluster sees changes. In
DRAM an A core acts in its caches: the line is held dirty afterwards, unless a CAS found another value. A poisoned word raises 13,
misaligned operands 8, words where R69 lets no core act 10.
The model's readings in it: log entry 23. -/
def Obligations.AtomicResults : Prop :=
  ∀ (s : State) (c : Fin 13) (pf : BitVec 4) (rd ra rb : BitVec 5), s.Executes c pf →
    let x := s.core c.val
    let a := x.rg ra.toNat
    let p := a.toNat
    let b := x.rg rb.toNat
    let atomics (old : DWord) : List (Instr × DWord) := [
      (.amoSwap c pf rd ra rb, b), (.amoAdd c pf rd ra rb, old + b), (.amoAnd c pf rd ra rb, old &&& b), (.amoOr c pf rd ra rb, old ||| b),
      (.amoXor c pf rd ra rb, old ^^^ b), (.amoMax c pf rd ra rb, if old.slt b then b else old),
      (.amoMin c pf rd ra rb, if b.slt old then b else old), (.amoMaxu c pf rd ra rb, if old.ult b then b else old),
      (.amoMinu c pf rd ra rb, if b.ult old then b else old), (.cas c pf rd ra rb, if old = x.rg rd.toNat then b else old)]
    ∀ (old : DWord), ∀ e ∈ atomics old,
      (p % 8 = 0 → s.region p ∈ [.gen, .seq, .island] → s.PlainSram c.val p 8 → s.judge c.val p = .permit → old = s.mem64 p →
        Gives e.1 s fun t => t.core c.val = (s.ran c.val (x.setRg rd.toNat old)).core c.val ∧ s.SameCoresBut t c.val ∧
          t.mem64 p = e.2 ∧ s.SameMemBut t p 8 ∧ t.delta p = 0 ∧
          t = { s with cores := t.cores, mem := t.mem, chk := t.chk, churn := t.churn }) ∧
      (p % 8 = 0 → c.val < 8 → s.region p = .dram → s.fc.stage ≠ .change → s.permits c.val p = true → s.retired p = false →
        s.NoneWaits c.val p 8 → s.lines.length < 32768 → old = word64 s.cached p →
        ((∃ l, s.lineAt p = some l ∧ l.data.length = 64 ∧ (if p % 64 < 32 then l.bad0 else l.bad1) = false) ∨
          (s.lineAt p = none ∧ s.PlainDram c.val (p / 64 * 64) 64)) →
        Gives e.1 s fun t => t.core c.val = (s.ran c.val (x.setRg rd.toNat old)).core c.val ∧ s.SameCoresBut t c.val ∧
          word64 t.cached p = e.2 ∧ (∀ y, ¬(p ≤ y ∧ y < p + 8) → t.cached y = s.cached y) ∧
          (e.2 ≠ old → ∃ l, t.lineAt p = some l ∧ c.val ∈ l.writers) ∧
          t = { s with cores := t.cores, lines := t.lines, regs := t.regs, ddr := t.ddr, wq := t.wq }) ∧
      (p % 8 = 0 → s.region p ∈ [.gen, .seq, .island] → s.NoneWaits c.val p 8 → s.judge c.val p = .permit → s.delta p = 0xFF →
        ∃ u : State, exec e.1 s = .next (u.raise c.val 13 a) ∧ u.cores = s.cores ∧ s.SameMemButLog u) ∧
      (p % 8 ≠ 0 → exec e.1 s = .next (s.raise c.val 8 a)) ∧
      (p % 8 = 0 → x.mode = 0 → s.region p = .reg → exec e.1 s = .next (s.raise c.val 9 a)) ∧
      (p % 8 = 0 → x.mode ≠ 0 → (s.region p ∈ [.logb, .reg, .rom, .xspi, .none] ∨ (s.region p = .dram ∧ 8 ≤ c.val)) →
        exec e.1 s = .next (s.raise c.val 10 a))

/-- R71, R77, R78: CLEAN and CLEANINV of an A core write a dirty line that every core that stored into it may write back to DRAM, with
its poison, and hold it dirty no more; INVAL discards it and leaves memory alone; ZERO leaves a dirty line of zeros without poison; IINVAL
and, on T and K cores, CLEAN, INVAL, CLEANINV and IINVAL only retire; ZERO writes 64 zero bytes to uncached memory that the core may write.
INVAL and IINVAL raise 5 in user mode.
The model's readings in it: log entries 23 and 25. -/
def Obligations.CacheOperations : Prop :=
  ∀ (s : State) (c : Fin 13) (pf : BitVec 4) (ra : BitVec 5) (imm : BitVec 12), s.Executes c pf →
    let x := s.core c.val
    let p := (x.rg ra.toNat + imm.signExtend 64).toNat
    let b := p / 64 * 64
    (8 ≤ c.val → ∀ i ∈ [Instr.cacheClean c pf ra imm, .cacheCleaninv c pf ra imm], exec i s = .next (s.ran c.val x)) ∧
    (8 ≤ c.val → x.mode ≠ 0 → ∀ i ∈ [Instr.cacheInval c pf ra imm, .cacheIinval c pf ra imm], exec i s = .next (s.ran c.val x)) ∧
    (x.mode = 0 → ∀ i ∈ [Instr.cacheInval c pf ra imm, .cacheIinval c pf ra imm], ∃ w, exec i s = .next (s.raise c.val 5 w)) ∧
    (c.val < 8 → s.region p = .dram → s.retired b = false → x.stores = [] →
      (x.mode ≠ 0 → exec (.cacheIinval c pf ra imm) s = .next (s.ran c.val x)) ∧
      (x.mode ≠ 0 → s.permits c.val b = true →
        exec (.cacheInval c pf ra imm) s = .next ({ s with lines := s.lines.filter (fun l => l.base != b) }.ran c.val x)) ∧
      (s.permits c.val b = true → s.lines.length < 32768 →
        Gives (.cacheZero c pf ra imm) s fun t => (∃ l, t.lineAt p = some l ∧ l.base = b ∧ (∀ i, i < 64 → l.data.getD i 0 = 0) ∧
            l.bad0 = false ∧ l.bad1 = false ∧ c.val ∈ l.writers) ∧
          t.core c.val = (s.ran c.val x).core c.val ∧ s.SameCoresBut t c.val ∧ t = { s with cores := t.cores, lines := t.lines } ∧
          ∀ y, y / 64 * 64 ≠ b → t.lineAt y = s.lineAt y) ∧
      (∀ l, s.lineAt p = some l → l.writers.all (fun w => s.permits w b) = true → s.permits c.val b = true → s.fc.stage ≠ .change →
        ∀ i ∈ [Instr.cacheClean c pf ra imm, .cacheCleaninv c pf ra imm],
          Gives i s fun t => t.lineAt p = none ∧ (∀ k, k < l.data.length → t.byte (b + k) = l.data.getD k 0) ∧ s.SameMemBut t b l.data.length ∧
            t.delta b = (if l.bad0 then 0xA5A5A5A5 else 0) ∧ t.delta (b + 32) = (if l.bad1 then 0xA5A5A5A5 else 0) ∧
            t.core c.val = (s.ran c.val x).core c.val ∧ s.SameCoresBut t c.val ∧
            t = { s with cores := t.cores, lines := t.lines, mem := t.mem, chk := t.chk, churn := t.churn, wq := t.wq, ddr := t.ddr,
                         regs := t.regs })) ∧
    (x.stores = [] → (s.region p ∈ [.gen, .seq, .island] ∨ (8 ≤ c.val ∧ s.region p = .dram ∧ s.fc.stage ≠ .change ∧ s.retired b = false ∧ s.lineAt p = none)) →
      s.judge c.val b = .permit →
      Gives (.cacheZero c pf ra imm) s fun t => (∀ k, k < 64 → t.byte (b + k) = 0) ∧ s.SameMemBut t b 64 ∧
        t.core c.val = (s.ran c.val x).core c.val ∧ s.SameCoresBut t c.val ∧
        t = { s with cores := t.cores, mem := t.mem, chk := t.chk, churn := t.churn, wq := t.wq, ddr := t.ddr, regs := t.regs })

/-- R63, R72, R76, R78: WFI of an S or K mode core waits unless an interrupt is claimable for it or an NMI is pending, and WFI_WAKE ends
the wait when one is; in user mode WFI raises 5. On T and K cores every SYNC only retires, on an A core so do LL and LS, and SS, SL, ALL,
DONE and I retire with no store of the core left unchecked; while a frequency change runs and one of them waits for DRAM, they wait (R355).
The model's readings in it: log entry 23. -/
def Obligations.WaitingAndBarriers : Prop :=
  ∀ (s : State) (c : Fin 13) (pf : BitVec 4), 
    let x := s.core c.val
    let due := x.nmi || s.external (if c.val = 12 then 8 else c.val)
    (s.Executes c pf → ¬(8 ≤ c.val ∧ c.val < 12) →
      (x.mode ≠ 0 → exec (.wfi c pf 0 0) s = .next (s.ran c.val (if due then x else { x with run := .wfi }))) ∧
      (x.mode = 0 → exec (.wfi c pf 0 0) s = .next (s.raise c.val 5 ((pf ++ (0x24 : BitVec 6) ++ (0 : BitVec 15) ++ (3 : BitVec 7)).zeroExtend 64)))) ∧
    (s.pwr.phase = .run → x.run = .wfi → exec (.wfiWake c) s = .next (if due then s.setCore c.val { x with run := .running } else s)) ∧
    (s.Executes c pf → ∀ i ∈ [Instr.syncLl c pf 0, .syncLs c pf 0], exec i s = .next (s.ran c.val x)) ∧
    (s.Executes c pf → ∀ i ∈ [Instr.syncSs c pf 0, .syncSl c pf 0, .syncAll c pf 0, .syncDone c pf 0, .syncI c pf 0],
      (8 ≤ c.val → exec i s = .next (s.ran c.val x)) ∧
      (c.val < 8 → s.storesWait c.val = true → exec i s = .next s) ∧
      (c.val < 8 → s.fc.stage ≠ .change → Gives i s fun t => (t.core c.val).stores = [] ∧ (t.core c.val).pc = x.pc + 4 ∧ (t.core c.val).g = x.g ∧
        (t.core c.val).instret = x.instret + 1 ∧
        ∀ d, d ≠ c.val → t.core d = { s.core d with notice := (t.core d).notice, more := (t.core d).more }))

/-- R80, R81, R96, R106: what each CSR reads as and what CSRRW, CSRRS and CSRRC write to it, in S or K mode: rd takes the old value, and
the bits a CSR does not let software write stay. A CSR that the profile does not have raises 4; WDKICK reloads the watchdog.
The model's readings in it: log entry 32. -/
def Obligations.CsrReadsAndWrites : Prop :=
  ∀ (s : State) (c : Fin 13) (pf : BitVec 4) (rd ra : BitVec 5) (csr : BitVec 12), s.Executes c pf → (s.core c.val).mode ≠ 0 →
    let x := s.core c.val
    let v := x.rg ra.toNat
    let n := csr.toNat
    let t := decide (8 ≤ c.val ∧ c.val < 12)
    let common : List (Nat × DWord × (DWord → CoreSt)) := [
      (0x000, x.status, fun w => { x with status := (x.status &&& 0x1C) ||| (w &&& 3) }),
      (0x006, x.scratch0, fun w => { x with scratch0 := w }), (0x007, x.scratch1, fun w => { x with scratch1 := w }),
      (0x010, BitVec.ofNat 64 (c.val + 256 * (if c.val < 8 then 0 else if c.val < 12 then 1 else 2)), fun _ => x),
      (0x020, BitVec.ofNat 64 (x.cyc / 5), fun _ => x), (0x021, BitVec.ofNat 64 x.instret, fun _ => x),
      (0x022, s.reg R.TICK_COUNT_HI ++ s.reg R.TICK_COUNT_LO, fun _ => x),
      (0x031, ((x.preds ||| 1).zeroExtend 64), fun w => { x with preds := w.extractLsb' 0 8 ||| 1 })]
    let notT : List (Nat × DWord × (DWord → CoreSt)) := [
      (0x001, x.estatus, fun w => { x with estatus := w }), (0x002, x.epc, fun w => { x with epc := w }), (0x003, x.ecause, fun _ => x),
      (0x004, x.eval, fun _ => x), (0x005, x.evec, fun w => { x with evec := w &&& ~~~0xFF }), (0x008, x.nepc, fun w => { x with nepc := w }),
      (0x009, x.nstatus, fun w => { x with nstatus := w })]
    let csrs := if t then common else common ++ notT
    (∀ e ∈ csrs, n = e.1 →
      exec (.csrrw c pf rd ra csr) s = .next (s.ran c.val ((e.2.2 v).setRg rd.toNat e.2.1)) ∧
      exec (.csrrs c pf rd ra csr) s = .next (s.ran c.val ((if ra = 0 then x else e.2.2 (e.2.1 ||| v)).setRg rd.toNat e.2.1)) ∧
      exec (.csrrc c pf rd ra csr) s = .next (s.ran c.val ((if ra = 0 then x else e.2.2 (e.2.1 &&& ~~~v)).setRg rd.toNat e.2.1))) ∧
    (c.val < 8 → ∀ i ∈ [Instr.wdkick c pf rd ra, .csrrw c pf rd ra 0x030],
      let u := if x.wdRun then s else s.setFld (F.ICTL_WDOG_STAT_REMAIN c.val) (s.wdTimeout c.val)
      exec i s = .next ((u.setFld (F.ICTL_WDOG_STAT_WARNED c.val) 0).ran c.val ({ x with wdLoad := s.time.clk }.setRg rd.toNat 0))) ∧
    ((csrs.any (fun e => e.1 == n) || (decide (c.val < 8) && n == 0x030)) = false →
      ∀ i ∈ [Instr.csrrw c pf rd ra csr, .csrrs c pf rd ra csr, .csrrc c pf rd ra csr], ∃ w, exec i s = .next (s.raise c.val 4 w))

/-- R84 to R86, R394: what a core takes at an instruction boundary. A pending NMI goes to EVEC + 0x100 with NSTATUS and NEPC; else, with
interrupts on, a write notice (whose address is EVAL) or an external interrupt goes to EVEC + 0x080. STORE_NOTICE checks the oldest waiting
store: one to on-chip SRAM that is permitted is written, one that waits for DRAM goes on waiting, one that is refused is dropped and becomes a notice. CACHE_WRITEBACK writes a
dirty line back, in poison form where a sector was poisoned or is found uncorrectable (R369), and waits while a frequency change runs (R355).
The model's readings in it: log entries 15, 23 and 31. -/
def Obligations.BoundaryEntries : Prop :=
  ∀ (s : State) (c : Fin 13) (k : Fin 8) (r : LineRun), s.pwr.phase = .run →
    let b := r.blk.toNat * 64
    let x := s.core c.val
    let y := s.core k.val
    let mode := if c.val = 12 then 3 else 1
    (¬(8 ≤ c.val ∧ c.val < 12) → s.executing c.val = true →
      (x.nmi = true → x.nmil = false → Gives (.nmiEntry c) s fun t => ∃ z, t = s.setCore c.val z ∧ z.nstatus = x.status ∧ z.nepc = x.pc ∧
        z.ecause = 0x8000000000000011 ∧ z.pc = x.evec + 0x100 ∧ z.nmil = true ∧ z.exl = x.exl ∧ z.ie = false ∧ z.mode = mode ∧ z.nmi = false ∧
        z = { x with nstatus := z.nstatus, nepc := z.nepc, ecause := z.ecause, eval := z.eval, status := z.status, pc := z.pc, nmi := z.nmi }) ∧
      (¬(x.nmi = true ∧ x.nmil = false) → x.ie = true → x.exl = false → x.nmil = false →
        (∀ a, x.notice = some a → Gives (.interruptEntry c) s fun t => ∃ z, t = s.setCore c.val z ∧ z.estatus = x.status ∧ z.epc = x.pc ∧
          z.ecause = (if x.more then 0xC000000000000012 else 0x8000000000000012) ∧ z.eval = a ∧ z.pc = x.evec + 0x80 ∧ z.exl = true ∧
          z.ie = false ∧ z.mode = mode ∧ z.notice = none ∧ z.more = false ∧
          z = { x with estatus := z.estatus, epc := z.epc, ecause := z.ecause, eval := z.eval, status := z.status, pc := z.pc,
                       notice := z.notice, more := z.more }) ∧
        (x.notice = none → s.external (if c.val = 12 then 8 else c.val) = true →
          Gives (.interruptEntry c) s fun t => ∃ z, t = s.setCore c.val z ∧ z.estatus = x.status ∧ z.epc = x.pc ∧
            z.ecause = 0x8000000000000010 ∧ z.pc = x.evec + 0x80 ∧ z.exl = true ∧ z.ie = false ∧ z.mode = mode ∧
            z = { x with estatus := z.estatus, epc := z.epc, ecause := z.ecause, eval := z.eval, status := z.status, pc := z.pc }))) ∧
    (∀ p ps, y.stores = p :: ps →
      ((s.regionN p.addr p.data.length).sram = true → (unitsOf .gen p.addr p.data.length).all (fun u => s.delta u == 0) = true → s.judge k.val p.addr = .permit →
        Gives (.storeNotice k) s fun t => t = { s.setCore k.val { y with stores := ps } with mem := t.mem, chk := t.chk, churn := t.churn } ∧
          (∀ i, i < p.data.length → t.byte (p.addr + i) = p.data.getD i 0) ∧ s.SameMemBut t p.addr p.data.length) ∧
      (s.dramWaits k.val p.addr = true → exec (.storeNotice k) s = .next s) ∧
      (∀ e, s.judge k.val p.addr = .refuse e → s.dramWaits k.val p.addr = false → Gives (.storeNotice k) s fun t => s.SameMemButLog t ∧ t.chk = s.chk ∧ t.lines = s.lines ∧
        t.core k.val = { y with stores := ps, notice := some (y.notice.getD (BitVec.ofNat 64 p.addr)), more := y.more || y.notice.isSome } ∧
        s.SameCoresBut t k.val)) ∧
    (∀ l, s.lineAt b = some l → l.writers.all (fun w => s.permits w l.base) = true → s.retired l.base = false → s.fc.stage ≠ .change →
      Gives (.cacheWriteback r) s fun t => t.lineAt b = none ∧ (∀ i, i < l.data.length → t.byte (b + i) = l.data.getD i 0) ∧
        t.delta b = (if l.bad0 || r.lost.contains 0 then 0xA5A5A5A5 else 0) ∧ t.delta (b + 32) = (if l.bad1 || r.lost.contains 1 then 0xA5A5A5A5 else 0) ∧
        s.SameMemBut t b l.data.length ∧
        t = { s with lines := t.lines, mem := t.mem, chk := t.chk, churn := t.churn, wq := t.wq, ddr := t.ddr, regs := t.regs }) ∧
    (s.waits .dram = true → exec (.cacheWriteback r) s = .next s)

/-! ### Interrupt controller, watchdogs, tick sequencers -/

/-- R91 to R94: ICTL_SWI_SET asserts a software line from 256 to 1,023 in bits [9:0] and discards any other value; a write to ICTL_PEND_k, k from 8, clears
the bits written as 1, and below 8 changes nothing; a claim by its own target returns the claimable line of highest PRIO, the lowest number
among those, puts it in service and withdraws a software line; without one, or by another master, it returns NONE and changes nothing; a
write of a line to ICTL_DONE by its own target ends the line's service there. -/
def Obligations.InterruptController : Prop :=
  ∀ (s : State) (m : Mst) (w : Word) (k : Fin 32) (t : Fin 9), s.pwr.phase = .run → (Tbl.wf rstOf s.regs : Bool) = true →
    let n := w.toNat
    let own := if t.val = 8 then 12 else t.val
    (s.MayWrite m R.ICTL_SWI_SET → exec (.ictlSwiSet m w) s = .next (State.taken
      (let l := n % 1024; if 256 ≤ l then s.setReg (R.ICTL_PEND (l / 32)) (s.reg (R.ICTL_PEND (l / 32)) ||| (1 <<< (l % 32))) else s))) ∧
    (s.MayWrite m (R.ICTL_PEND k.val) → exec (.ictlPendClear k m w) s = .next (State.taken
      (if 8 ≤ k.val then s.setReg (R.ICTL_PEND k.val) (s.reg (R.ICTL_PEND k.val) &&& ~~~w) else s))) ∧
    (m.toNat = own → (∃ l, l < 1024 ∧ s.claimable t.val l = true) →
      Gives (.ictlClaim t m) s fun u => ∃ l, u.resp = .value l ∧ l < 1024 ∧ s.claimable t.val l = true ∧
        (∀ j, j < 1024 → s.claimable t.val j = true →
          s.fld (F.ICTL_CFG_PRIO j) < s.fld (F.ICTL_CFG_PRIO l) ∨ (s.fld (F.ICTL_CFG_PRIO j) = s.fld (F.ICTL_CFG_PRIO l) ∧ l ≤ j)) ∧
        u.serv = s.serv ++ [(l, t.val)] ∧ (256 ≤ l → u.line l = false) ∧ u.claimable t.val l = false ∧
        s.SameRegsButTele u [R.ICTL_PEND (l / 32)] ∧ u = { s with regs := u.regs, serv := u.serv, resp := u.resp, time := { s.time with claimAt := u.time.claimAt } }) ∧
    ((m.toNat ≠ own ∨ ∀ l, s.claimable t.val l = false) → exec (.ictlClaim t m) s = .next { s with resp := .value (2 ^ 31) }) ∧
    (s.MayWrite m (R.ICTL_DONE t.val) → exec (.ictlDone t m w) s = .next (State.taken
      (if m.toNat = own then { s with serv := s.serv.filter (fun p => !(p.1 == n % 1024 && p.2 == t.val)) } else s)))

/-- R95, R96: a write of ICTL_WDOG_CTL with EN at 1 loads the watchdog, starts its count and clears WARNED and EXPIRED; with EN at 0 it stops
the count and keeps what is left. When half of TIMEOUT is left, WARNED is set and the core gets the NMI, once; when nothing is left, the
count stops, EXPIRED is set and, with ACTION at 1, the core halts with its ICTL_HALT.WD bit set.
The model's readings in it: log entry 42. -/
def Obligations.CoreWatchdogs : Prop :=
  ∀ (s : State) (c : Fin 8) (m : Mst) (w : Word), s.pwr.phase = .run →
    let off := R.ICTL_WDOG_CTL c.val
    let k := c.val
    let t := s.written off w.toNat
    let t := t.setFld (F.ICTL_WDOG_STAT_EXPIRED k) 0
    let limit := max 2 (s.fld (F.ICTL_WDOG_CTL_TIMEOUT k))
    let at' (us : Nat) : State := s.advance ((s.core k).wdLoad + 500 * us - s.time.clk)
    (s.MayWrite m off → w.getLsbD 31 = true → exec (.appWdogCtlWrite c m w) s = .next (State.taken
      ((t.setCore k { s.core k with wdLoad := s.time.clk, wdRun := true }).setFld (F.ICTL_WDOG_STAT_WARNED k) 0))) ∧
    (s.MayWrite m off → w.getLsbD 31 = false → exec (.appWdogCtlWrite c m w) s = .next (State.taken
      ((t.setFld (F.ICTL_WDOG_STAT_REMAIN k) (s.wdRemain k)).setCore k { s.core k with wdRun := false }))) ∧
    ((s.core k).wdRun = true → (s.core k).run ≠ .held →
      (s.fld (F.ICTL_WDOG_STAT_WARNED k) ≠ 1 → 
        let u := (at' (limit - limit / 2)).setFld (F.ICTL_WDOG_STAT_WARNED k) 1
        exec (.appWdogWarn c) s = .next (u.setCore k { u.core k with nmi := true })) ∧
      (s.fld (F.ICTL_WDOG_STAT_WARNED k) = 1 → exec (.appWdogWarn c) s = .next s) ∧
      Gives (.appWdogExpire c) s fun u =>
        let v := at' limit
        u.fld (F.ICTL_WDOG_STAT_REMAIN k) = 0 ∧ u.fld (F.ICTL_WDOG_STAT_EXPIRED k) = 1 ∧ (u.core k).wdRun = false ∧ u.hwLine 9 = true ∧
        (u.core k).run = (if v.bit (F.ICTL_WDOG_CTL_ACTION k) then .halted else (v.core k).run) ∧
        (v.bit (F.ICTL_WDOG_CTL_ACTION k) = true → u.reg R.ICTL_HALT = v.reg R.ICTL_HALT ||| (1 <<< (8 + k))) ∧
        v.SameCoresBut u k ∧ v.SameRegsBut u [R.ICTL_WDOG_STAT k, R.ICTL_HALT] ∧ u = { v with regs := u.regs, cores := u.cores })

/-- R97, R99 to R101, R117: a write that changes EN puts a sequencer without a fault in WAITING or OFF and abandons what it waits for; while
FAULT.VALID is 1 only the bit changes; clearing VALID puts it in WAITING or OFF by EN. A write to HEADS, LP or DESC is discarded with
CFG_REFUSED set while EN is 1, where it shares a member with another sequencer, and where its range ends beyond the pipes or descriptors. -/
def Obligations.SequencerControl : Prop :=
  ∀ (s : State) (m : Mst) (k : Fin 4) (w : Word), s.pwr.phase = .run →
    let n := k.val
    let ctl := s.written (R.TICK_SQ_CTL n) w.toNat
    let en := s.fld (F.TICK_SQ_CTL_EN n)
    let faulted := s.fld (F.TICK_SQ_FAULT_VALID n) = 1
    let enters (t : State) (st : Nat) : Out := .next (State.taken ((t.setWait n .none).setFld (F.TICK_SQ_STATUS_STATE n) st))
    let apart (b c b' c' : Nat) : Bool := decide (b + c ≤ b') || decide (b' + c' ≤ b) || c == 0 || c' == 0
    (s.MayWrite m (R.TICK_SQ_CTL n) → ∀ i ∈ [Instr.sqEnable m k w, .sqDisable m k w],
      (en = 0 → w.getLsbD 0 = true → ¬faulted → exec i s = enters ctl 1) ∧ (en = 1 → w.getLsbD 0 = false → ¬faulted → exec i s = enters ctl 0) ∧
      ((en = (w.getLsbD 0).toNat ∨ faulted) → exec i s = .next ctl.taken)) ∧
    (s.MayWrite m (R.TICK_SQ_FAULT n) →
      let t := s.written (R.TICK_SQ_FAULT n) w.toNat
      (faulted → w.getLsbD 31 = true → t.fld (F.TICK_SQ_FAULT_VALID n) = 0 ∧ exec (.sqFaultClear m k w) s = enters t en) ∧
      ((¬faulted ∨ w.getLsbD 31 = false) → exec (.sqFaultClear m k w) s = .next t.taken)) ∧
    (∀ kind : Fin 3,
      let off := if kind = 0 then R.TICK_SQ_HEADS n else if kind = 1 then R.TICK_SQ_LP n else R.TICK_SQ_DESC n
      let base := if kind = 1 then bits w.toNat 8 0 else bits w.toNat 13 0
      let count := if kind = 1 then bits w.toNat 24 16 else bits w.toNat 30 16
      let free : Bool :=
        if kind = 0 then decide (∀ j : Fin 4, j ≠ k → w &&& s.reg (R.TICK_SQ_HEADS j.val) = 0)
        else if kind = 1 then decide (base + count ≤ 384) && decide (∀ j : Fin 4, j ≠ k →
          apart base count (s.fld (F.TICK_SQ_LP_BASE j.val)) (s.fld (F.TICK_SQ_LP_COUNT j.val)) = true)
        else decide (base + count ≤ 16384) && decide (∀ j : Fin 4, j ≠ k →
          apart base count (s.fld (F.TICK_SQ_DESC_BASE j.val)) (s.fld (F.TICK_SQ_DESC_COUNT j.val)) = true)
      s.MayWrite m off →
      (en = 1 → exec (.sqOwnershipWrite m k kind w) s = .next ((s.setFld F.TICK_STATUS_CFG_REFUSED 1).taken)) ∧
      (en = 0 → free = false → exec (.sqOwnershipWrite m k kind w) s = .next ((s.setFld F.TICK_STATUS_CFG_REFUSED 1).taken)) ∧
      (en = 0 → free = true → exec (.sqOwnershipWrite m k kind w) s = .next ((s.written off w.toNat).taken)))

/-! ### The T profile -/

/-- R106 to R108, R115: WAIT.TICK puts its sequencer in WAITING at the instruction; INBOX reads eight bytes of the inbox of the latest
release, raises 8 for an offset that is no multiple of 8 and 0x21 for one beyond 16,383; LDSC copies 64 bytes of the sequencer's own SRAM
into a descriptor it owns, and raises 0x20 for one it does not own, 8 for a misaligned source and 10 for one outside that SRAM; LOG.EV
gives the Logbook an event of type 0x8000 + imm12 with four registers as payload, which joins the queue unless it folds or is lost.
The model's readings in it: log entries 27 and 29. -/
def Obligations.TickWaitInboxDescriptorsLog : Prop :=
  ∀ (s : State) (c : Fin 13) (pf : BitVec 4) (rd ra rb : BitVec 5) (imm : BitVec 12), s.Executes c pf → 8 ≤ c.val → c.val < 12 →
    let k := c.val - 8
    let x := s.core c.val
    let a := x.rg ra.toNat
    let o := a + imm.signExtend 64
    let e := x.rg rb.toNat
    let own := 0x4300000000 + k * 0x40000
    let inOwn := decide (own ≤ a.toNat) && decide (a.toNat < own + 0x40000)
    let base := s.fld (F.TICK_SQ_DESC_BASE k)
    let owned := decide (base ≤ e.toNat) && decide (e.toNat < base + s.fld (F.TICK_SQ_DESC_COUNT k))
    (exec (.waitTick c pf 0) s = .next { (s.setWait k .tick).setFld (F.TICK_SQ_STATUS_STATE k) 1 with
      sqReached := Tbl.set (fun _ => 0) s.sqReached k s.time.clk }) ∧
    (o.toNat % 8 = 0 → o.toNat < 16384 →
      exec (.inbox c pf rd ra imm) s = .next (s.ran c.val (x.setRg rd.toNat (word64 (Tbl.get (fun _ => 0) s.inboxCur) o.toNat)))) ∧
    (o.toNat % 8 ≠ 0 → exec (.inbox c pf rd ra imm) s = .next (s.raise c.val 8 o)) ∧
    (o.toNat % 8 = 0 → 16384 ≤ o.toNat → exec (.inbox c pf rd ra imm) s = .next (s.raise c.val 0x21 o)) ∧
    (a.toNat % 64 = 0 → inOwn = true → owned = true → (unitsOf .seq a.toNat 64).all (fun u => s.delta u == 0) = true →
      exec (.ldsc c pf 0 ra rb 0) s =
        .next ({ s with desc := Tbl.set (fun _ => List.replicate 64 0) s.desc e.toNat (s.bytes a.toNat 64) }.ran c.val x)) ∧
    (a.toNat % 64 = 0 → inOwn = true → owned = false → exec (.ldsc c pf 0 ra rb 0) s = .next (s.raise c.val 0x20 e)) ∧
    (a.toNat % 64 ≠ 0 → exec (.ldsc c pf 0 ra rb 0) s = .next (s.raise c.val 8 a)) ∧
    (a.toNat % 64 = 0 → inOwn = false → exec (.ldsc c pf 0 ra rb 0) s = .next (s.raise c.val 10 a)) ∧
    (rd.toNat % 4 = 0 →
      let ev : LogEv := { typ := 0x8000 + imm.toNat, master := c.val, payload := x.group rd.toNat, time := s.nowNs % 2 ^ 64,
                          last := s.nowNs % 2 ^ 64, fold := true }
      let tail := if s.log.queue.isEmpty then s.log.newest else s.log.queue.getLast?
      (∀ t, tail = some t → ev.folds t = false) → s.log.queue.length < 64 →
        exec (.logEv c pf rd 0 imm) s = .next ({ s with log := { s.log with queue := s.log.queue ++ [ev] } }.ran c.val x))

/-- R97, R109 to R112: chambers of the own sequencer. OPEN empties one that is not armed; ADD puts a member in it, in place of one of the
same pipe, when the word is well formed, at most 64 members on 8 heads result and head, pipe and (unless it detaches) descriptor are owned;
STAT reads its state; CANCEL disarms it and tells whether it was armed; FLIP arms one with members for the tick in rb. A chamber number
from 256 raises 0x22, one of another sequencer 0x20, an armed chamber 0x22.
The model's readings in it: log entries 29 and 30. -/
def Obligations.Chambers : Prop :=
  ∀ (s : State) (c : Fin 13) (pf : BitVec 4) (rd ra rb : BitVec 5), s.Executes c pf → 8 ≤ c.val → c.val < 12 →
    let k := c.val - 8
    let x := s.core c.val
    let n := (x.rg ra.toNat).toNat
    let w := (x.rg rb.toNat).toNat
    let ch := s.cham n
    let puts (y : Chamber) (z : CoreSt) : Out := .next ((s.setCham n y).ran c.val z)
    let faults (q : Nat) : Out := .next (s.raise c.val q (x.rg ra.toNat))
    let all := [Instr.chamOpen c pf 0 ra 0, .chamAdd c pf (2 * rd) ra rb, .chamStat c pf rd ra 0, .chamCancel c pf rd ra 0, .flip c pf 0 ra rb 0]
    (256 ≤ n → ∀ i ∈ all, exec i s = faults 0x22) ∧
    (n < 256 → n / 64 ≠ k → ∀ i ∈ all, exec i s = faults 0x20) ∧
    (n / 64 = k → n < 256 →
      exec (.chamStat c pf rd ra 0) s = .next (s.ran c.val (x.setRg rd.toNat (BitVec.ofNat 64 (ch.armed.toNat + 2 * ch.passed.toNat +
        256 * ch.members.length + 65536 * (((ch.last.map (·.1)).getD 0) % 2 ^ 48))))) ∧
      exec (.chamCancel c pf rd ra 0) s = puts { ch with armed := false } (x.setRg rd.toNat (if ch.armed then 1 else 0)) ∧
      (ch.armed = true → ∀ i ∈ [Instr.chamOpen c pf 0 ra 0, .chamAdd c pf (2 * rd) ra rb, .flip c pf 0 ra rb 0], exec i s = faults 0x22) ∧
      (ch.armed = false →
        exec (.chamOpen c pf 0 ra 0) s = puts { ch with members := [] } x ∧
        (ch.members = [] → exec (.flip c pf 0 ra rb 0) s = faults 0x22) ∧
        (ch.members ≠ [] → exec (.flip c pf 0 ra rb 0) s =
          .next ({ s.setCham n { ch with armed := true, target := w, order := s.flips, after := 0, passed := false } with flips := s.flips + 1 }.ran
            c.val x)) ∧
        (let lp := bits w 24 16
         let h := bits w 36 32
         let d := bits w 13 0
         let detach := bits w 48 48 == 1
         let rest := ch.members.filter (fun m => m.lp != lp)
         let m : Member := ⟨Tbl.get (fun _ => List.replicate 64 0) s.desc d, d, lp, h, bits w 43 40, detach,
           if 2 * rd = 0 then none else some ((x.rg (2 * rd).toNat).toNat, (x.rg ((2 * rd).toNat + 1)).toNat)⟩
         let formed := bits w 15 14 = 0 ∧ bits w 31 25 = 0 ∧ bits w 39 37 = 0 ∧ bits w 47 44 = 0 ∧ bits w 63 49 = 0 ∧ lp < 384 ∧
           rest.length < 64 ∧ (rest.map (·.head) ++ [h]).eraseDups.length ≤ 8
         let owned := s.ownsHead k h = true ∧ s.ownsLp k lp = true ∧ (detach = true ∨ s.ownsDesc k d = true)
         (¬formed → exec (.chamAdd c pf (2 * rd) ra rb) s = faults 0x22) ∧
         (formed → ¬owned → exec (.chamAdd c pf (2 * rd) ra rb) s = .next (s.raise c.val 0x20 (x.rg rb.toNat))) ∧
         (formed → owned → exec (.chamAdd c pf (2 * rd) ra rb) s = puts { ch with members := rest ++ [m] } x))))

/-- R69, R113: FWAIT goes on at once when the word at ra is at least rb and else stalls its sequencer, FWAIT_COMPLETE lets it go on when the
word has got there and changes nothing before; FSIG raises a word of on-chip SRAM to rb if it is less and gives the old value.
The model's readings in it: log entry 28. -/
def Obligations.FenceWaitAndSignal : Prop :=
  ∀ (s : State) (c : Fin 13) (pf : BitVec 4) (rd ra rb : BitVec 5), 8 ≤ c.val → c.val < 12 →
    let k := c.val - 8
    let x := s.core c.val
    let a := x.rg ra.toNat
    let v := x.rg rb.toNat
    (s.Executes c pf → a.toNat % 8 = 0 → s.PlainSram c.val a.toNat 8 →
      (v.toNat ≤ (s.mem64 a.toNat).toNat → exec (.fwait c pf 0 ra rb 0) s = .next (s.ran c.val x)) ∧
      (¬v.toNat ≤ (s.mem64 a.toNat).toNat → exec (.fwait c pf 0 ra rb 0) s =
        .next ((s.setWait k (.fwait a.toNat v.toNat)).setFld (F.TICK_SQ_STATUS_STATE k) 3)) ∧
      (s.region a.toNat ∈ [.gen, .seq, .island] → s.judge c.val a.toNat = .permit →
        Gives (.fsig c pf rd ra rb 0) s fun t => t.core c.val = (s.ran c.val (x.setRg rd.toNat (s.mem64 a.toNat))).core c.val ∧
          s.SameCoresBut t c.val ∧ t.mem64 a.toNat = (if (s.mem64 a.toNat).ult v then v else s.mem64 a.toNat) ∧ s.SameMemBut t a.toNat 8 ∧
          t = { s with cores := t.cores, mem := t.mem, chk := t.chk, churn := t.churn })) ∧
    (s.Executes c pf → a.toNat % 8 ≠ 0 → exec (.fwait c pf 0 ra rb 0) s = .next (s.raise c.val 8 a)) ∧
    (∀ (f : Nat) (y : Nat), s.pwr.phase = .run → s.waitOf k = .fwait f y → f % 8 = 0 → f < 2 ^ 64 → s.PlainSram c.val f 8 →
      let i := Instr.fwaitComplete (BitVec.ofNat 2 k).toFin
      (y ≤ (s.mem64 f).toNat → exec i s = .next (((s.setWait k .none).setFld (F.TICK_SQ_STATUS_STATE k) 2).ran c.val x)) ∧
      (¬y ≤ (s.mem64 f).toNat → exec i s = .next s))

/-- R114, R207, R240: KDEC and KENC give the job record at rb to the engine of context ra: it joins the engine's queue while that has
room (an idle decode engine then takes its next access unit), is merged while the context is orphaned, is dropped while the context is off, and
waits, the sequencer stalled, while the queue is full, which KICK_QUEUE_FREE ends. A context number beyond the last raises 0x23. -/
def Obligations.EngineKicks : Prop :=
  ∀ (s : State) (c : Fin 13) (pf : BitVec 4) (ra rb : BitVec 5), 8 ≤ c.val → c.val < 12 →
    let k := c.val - 8
    let x := s.core c.val
    let i := (x.rg ra.toNat).toNat
    let a := (x.rg rb.toNat).toNat
    let own := 0x4300000000 + k * 0x40000
    let d := s.bytes a 64
    let n := s.ctxEngine i
    let j := s.decJob i d
    let ne := s.encEngine i
    let je := s.encJob i d
    (s.Executes c pf → a % 64 = 0 → own ≤ a → a < own + 0x40000 → (unitsOf .seq a 64).all (fun u => s.delta u == 0) = true →
      (i < 128 → s.fld (F.DEC_CTX_CTL_EN i) ≠ 1 → exec (.kdec c pf 0 ra rb 0) s = .next (s.ran c.val x)) ∧
      (i < 128 → s.fld (F.DEC_CTX_CTL_EN i) = 1 → s.ctxState i = 5 →
        exec (.kdec c pf 0 ra rb 0) s = .next ((s.setDc i { s.dc i with pend := mergeJob (s.dc i).pend j }).ran c.val x)) ∧
      (i < 128 → s.fld (F.DEC_CTX_CTL_EN i) = 1 → s.ctxState i ≠ 5 → (s.de n).queue.length < 16 →
        let t := s.setDe n { s.de n with queue := (s.de n).queue ++ [j] }
        exec (.kdec c pf 0 ra rb 0) s =
          .next (((if s.ctxState i = 2 then t.setFld (F.DEC_CTX_STATUS_STATE i) 3 else t).decSched n).ran c.val x)) ∧
      (i < 128 → s.fld (F.DEC_CTX_CTL_EN i) = 1 → s.ctxState i ≠ 5 → 16 ≤ (s.de n).queue.length →
        exec (.kdec c pf 0 ra rb 0) s = .next ((s.setWait k (.kick true i d)).setFld (F.TICK_SQ_STATUS_STATE k) 3)) ∧
      (128 ≤ i → exec (.kdec c pf 0 ra rb 0) s = .next (s.raise c.val 0x23 (x.rg ra.toNat))) ∧
      (i < 32 → s.fld (F.ENC_CTX_CTL_EN i) ≠ 1 → exec (.kenc c pf 0 ra rb 0) s = .next (s.ran c.val x)) ∧
      (i < 32 → s.fld (F.ENC_CTX_CTL_EN i) = 1 → s.encState i = 5 →
        exec (.kenc c pf 0 ra rb 0) s = .next ((s.setEc i { s.ec i with pend := mergeEnc (s.ec i).pend je }).ran c.val x)) ∧
      (i < 32 → s.fld (F.ENC_CTX_CTL_EN i) = 1 → s.encState i ≠ 5 → (s.ee ne).queue.length < 16 →
        let t := s.setEe ne { s.ee ne with queue := (s.ee ne).queue ++ [je] }
        exec (.kenc c pf 0 ra rb 0) s =
          .next ((if s.encState i = 1 then t.setFld (F.ENC_CTX_STATUS_STATE i) 2 else t).ran c.val x)) ∧
      (i < 32 → s.fld (F.ENC_CTX_CTL_EN i) = 1 → s.encState i ≠ 5 → 16 ≤ (s.ee ne).queue.length →
        exec (.kenc c pf 0 ra rb 0) s = .next ((s.setWait k (.kick false i d)).setFld (F.TICK_SQ_STATUS_STATE k) 3)) ∧
      (32 ≤ i → exec (.kenc c pf 0 ra rb 0) s = .next (s.raise c.val 0x23 (x.rg ra.toNat)))) ∧
    (∀ q r, q < 32 → s.pwr.phase = .run → s.waitOf k = .kick false q r → s.fld (F.ENC_CTX_CTL_EN q) = 1 → s.encState q ≠ 5 →
      let f := Instr.kickQueueFree (BitVec.ofNat 2 k).toFin
      (16 ≤ (s.ee (s.encEngine q)).queue.length → exec f s = .next s) ∧
      ((s.ee (s.encEngine q)).queue.length < 16 → Gives f s fun t => t.waitOf k = .none ∧ t.fld (F.TICK_SQ_STATUS_STATE k) = 2 ∧
        (t.ee (s.encEngine q)).queue = (s.ee (s.encEngine q)).queue ++ [s.encJob q r] ∧
        t.core c.val = { x with pc := x.pc + 4, instret := x.instret + 1 } ∧ s.SameCoresBut t c.val ∧
        t = { s with regs := t.regs, eeng := t.eeng, cores := t.cores, sqWait := t.sqWait }))

/-! ### Time and tick -/

/-- R25, R26: one clock of REFCLK adds one to the clock count and, while the core domain runs, 2 × (1 + RATE × 2^-40) ns to the counter in
units of 2^-40 ns; with no command waiting a step is one clock (DESIGN CHOICE, log entry 3), and changes only the time, the counters of
telemetry and of the link tests, the patterns that those send and check, and CYCLE of the cores: a register outside the telemetry block other
than the status and the counters of a link test reads as before. -/
def Obligations.IdleStepIsOneClock : Prop :=
  ∀ (s : State), s.pending = [] →
    ∃ t, step s = .next t ∧ t.time.clk = s.time.clk + 1 ∧
      t.time.now = (if s.pwr.phase = .run then s.time.now + (2 * (2 ^ 40 + (s.reg R.TIME_RATE).toInt)).toNat else s.time.now) ∧
      t.time = { s.time with now := t.time.now, clk := t.time.clk, claimAt := t.time.claimAt, metAt := t.time.metAt } ∧
      (∀ c, t.core c = { s.core c with cyc := (t.core c).cyc }) ∧
      (∀ o, o / 0x10000 ≠ 7 → (∀ (q : Fin 24) (i : Fin 4), o ∉ [R.BL_TEST_STAT q.val, R.BL_TEST_BITS_LO q.val, R.BL_TEST_BITS_HI q.val,
        R.BL_TEST_ERR q.val i.val, R.BL_EYE_BITS q.val, R.BL_EYE_ERR q.val]) → t.reg o = s.reg o ∧ t.lreg o = s.lreg o) ∧
      t = { s with time := t.time, regs := t.regs, tests := t.tests, cores := t.cores }

/-- R28: a read of a time register whose read latches those after it returns the register as it is and latches the next ones for that
master; a read of a latched register returns what the master latched; any other read in register space with no function of its own returns
the register, that of a check-value unit's value or result once the unit has acted on what it was given. A read outside the registers is a bus
error.
The model's readings in it: log entries 33 and 34. -/
def Obligations.RegisterReads : Prop :=
  ∀ (s : State) (m : Mst) (off : BitVec 24), s.pwr.phase = .run →
    let o := off.toNat
    let rd := exec (.timeTripleRead m off) s
    (s.inboxAt o = none → rowAt o = none → rd = .next { s with resp := .busError }) ∧
    (∀ w, s.inboxAt o = some w → rd = .next { s with resp := .value w.toNat }) ∧
    (s.inboxAt o = none → (rowAt o).isSome = true → latchedAt o = true → rd = .next { s with resp := .value (s.getLatch m.toNat o).toNat }) ∧
    (s.inboxAt o = none → (rowAt o).isSome = true → latchedAt o = false → (∀ t : Fin 9, o ≠ R.ICTL_CLAIM t.val) → (∀ u : Fin 2, o ≠ R.MGMT_UART_RX u.val) →
      let u := s.readWait o
      ((∀ n : Fin 16, (o = R.CVU_VALUE n.val ∨ o = R.CVU_RESULT n.val) → s.cvuLeft n.val = []) → u = s) ∧
      Gives (.timeTripleRead m off) s fun t => t.resp = .value (u.viewAt o).toNat ∧ t = { u with latch := t.latch, resp := t.resp } ∧
        (∀ i, 1 ≤ i → i ≤ latchWords o → t.getLatch m.toNat (o + 4 * i) = u.viewAt (o + 4 * i)) ∧
        (∀ (m' : Mst) p, p < 2 ^ 24 + 8 → (m' ≠ m ∨ ∀ i, 1 ≤ i → i ≤ latchWords o → p ≠ o + 4 * i) → t.getLatch m'.toNat p = s.getLatch m'.toNat p)) ∧
    (o = R.TIME_NOW_0 → ∃ t u v, exec (.timeTripleRead m off) s = .next t ∧ exec (.timeTripleRead m (off + 4)) t = .next u ∧
      exec (.timeTripleRead m (off + 8)) u = .next v ∧ ∃ a b c, t.resp = .value a ∧ u.resp = .value b ∧ v.resp = .value c ∧
        a + 2 ^ 32 * b + 2 ^ 64 * c = s.nowTriple % 2 ^ 96)

/-- R29, R31, R34, R35: writes of the TIME block. LOAD sets the counter in ACQUIRE and is refused otherwise or with more than 999,999,999 ns;
a step is added at once in ACQUIRE and while the tick stands still, waits while it runs, and is refused beyond 10 µs outside ACQUIRE;
GO at 0 disarms it; RATE and TRACK take the reference point of holdover and enter TRACK, a longer HOLD_TIMEOUT ends HOLDOVER, and TRACK cannot
be cleared while RUN is 1. A load or step moves the counter and not the instants at which running heads begin their lines.
The model's readings in it: log entry 20. -/
def Obligations.TimeWrites : Prop :=
  ∀ (s : State) (m : Mst) (w : Word) (frac : BitVec 16), s.pwr.phase = .run →
    let st := s.fld F.TIME_STATUS_STATE
    let v : BitVec 96 := s.reg (R.TIME_SET_0 + 8) ++ s.reg (R.TIME_SET_0 + 4) ++ s.reg R.TIME_SET_0
    let d : Int := (s.reg R.TIME_STEP_NS).toInt * 65536 + frac.toNat
    let arm := s.written R.TIME_STEP_CTL (2 ^ 31 + frac.toNat)
    let z : Int := s.time.now + d * 2 ^ 24
    let added := (({ arm with time := { s.time with armed := none } }).setNow (if 0 ≤ z then z.toNat else Config.timeBelowZero z)).setFlds
      [(F.TIME_STEP_CTL_GO, 0), (F.TIME_STATUS_STEP_DONE, 1)]
    let rate := s.written R.TIME_RATE w.toNat
    let ctl := s.written R.TIME_CTRL w.toNat
    (∀ n, (s.setNow n).time = { s.time with now := n } ∧ s.setNow n = { s with time := (s.setNow n).time, heads := (s.setNow n).heads } ∧
      ∀ h, h < 32 → (s.setNow n).hd h = (if s.headState h = 0 then s.hd h else
        let j : Int := (n : Int) - s.time.now
        { s.hd h with skewT := (s.hd h).skewT + j, quietAt := ((((s.hd h).quietAt * 2 ^ 40 : Nat) + j) / 2 ^ 40).toNat,
                      startNs := ((((s.hd h).startNs * 2 ^ 40 : Nat) + j) / 2 ^ 40).toNat })) ∧
    (s.MayWrite m R.TIME_LOAD →
      (w.getLsbD 0 = false → exec (.timeLoad m w) s = .next s.taken) ∧
      (w.getLsbD 0 = true → st = 0 → (v.extractLsb' 16 32).toNat ≤ 999999999 → exec (.timeLoad m w) s = .next (State.taken
        ((s.setNow (((v.extractLsb' 48 48).toNat * 1000000000 + (v.extractLsb' 16 32).toNat) * 2 ^ 40)).setFld F.TIME_STATUS_STEP_DONE 1))) ∧
      (w.getLsbD 0 = true → ¬(st = 0 ∧ (v.extractLsb' 16 32).toNat ≤ 999999999) →
        exec (.timeLoad m w) s = .next ((s.setFld F.TIME_STATUS_STEP_REFUSED 1).taken))) ∧
    (s.MayWrite m R.TIME_STEP_CTL →
      ((st = 0 ∨ (d.natAbs ≤ 10000 * 65536 ∧ s.bit F.TICK_STATUS_RUNNING = false)) → exec (.timeStepArm m frac) s = .next added.taken) ∧
      (st ≠ 0 → 10000 * 65536 < d.natAbs → exec (.timeStepArm m frac) s = .next (State.taken
        (({ arm with time := { s.time with armed := none } }).setFlds [(F.TIME_STEP_CTL_GO, 0), (F.TIME_STATUS_STEP_REFUSED, 1)]))) ∧
      (st ≠ 0 → d.natAbs ≤ 10000 * 65536 → s.bit F.TICK_STATUS_RUNNING = true →
        exec (.timeStepArm m frac) s = .next (State.taken { arm with time := { s.time with armed := some d } })) ∧
      exec (.timeStepDisarm m frac) s = .next (State.taken
        { s.written R.TIME_STEP_CTL frac.toNat with time := { s.time with armed := none } })) ∧
    (s.MayWrite m R.TIME_RATE → exec (.timeRateWrite m w) s = .next (State.taken
      (if s.fld F.TIME_CTRL_TRACK = 1 then ({ rate with time := { s.time with holdRef := s.time.clk } }).setFld F.TIME_STATUS_STATE 1
       else { rate with time := { s.time with holdRef := s.time.clk } }))) ∧
    (s.MayWrite m R.TIME_CTRL →
      let was := s.fld F.TIME_CTRL_TRACK = 1
      (w.getLsbD 16 = true → ¬was → exec (.timeTrackWrite m w) s = .next (State.taken
        (({ ctl with time := { s.time with holdRef := s.time.clk } }).setFld F.TIME_STATUS_STATE 1))) ∧
      (let limit := ctl.fld F.TIME_CTRL_HOLD_TIMEOUT
        let tracks (t : State) : State :=
          if st = 2 ∧ (limit = 0 ∨ s.time.clk < s.time.holdRef + limit * 500000) then t.setFld F.TIME_STATUS_STATE 1 else t
        (w.getLsbD 16 = true → was → exec (.timeTrackWrite m w) s = .next (State.taken (tracks ctl))) ∧
        (w.getLsbD 16 = false → was → s.bit F.TICK_CTRL_RUN = true → exec (.timeTrackWrite m w) s = .next (State.taken
          (tracks (ctl.setFlds [(F.TIME_CTRL_TRACK, 1), (F.TICK_STATUS_CFG_REFUSED, 1)]))))) ∧
      (w.getLsbD 16 = false → ¬(was ∧ s.bit F.TICK_CTRL_RUN = true) → exec (.timeTrackWrite m w) s = .next (State.taken
        (ctl.setFld F.TIME_STATUS_STATE 0))))

/-- R31, R32, R37, R38: HOLD_TIMEOUT ms after the reference point a tracking clock enters HOLDOVER; TS_POP takes the oldest timestamp of the
FIFO into the TIME_TS registers, or clears VALID when there is none; an edge of PPS_IN `wait` ns later is captured in whole ns less PPS LAT when it is selected, the
level before it held 100 ns and 500 ms have passed since the last one captured, and is otherwise only seen as the pin's level.
The model's readings in it: log entry 41. -/
def Obligations.TimeEvents : Prop :=
  ∀ (s : State) (m : Mst) (w : Word) (wait : Nat), s.pwr.phase = .run →
    let limit := s.fld F.TIME_CTRL_HOLD_TIMEOUT
    (s.fld F.TIME_STATUS_STATE = 1 → limit ≠ 0 → exec .holdoverEnter s =
      .next ((s.advance (s.time.holdRef + limit * 500000 - s.time.clk)).setFld F.TIME_STATUS_STATE 2)) ∧
    (s.MayWrite m R.TIME_TS_POP → w.getLsbD 0 = true →
      (s.time.tsFifo = [] → exec (.tsPop m w) s = .next ((s.setFld F.TIME_TS_INFO_VALID 0).taken)) ∧
      (∀ e q, s.time.tsFifo = e :: q → q.length < 64 → Gives (.tsPop m w) s fun t => t.time = { s.time with tsFifo := q } ∧
        t.fld F.TIME_STATUS_TS_LEVEL = q.length ∧ t.fld F.TIME_TS_INFO_VALID = 1 ∧ t.fld F.TIME_TS_INFO_SEQ_ID = e.seqId % 65536 ∧
        t.fld F.TIME_TS_INFO_MSG_TYPE = e.msgType % 16 ∧
        t.reg96 R.TIME_TS_EV_0 = (e.ev / 65536000000000 * 2 ^ 48 + e.ev / 65536 % 1000000000 * 65536 + e.ev % 65536) % 2 ^ 96 ∧
        t.reg96 R.TIME_TS_ORG_0 = (e.orgSec * 2 ^ 48 + e.orgNs * 65536) % 2 ^ 96 ∧ t.resp = .ok ∧
        t = { s with time := t.time, regs := t.regs, resp := t.resp } ∧
        s.SameRegsBut t [R.TIME_STATUS, R.TIME_TS_INFO, R.TIME_TS_EV_0, R.TIME_TS_EV_0 + 4, R.TIME_TS_EV_0 + 8,
          R.TIME_TS_ORG_0, R.TIME_TS_ORG_0 + 4, R.TIME_TS_ORG_0 + 8])) ∧
    (let edge := max (2 * s.time.clk + wait) s.time.ppsSince
     let u := s.advance (edge / 2 - s.time.clk)
     let rise := !s.time.ppsLevel
     let seen : State := { u with time := { u.time with ppsLevel := rise, ppsSince := edge } }
     let taken := u.bit F.TIME_PPS_CTL_EN = true ∧ u.fld F.TIME_PPS_CTL_EDGE = (if rise then 0 else 1) ∧
       s.time.ppsSince + 100 ≤ edge ∧ (∀ p, s.time.ppsLast = some p → p + 500000000 ≤ edge)
     let ns := (u.time.now + edge % 2 * u.timeInc / 2) / 2 ^ 40
     (¬taken → exec (.ppsEdge wait) s = .next seen) ∧
     (taken → u.fld F.TIME_PPS_CTL_LAT * 4096 ≤ ns * 65536 → Gives (.ppsEdge wait) s fun t =>
       let v := ns * 65536 - u.fld F.TIME_PPS_CTL_LAT * 4096
       t.time = { seen.time with ppsLast := some edge } ∧ t.fld F.TIME_STATUS_PPS_SEEN = 1 ∧
       t.reg96 R.TIME_PPS_0 = (v / 65536000000000 * 2 ^ 48 + v / 65536 % 1000000000 * 65536 + v % 65536) % 2 ^ 96 ∧
       t = { u with time := t.time, regs := t.regs } ∧
       u.SameRegsBut t [R.TIME_STATUS, R.TIME_PPS_0, R.TIME_PPS_0 + 4, R.TIME_PPS_0 + 8]))

/-- R40 to R42, R45: a rate outside 23.976 to 120 Hz, a change of rate or epoch while RUN is 1 and a phase of a frame time or more are
discarded with CFG_REFUSED, others taken; a head that still scans goes on from the start of its line in hand. RUN at 1 is taken in TRACK or HOLDOVER at or after the epoch; the first boundary is then the
first that lies at least 1 ms ahead. RUN at 0 clears RUNNING and TICK_LOCK, no boundary or midpoint comes.
The model's readings in it: log entry 40. -/
def Obligations.TickWrites : Prop :=
  ∀ (s : State) (m : Mst) (w : Word) (h : Fin 32) (i : Fin 3), s.pwr.phase = .run →
    let run := s.fld F.TICK_CTRL_RUN
    let refused : Out := .next ((s.setFld F.TICK_STATUS_CFG_REFUSED 1).taken)
    let num := bits w.toNat 15 0
    let den := bits w.toNat 31 16
    let ep := R.TICK_EPOCH_0 + 4 * i.val
    (s.MayWrite m R.TICK_RATE → exec (.tickRateWrite m w) s =
      (if run = 1 ∨ den = 0 ∨ num * 1000 < 23976 * den ∨ 120 * den < num then refused else .next (s.reAnchor (s.written R.TICK_RATE w.toNat)).taken)) ∧
    (s.MayWrite m ep → exec (.tickEpochWrite m i w) s = (if run = 1 then refused else .next (s.reAnchor (s.setReg ep w)).taken)) ∧
    (∀ t : State, let u := s.reAnchor t
      u = { t with heads := u.heads } ∧ ∀ h, h < 32 → u.hd h = (if t.headRuns h then { t.hd h with
        skewT := (t.hd h).skewT + ((s.lineAt40 h (t.hd h).line : Int) - t.lineAt40 h (t.hd h).line) } else t.hd h)) ∧
    (s.MayWrite m (R.TICK_HPHASE h.val) → exec (.tickHphaseWrite m h w) s =
      (if bits w.toNat 25 0 < s.tickNs / (if w.getLsbD 31 then 2 else 1) then .next ((s.written (R.TICK_HPHASE h.val) w.toNat).taken) else refused)) ∧
    (s.MayWrite m R.TICK_CTRL → run = 0 → w.getLsbD 0 = true →
      let t := s.written R.TICK_CTRL w.toNat
      ((s.fld F.TIME_STATUS_STATE = 0 ∨ s.time.now < s.epochNs * 2 ^ 40) → exec (.tickRunStart m w) s = .next (State.taken
        ((t.setFld F.TICK_CTRL_RUN 0).setFld F.TICK_STATUS_CFG_REFUSED 1))) ∧
      (s.fld F.TIME_STATUS_STATE ≠ 0 → s.epochNs * 2 ^ 40 ≤ s.time.now → s.tickDen ≠ 0 → ∃ n,
        exec (.tickRunStart m w) s = .next (State.taken { t with time := { s.time with nextN := some n }, pair := { s.pair with kicked := false } }) ∧
        s.time.now + 1000000 * 2 ^ 40 ≤ s.tickB n * 2 ^ 40 ∧ ∀ k, k < n → s.tickB k * 2 ^ 40 < s.time.now + 1000000 * 2 ^ 40)) ∧
    (s.MayWrite m R.TICK_CTRL → run = 1 → w.getLsbD 0 = false →
      Gives (.tickRunStop m w) s fun t => t.fld F.TICK_CTRL_RUN = 0 ∧ t.fld F.TICK_STATUS_RUNNING = 0 ∧ t.reg R.TICK_LOCK = 0 ∧
        t.time.nextN = none ∧ t.time.midDue = false ∧ t.time.armed = none ∧ t.resp = .ok ∧
        t = { s with regs := t.regs, mem := t.mem, time := t.time, log := t.log, layers := t.layers, heads := t.heads, wbs := t.wbs,
                     pair := t.pair, touch := t.touch, links := t.links, resp := t.resp })

/-- R35, R40, R47, R48, R107: the ticks. At boundary n the counter has reached B(n), TICK_COUNT reads n and TICK_NOMINAL B(n), RUNNING is 1,
the next boundary is n + 1 and the midpoint is to come; a sequencer that still runs or stalls goes to WAITING with its SQ_OVERRUN bit set. At
the midpoint M(n) an armed step is added. At the inbox release the counter has reached B(n) + 40 µs, the inbox that was current becomes the
previous one, TICK_NO of the new one is n, and sequencers that wait at WAIT.TICK go on behind it.
The model's readings in it: log entries 40 and 62. -/
def Obligations.TickEvents : Prop :=
  ∀ (s : State), s.pwr.phase = .run →
    (∀ n, s.time.nextN = some n → n < 2 ^ 64 → Gives .tickBoundary s fun t =>
      t.tickNo = n ∧ s.tickB n * 2 ^ 40 ≤ t.time.now ∧ t.time.nextN = some (n + 1) ∧ t.time.midDue = true ∧
      t.reg96 R.TICK_NOMINAL_0 = (s.tickB n / 1000000000 * 2 ^ 48 + s.tickB n % 1000000000 * 65536) % 2 ^ 96 ∧
      t.fld F.TICK_STATUS_RUNNING = 1 ∧ t.pair.deadlineDue = true ∧ t.pair.releaseDue = true ∧
      (s.pair.releaseDue = false → ∀ k : Fin 4, (s.fld (F.TICK_SQ_STATUS_STATE k.val) = 2 ∨ s.fld (F.TICK_SQ_STATUS_STATE k.val) = 3) →
        t.fld (F.TICK_SQ_STATUS_STATE k.val) = 1 ∧ t.bitAt F.TICK_STATUS_SQ_OVERRUN k.val = true ∧ t.waitOf k.val = .none)) ∧
    (s.time.midDue = true →
      let u := s.advance (if s.tickM s.tickNo * 2 ^ 40 ≤ s.time.now then 0 else ceilDiv (s.tickM s.tickNo * 2 ^ 40 - s.time.now) s.timeInc)
      let v : State := { u with time := { u.time with midDue := false } }
      (s.time.armed = none → exec .tickMidpoint s = .next v) ∧
      (∀ d, s.time.armed = some d → 0 ≤ (u.time.now : Int) + d * 2 ^ 24 → exec .tickMidpoint s = .next
        ((({ v with time := { v.time with armed := none } }).setNow ((u.time.now : Int) + d * 2 ^ 24).toNat).setFlds
          [(F.TIME_STEP_CTL_GO, 0), (F.TIME_STATUS_STEP_DONE, 1)]))) ∧
    (s.time.midDue = false → exec .tickMidpoint s = .next s) ∧
    (s.pair.releaseDue = true → Gives .inboxRelease s fun t =>
      (s.tickB s.tickNo + 40000) * 2 ^ 40 ≤ t.time.now ∧ t.inboxPrev = s.inboxCur ∧ t.pair.releaseDue = false ∧ t.pair.deadlineDue = false ∧
      (∀ j, j < 8 → Tbl.get (fun _ => 0) t.inboxCur j = BitVec.ofNat 8 (s.tickNo / 256 ^ j)) ∧
      (∀ j, j < 8 → Tbl.get (fun _ => 0) t.inboxCur (0x3FF8 + j) = BitVec.ofNat 8 (s.tickNo / 256 ^ j)) ∧
      (Tbl.get (fun _ => 0) t.inboxCur 8).getLsbD 0 = (t.fld F.STEP_STATUS_AGREED == 1) ∧
      t.pair.releases = s.pair.releases + 1 ∧
      ∀ k : Fin 4, s.fld (F.TICK_SQ_STATUS_STATE k.val) = 1 → t.fld (F.TICK_SQ_STATUS_STATE k.val) = 2 ∧ t.waitOf k.val = .none ∧
        (t.core (8 + k.val)).pc = (if s.waitOf k.val = .tick then (s.core (8 + k.val)).pc + 4
          else BitVec.ofNat 64 (0x4300000000 + k.val * 0x40000 + 4 * s.fld (F.TICK_SQ_RESTART_ADDR k.val))))

/-! ### Barge Link -/

/-- R134, R136 to R138, R369: an expected barge is accepted: EXPECT and the last SEQ accepted move on, its credits are released, a CREDIT with the
counts waits, and every sixteenth brings an ACK; a TYPE not known is then counted. Another SEQ, a bad barge and a framing error make the
receiver discard and send one NAK, and are counted and flagged, as are the errors that the link's buffers corrected or could not; nothing is taken while it discards, until ALIGN with START. A skew change
and DESKEW_LOSS retrain the quad, which keeps its sequence and its replay buffer and sends training rows without FRESH, or goes on with the
FRESH bring-up that its transmit direction is in.
The model's readings in it: log entries 43 and 45. -/
def Obligations.LinkReceive : Prop :=
  ∀ (s : State) (q : Fin 24) (seq : BitVec 12) (vc : Fin 3) (typ : Byte) (len : BitVec 11), s.pwr.phase = .run →
    let l := s.link q
    let i := Instr.protocolError q seq vc typ len
    let quiet (u : State) : Out := .next (u.setLink q { l with discard := true })
    let nak (u : State) : Out := .next (u.setLink q { l with discard := true, nakSent := true, idleClk := s.time.clk,
                                                             waiting := l.waiting ++ [⟨2, 3, l.lastAcc, [], none⟩] })
    let retrained (t : State) : Prop :=
      let keep := l.fresh = true ∧ 1 ≤ s.txState q ∧ s.txState q ≤ 3
      (keep → t.txState q = s.txState q) ∧ (¬keep → t.txState q = if s.txState q = 0 then 0 else 2) ∧ t.rxState q = 2 ∧ t.up q = false ∧
      t.fld (F.BL_ERR_DESKEW q) = 1 ∧
      (let x : LinkSt := { l with wire := [], peerFresh := false, confGot := 0, resend := [], alignDue := false, rxClk := s.time.clk }
       let y : LinkSt := { x with fresh := false, confSent := 0, txClk := s.time.clk }
       (keep → t.link q = x) ∧
         (¬keep → t.link q = if s.txState q = 0 then y else y.trainRows 1 (tsRow (s.blRate q) (roleSent q) s.deviceId false false))) ∧
      (∀ p, p ≠ q.val → t.link p = s.link p) ∧ t = { s with regs := t.regs, links := t.links, tests := t.tests } ∧
      (∀ p, p ≠ q.val → t.test p = s.test p) ∧ s.SameRegsBut t [R.BL_STATUS q, R.BL_ERR q, R.BL_EYE_STAT q, R.STEP_STATUS]
    (s.up q = true → l.discard = false → seq.toNat = l.expect →
      let u := s.rxBarge q seq.toNat vc len.toNat id
      let m := u.link q
      let rel := l.rel.set vc ((l.rel.getD vc 0 + bargeCost len.toNat) % 65536)
      exec i s = .next ((u.bump (F.BL_CNT_PROTO_COUNT q)).setFld (F.BL_ERR_PROTO q) 1) ∧
      m.expect = (l.expect + 1) % 4096 ∧ m.lastAcc = l.expect ∧ m.nakSent = false ∧ m.discard = false ∧ m.rel = rel ∧
      m.unacked = (if l.unacked < 15 then l.unacked + 1 else 0) ∧ (15 ≤ l.unacked → ⟨1, 3, l.expect, [], none⟩ ∈ m.waiting) ∧
      ⟨3, 3, 0, rel.flatMap (leBytes 2) ++ [0, 0], none⟩ ∈ m.waiting ∧ m.seq = l.seq ∧ m.replay = l.replay ∧
      (∀ p, p ≠ q.val → u.link p = s.link p) ∧ u = { s with regs := u.regs, links := u.links } ∧ s.SameRegsButTele u []) ∧
    (s.up q = true → l.discard = false → seq.toNat ≠ l.expect →
      exec i s = (if l.nakSent then quiet else nak) (s.setFld (F.BL_ERR_SEQ q) 1)) ∧
    (s.up q = true → l.discard = true → exec i s = .next s) ∧
    (linkLive (s.rxState q) = true → ∀ b : BadRun,
      let u := if b.fault = .buffer then (s.storeCe b.mended).storeUe else s.storeCe b.mended
      let v := if b.fault = .framing then u else u.setFld (F.BL_ERR_CRC q) 1
      (l.discard = true → exec (.badBarge q b) s = .next u) ∧
      (l.discard = false → l.nakSent = true → exec (.badBarge q b) s = quiet v) ∧
      (l.discard = false → l.nakSent = false → exec (.badBarge q b) s = nak (v.bump (F.BL_CNT_CRC_COUNT q)))) ∧
    (∀ (u : State) (k : Nat),
      (u.storeCe k).fld F.ECC_CNT_CE_SRAM_COUNT = min (2 ^ 32 - 1) (u.fld F.ECC_CNT_CE_SRAM_COUNT + k) ∧ u.SameRegsBut (u.storeCe k) [R.ECC_CNT_CE_SRAM] ∧
      u.storeUe.fld F.ECC_CNT_UE_SRAM_COUNT = min (2 ^ 32 - 1) (u.fld F.ECC_CNT_UE_SRAM_COUNT + 1) ∧ u.storeUe.bitAt F.ECC_ERR_ERR 3 = true ∧
      u.SameRegsBut u.storeUe [R.ECC_CNT_UE_SRAM, R.ECC_ERR] ∧ u.storeCe k = { u with regs := (u.storeCe k).regs } ∧
      u.storeUe = { u with regs := u.storeUe.regs }) ∧
    (s.rxState q = 4 → Gives (.deskewLoss q) s retrained ∧
      exec (.alignRowRx q false true) s = .next s ∧ exec (.alignRowRx q true true) s = .next (s.setLink q { l with discard := false })) ∧
    (linkLive (s.rxState q) = true → ∀ start, Gives (.alignRowRx q start false) s retrained) ∧
    (s.rxState q = 5 ∨ s.rxState q = 6 → ∀ start, Gives (.alignRowRx q start true) s fun t => t.rxState q = 4 ∧ t.txState q = s.txState q ∧
      t.link q = (if start then { l with discard := false } else l) ∧ t = { s with regs := t.regs, links := t.links })

/-- R136, R137, R466: ACK_SEND names the last SEQ accepted, once; an ACK frees the barges up to its SEQ; a NAK and the end of the 8 µs begin a
replay of those that follow (of all, where the NAK names the SEQ acknowledged last), and the ninth in a row retrains.
The model's readings in it: log entry 43. -/
def Obligations.LinkAcknowledge : Prop :=
  ∀ (s : State) (q : Fin 24) (seq : BitVec 12), s.pwr.phase = .run →
    let l := s.link q
    let replayed (u : State) (again : List SentBarge) (t : State) : Prop :=
      (l.replays < 8 → t.link q = { l with replays := l.replays + 1, resend := again.map (·.seq), alignDue := true, ackClk := u.time.clk } ∧
        t.fld (F.BL_ERR_REPLAY q) = 1 ∧ t.fld (F.BL_CNT_REPLAY_COUNT q) = min (2 ^ 32 - 1) (s.fld (F.BL_CNT_REPLAY_COUNT q) + 1) ∧
        t = { u with regs := t.regs, links := t.links } ∧ u.SameRegsButTele t [R.BL_ERR q, R.BL_CNT_REPLAY q]) ∧
      (8 ≤ l.replays → t.fld (F.BL_ERR_REPLAY_FAIL q) = 1 ∧ t.txState q = (if s.txState q = 0 then 0 else 2) ∧
        t.rxState q = (if s.rxState q = 0 then 0 else 2) ∧ (t.link q).fresh = false ∧ (t.link q).replay = l.replay ∧
        (t.link q).replays = l.replays ∧ (t.link q).seq = l.seq ∧ (t.link q).expect = l.expect ∧ (t.link q).waiting = l.waiting ∧
        t = { u with regs := t.regs, links := t.links, tests := t.tests })
    (linkLive (s.rxState q) = true → exec (.ackSend q) s = .next (if l.unacked = 0 then s else
      s.setLink q { l with unacked := 0, waiting := l.waiting ++ [⟨1, 3, l.lastAcc, [], none⟩], idleClk := s.time.clk })) ∧
    (linkLive (s.rxState q) = true → l.discard = false →
      ((∀ b ∈ l.replay, b.seq ≠ seq.toNat) → exec (.ack q seq) s = .next s ∧ (seq.toNat ≠ l.acked → exec (.nak q seq) s = .next s)) ∧
      (linkLive (s.txState q) = false → exec (.nak q seq) s = .next s) ∧
      (linkLive (s.txState q) = true → seq.toNat = l.acked → Gives (.nak q seq) s (replayed s l.replay)) ∧
      (∀ a b r, l.replay = a ++ b :: r → b.seq = seq.toNat → (∀ x ∈ a, x.seq ≠ seq.toNat) →
        Gives (.ack q seq) s (fun t =>
          t.link q = { l with replay := r, acked := seq.toNat, replays := 0, ackClk := s.time.clk, idleClk := s.time.clk,
                              resend := l.resend.filter (fun n => !((a ++ [b]).any (fun x => x.seq == n))) } ∧
          ((∃ x ∈ a ++ [b], x.barge.typ = 0x67) → s.bit F.STEP_SNAP_STAT_BUSY = true →
            t.fld F.STEP_SNAP_STAT_BUSY = 0 ∧ t.fld F.STEP_SNAP_STAT_DONE = 1) ∧
          (∀ p, p ≠ q.val → t.link p = s.link p) ∧ t = { s with regs := t.regs, links := t.links } ∧ s.SameRegsButTele t [R.STEP_SNAP_STAT]) ∧
        (linkLive (s.txState q) = true → seq.toNat ≠ l.acked → Gives (.nak q seq) s (replayed s r)))) ∧
    (linkLive (s.txState q) = true → l.replay ≠ [] →
      Gives (.replayTimerExpire q) s (replayed (s.advance (l.ackClk + 4000 - s.time.clk)) l.replay)) ∧
    (l.replay = [] → exec (.replayTimerExpire q) s = .next s)

/-- R129, R135, R139 to R141, R550: the INIT CREDIT sets the peer's buffer sizes and flags a VC below what R141 asks; later ones add the
difference of the counts, flagged and held to the buffer when it is more. A CREDIT leaves every 100 µs. Of the barges waiting, the oldest of
the highest VC leaves: VC 3 first, then replayed ones while the quad is up, then one of VC 2 to 0 that has its credits while the replay buffer has room; FILL
where none can start. After 1,024 data rows, FILL making them up, ALIGN with START leaves.
The model's readings in it: log entries 43 and 44. -/
def Obligations.LinkCreditsAndSending : Prop :=
  ∀ (s : State) (q : Fin 24) (c0 c1 c2 : BitVec 16) (init : Bool), s.pwr.phase = .run →
    let l := s.link q
    let cs := [c0.toNat, c1.toNat, c2.toNat]
    let sent (x : LinkSt) (t : State) : Prop := t.link q = x ∧ (∀ p, p ≠ q.val → t.link p = s.link p) ∧ t = { s with regs := t.regs, links := t.links }
    let first (v : Nat) : Option Barge := l.waiting.find? (fun b => b.vc == v)
    let others (v : Nat) : List Barge := l.waiting.eraseP (fun b => b.vc == v)
    let starts (v : Nat) : Prop := ∃ b, first v = some b ∧ s.up q = true ∧ bargeCost b.data.length ≤ s.fld (creditFld q v)
    let full := 1024 ≤ l.replay.length ∨ 16384 ≤ (l.replay.map (fun b => wireSize b.barge.data.length)).foldl (· + ·) 0
    (linkLive (s.rxState q) = true → l.discard = false →
      (init = true → l.initSeen = false → Gives (.credit q init c0 c1 c2) s fun t =>
        sent { l with initSeen := true, buf := cs, peerRel := [0, 0, 0] } t ∧
        (∀ v, v < 3 → t.fld (creditFld q v) = cs.getD v 0) ∧
        t.bit (F.BL_ERR_CREDIT_LOW q) = (s.bit (F.BL_ERR_CREDIT_LOW q) || (List.range 3).any (fun v => decide (cs.getD v 0 < creditNeed q v))) ∧
        s.SameRegsBut t [R.BL_TXCRED_0 q, R.BL_TXCRED_1 q, R.BL_ERR q]) ∧
      (init = false ∨ l.initSeen = true → Gives (.credit q init c0 c1 c2) s fun t =>
        let n (v : Nat) : Nat := s.fld (creditFld q v) + (cs.getD v 0 + 65536 - l.peerRel.getD v 0) % 65536
        sent { l with peerRel := cs } t ∧
        (∀ v, v < 3 → l.buf.getD v 0 < 65536 → t.fld (creditFld q v) = min (n v) (l.buf.getD v 0)) ∧
        t.bit (F.BL_ERR_CREDIT q) = (s.bit (F.BL_ERR_CREDIT q) || (List.range 3).any (fun v => decide (l.buf.getD v 0 < n v))) ∧
        s.SameRegsBut t [R.BL_TXCRED_0 q, R.BL_TXCRED_1 q, R.BL_ERR q])) ∧
    (s.txState q = 4 →
      (let u := s.advance (l.credClk + 50000 - s.time.clk)
       Gives (.creditPeriodic q) s fun t =>
         t.link q = { ({ l with wire := [] } : LinkSt).emit (l.creditBarge.bytes 0 false) with credClk := u.time.clk } ∧
         (∀ p, p ≠ q.val → t.link p = s.link p) ∧ t = { u with regs := t.regs, links := t.links } ∧ u.SameRegsButTele t []) ∧
      (l.alignDue = true → exec (.alignRowSend q) s = .next (s.setLink q (({ l with wire := [] } : LinkSt).alignStart))) ∧
      (l.alignDue = false → l.rows < 1024 → l.rowBuf.length < 64 → Gives (.alignRowSend q) s fun t =>
        (t.link q).rows = 0 ∧ (t.link q).rowBuf = [] ∧ (t.link q).wire.length = 1024 - l.rows + 1 ∧
        (t.link q).wire.getLast? = some (alignRow true) ∧ t = { s with links := t.links }) ∧
      (l.alignDue = false → l.units = [] → l.feed = [] →
        (∀ b, first 3 = some b → Gives (.bargeSend q) s fun t =>
          sent { ({ l with wire := [], waiting := others 3 } : LinkSt).emit (b.bytes 0 false) with idleClk := s.time.clk } t ∧ s.SameRegsButTele t []) ∧
        (∀ n ns b, first 3 = none → s.up q = true → l.resend = n :: ns → l.replay.find? (fun x => x.seq == n) = some b → Gives (.bargeSend q) s fun t =>
          sent { ({ l with wire := [], resend := ns } : LinkSt).emit (b.barge.bytes n true) with idleClk := s.time.clk } t ∧ s.SameRegsButTele t []) ∧
        (∀ v b, first 3 = none → l.resend = [] → ¬full → v < 3 → first v = some b → starts v → (∀ w, v < w → w < 3 → ¬starts w) → b.tag = none →
          Gives (.bargeSend q) s fun t =>
            sent { ({ l with wire := [], waiting := others v } : LinkSt).emit (b.bytes l.seq false) with
                   replay := l.replay ++ [⟨l.seq, s.time.clk, b⟩], seq := (l.seq + 1) % 4096, idleClk := s.time.clk,
                   ackClk := if l.replay.isEmpty then s.time.clk else l.ackClk } t ∧
            t.fld (creditFld q v) = s.fld (creditFld q v) - bargeCost b.data.length ∧
            s.SameRegsButTele t [R.BL_TXCRED_0 q, R.BL_TXCRED_1 q]) ∧
        (first 3 = none → (l.resend = [] ∨ s.up q = false) → (full ∨ ∀ v, v < 3 → ¬starts v) →
          exec (.bargeSend q) s = .next (s.setLink q (({ l with wire := [] } : LinkSt).emit (List.replicate 8 0))))))

/-- R155 to R157, R551: 2 µs after CLOCK a direction enters ALIGN and sends training rows; training rows of the expected rate, role and lanes
bring both to CONFIG while both are enabled, set the descramblers to all ones and show the peer's role, another role fails the quad whatever its
rate; with sixteen rows sent and sixteen CONFIG_ACKs received both become ACTIVE, with what is left of the byte stream's row and ALIGN with START, and after a FRESH
bring-up INIT CREDIT is the first barge. 1,000 µs without it fail the direction, which CLOCKs again after 10 ms.
The model's readings in it: log entries 43 and 45. -/
def Obligations.LinkTraining : Prop :=
  ∀ (s : State) (q : Fin 24) (n : Nat) (rate role : Byte) (id : Word) (ca fresh : Bool), s.pwr.phase = .run →
    let l := s.link q
    let ts (a : Bool) : Row := tsRow (s.blRate q) (roleSent q) s.deviceId a l.fresh
    let i := Instr.tsRowRx q n true 0x03020100 rate role id ca fresh
    let seen := (s.setFld (F.BL_STATUS_PEER_ROLE q) role.toNat).setLink q l.trainedRx
    let good := role.toNat = roleWanted q ∧ (22 ≤ q.val → id.toNat = s.deviceId)
    (s.txState q = 1 → s.rxState q ≠ 1 → Gives (.blAlignEnter q) s fun t => l.txClk + 1000 ≤ t.time.clk ∧ t.txState q = 2 ∧
      t.rxState q = s.rxState q ∧ (t.link q).wire = [ts false] ∧ (t.link q).scr = List.replicate 4 (2 ^ 58 - 1) ∧
      t = { s with regs := t.regs, time := t.time, tests := t.tests, cores := t.cores, links := t.links }) ∧
    (s.rxState q = 1 → s.txState q ≠ 1 → Gives (.blAlignEnter q) s fun t => l.rxClk + 1000 ≤ t.time.clk ∧ t.rxState q = 2 ∧
      t.txState q = s.txState q ∧ t.link q = l ∧ t = { s with regs := t.regs, time := t.time, tests := t.tests, cores := t.cores }) ∧
    (0 < n → s.bit (F.BL_CTRL_RX_EN q) = true → (s.rxState q = 2 ∨ s.rxState q = 3) → (fresh = true → l.fresh = true ∨ l.peerFresh = true) →
      (rate.toNat ≠ s.blRate q → good → exec i s = .next seen) ∧
      (rate.toNat = s.blRate q → good → s.bit (F.BL_CTRL_TX_EN q) = false → exec i s = .next seen) ∧
      (¬good → Gives i s fun t => t.rxState q = 7 ∧ t.txState q = (if s.txState q = 0 then 0 else 7) ∧
        t.fld (F.BL_ERR_ROLE_MISMATCH q) = 1 ∧ t.fld (F.BL_ERR_TRAIN_FAIL q) = 1 ∧ t.fld (F.BL_STATUS_PEER_ROLE q) = role.toNat % 16 ∧
        t.link q = l.trainedRx ∧ t = { s with regs := t.regs, links := t.links, tests := t.tests }) ∧
      (rate.toNat = s.blRate q → good → s.bit (F.BL_CTRL_TX_EN q) = true → (s.txState q = 2 ∨ s.txState q = 3) →
        let got := if ca then l.confGot + n else 0
        let x : LinkSt := { ({ l.trainedRx with wire := [] } : LinkSt).trainRows n (ts true) with confSent := l.confSent + n, confGot := got }
        Gives i s fun t => t = { s with regs := t.regs, links := t.links } ∧ (∀ p, p ≠ q.val → t.link p = s.link p) ∧
          (¬(16 ≤ l.confSent + n ∧ 16 ≤ got) → t.txState q = 3 ∧ t.rxState q = 3 ∧ t.link q = x) ∧
          (16 ≤ l.confSent + n ∧ 16 ≤ got → t.txState q = 4 ∧ t.rxState q = 4 ∧ t.up q = true ∧
            (∃ v, (t.link q).wire = x.wire ++ v ++ [alignRow true] ∧ v.length = (if l.rowBuf = [] then 0 else 1)) ∧ (t.link q).rowBuf = [] ∧ (t.link q).resend = l.replay.map (·.seq) ∧ (t.link q).discard = !l.fresh ∧
            (t.link q).waiting = if l.fresh then initCredit :: l.waiting else l.waiting))) ∧
    (1 ≤ s.txState q ∧ s.txState q ≤ 3 → Gives (.blTrainTimeout q true) s fun t => l.txClk + 500000 ≤ t.time.clk ∧ t.txState q = 7 ∧
      t.rxState q = s.rxState q ∧ t.fld (F.BL_ERR_TRAIN_FAIL q) = 1 ∧
      t = { s with regs := t.regs, time := t.time, tests := t.tests, cores := t.cores }) ∧
    (1 ≤ s.rxState q ∧ s.rxState q ≤ 3 → Gives (.blTrainTimeout q false) s fun t => l.rxClk + 500000 ≤ t.time.clk ∧ t.rxState q = 7 ∧
      t.txState q = s.txState q ∧ t.fld (F.BL_ERR_TRAIN_FAIL q) = 1 ∧
      t = { s with regs := t.regs, time := t.time, tests := t.tests, cores := t.cores }) ∧
    (s.txState q = 7 → s.bit (F.BL_CTRL_TX_EN q) = true →
      exec (.blTrainRestart q true) s = .next ((s.advance (l.txClk + 5000000 - s.time.clk)).bringUp q true false)) ∧
    (s.rxState q = 7 → s.bit (F.BL_CTRL_TX_EN q) = true →
      exec (.blTrainRestart q false) s = .next ((s.advance (l.rxClk + 5000000 - s.time.clk)).bringUp q false true)) ∧
    (l.aus = [] → (∀ u ∈ l.units, u.ctx < 32) →
      (∀ b ∈ l.replay.map (·.barge) ++ l.waiting ++ l.feed.map (·.2), ∀ i o, b.tag = some (i, o) → i < 32) → ∀ a b,
      let t := s.bringUp q a b
      t.txState q = (if a then 1 else s.txState q) ∧ t.rxState q = (if b then 1 else s.rxState q) ∧ (t.link q).fresh = true ∧
      (t.link q).txClk = (if a then s.time.clk else l.txClk) ∧ (t.link q).rxClk = (if b then s.time.clk else l.rxClk) ∧
      (t.link q).seq = 0 ∧ (t.link q).expect = 0 ∧ (t.link q).replay = [] ∧ (t.link q).waiting = [] ∧ (∀ v, v < 3 → t.fld (creditFld q v) = 0) ∧
      t.fld (F.BL_CNT_DROP_COUNT q) = min (2 ^ 32 - 1)
        (s.fld (F.BL_CNT_DROP_COUNT q) + (l.waiting.filter (fun x => x.vc != 3)).length + l.replay.length + l.feed.length) ∧
      t = { s with regs := t.regs, links := t.links })

/-- R158 to R161: after IDLE_US with nothing to send a transmit direction sends a CREDIT and four IDLE rows and is in the idle state TX_IDLE
selects; the receive direction follows its peer. With something to send it wakes: sixteen training rows, ALIGN with START, and a CREDIT.
Every 10 ms it does so for a CREDIT alone and is idle again, after the CREDIT that precedes the IDLE rows, where all that still holds;
otherwise it stays ACTIVE. The CREDIT gives the counts now released.
The model's readings in it: log entries 43 and 44. -/
def Obligations.LinkIdle : Prop :=
  ∀ (s : State) (q : Fin 24), s.pwr.phase = .run →
    let l := s.link q
    let k := s.fld (F.BL_PWR_TX_IDLE q)
    let ts := tsRow (s.blRate q) (roleSent q) s.deviceId true false
    let credit := l.creditBarge.bytes 0 false
    let woken := (({ l with wire := [] } : LinkSt).trainRows 16 ts).alignStart
    let twice := (woken.emit credit).emit credit
    (l.rowBuf = [] → woken.wire = List.replicate 16 ts ++ [alignRow true]) ∧
    let quiet : Prop := (k = 1 ∨ k = 2) ∧ l.waiting = [] ∧ l.feed = [] ∧ l.replay = [] ∧ l.units = [] ∧ l.unacked = 0 ∧ s.quadScans q = false ∧
      (q.val < 22 ∨ s.role = 0)
    let idleAt := l.idleClk + 500 * max 1 (s.fld (F.BL_PWR_IDLE_US q))
    (s.txState q = 4 → quiet →
      Gives (.blIdleEnter q) s fun t => idleAt ≤ t.time.clk ∧ t.txState q = 4 + k ∧
        t.rxState q = s.rxState q ∧ (t.link q).wire = (({ l with wire := [] } : LinkSt).emit credit).fillRow.wire ++ List.replicate 4 (idleRow k) ∧ (t.link q).credClk = t.time.clk ∧
        (t.link q).rowBuf = [] ∧ t = { s with regs := t.regs, time := t.time, tests := t.tests, cores := t.cores, links := t.links }) ∧
    (s.txState q = 4 → ¬quiet → exec (.blIdleEnter q) s = .next s) ∧
    (s.rxState q = 4 → ∀ sleep, Gives (.idleEnterRx q sleep) s fun t => t.rxState q = (if sleep then 6 else 5) ∧ t.txState q = s.txState q ∧
      t = { s with regs := t.regs } ∧ s.SameRegsBut t [R.BL_STATUS q, R.BL_EYE_STAT q, R.STEP_STATUS]) ∧
    ((s.txState q = 5 ∨ s.txState q = 6) →
      (l.waiting = [] → l.resend = [] → l.units = [] → exec (.blWake q) s = .next s) ∧
      ((l.waiting ≠ [] ∨ l.resend ≠ [] ∨ l.units ≠ []) → Gives (.blWake q) s fun t => t.txState q = 4 ∧ t.rxState q = s.rxState q ∧
        (t.link q).wire = (woken.emit credit).wire ∧ (t.link q).waiting = l.waiting ∧ (t.link q).credClk = s.time.clk ∧
        t = { s with regs := t.regs, links := t.links } ∧ s.SameRegsButTele t [R.BL_STATUS q, R.STEP_STATUS]) ∧
      Gives (.idleCredit q) s fun t => l.credClk + 5000000 ≤ t.time.clk ∧ t.rxState q = s.rxState q ∧
        (quiet → idleAt ≤ t.time.clk → t.txState q = 4 + k ∧
          (t.link q).wire = (twice.emit credit).fillRow.wire ++ List.replicate 4 (idleRow k)) ∧
        (¬(quiet ∧ idleAt ≤ t.time.clk) → t.txState q = 4 ∧ (t.link q).wire = twice.wire) ∧ (t.link q).credClk = t.time.clk ∧ (t.link q).idleClk = l.idleClk ∧
        t = { s with regs := t.regs, time := t.time, tests := t.tests, cores := t.cores, links := t.links })

/-- R153, R155, R157, R162, R165, R166, R355, R551: BL_CTRL enables, disables, retrains and clears the counts of a quad, and keeps RATE, with ERR.CFG, while
a direction is enabled; a direction that becomes enabled, or a RETRAIN, brings up from CLOCK with FRESH; one that is disabled loses its replay buffer; in a test mode none of this
but a scan that is ended, paused or goes on. BL_TXQ_CMD with GO forms one barge of a
TYPE the quad allows from memory, once a frequency change has ended, and none of a reply of which an earlier one was lost. BL_HEADMAP takes no head twice, none of another quad, and no change of a slot whose head scans.
The model's readings in it: log entries 34 and 44. -/
def Obligations.LinkRegisters : Prop :=
  ∀ (s : State) (m : Mst) (q : Fin 24) (w : Word), s.pwr.phase = .run →
    let l := s.link q
    let ctl := s.written (R.BL_CTRL q) w.toNat
    let tx0 := s.bit (F.BL_CTRL_TX_EN q)
    let rx0 := s.bit (F.BL_CTRL_RX_EN q)
    let tx := w.getLsbD 8
    let rx := w.getLsbD 9
    let rate := bits w.toNat 3 0
    let zero := [(F.BL_CNT_CRC_COUNT q.val, 0), (F.BL_CNT_REPLAY_COUNT q, 0), (F.BL_CNT_PROTO_COUNT q, 0), (F.BL_CNT_DROP_COUNT q, 0)]
    (s.MayWrite m (R.BL_CTRL q) → w.getLsbD 12 = false → w.getLsbD 13 = false → s.inTest q = false →
      (rate = s.fld (F.BL_CTRL_RATE q) ∨ (tx0 = false ∧ rx0 = false) →
        (tx = true → tx0 = false → rx = rx0 → exec (.blTxEn m q w) s = .next ((ctl.bringUp q true false).taken)) ∧
        (tx = false → tx0 = true → rx = rx0 → exec (.blTxEn m q w) s =
          .next ((((ctl.txLose q (l.replay.map (·.barge))).updLink q (fun l => { l with replay := [], resend := [], wire := [] })).setStates q 0
            (s.rxState q)).taken)) ∧
        (rx = true → rx0 = false → tx = tx0 → exec (.blRxEn m q w) s = .next ((ctl.bringUp q false true).taken)) ∧
        (rx = false → rx0 = true → tx = tx0 → exec (.blRxEn m q w) s = .next (((ctl.eyeAbort q).setStates q (s.txState q) 0).taken))) ∧
      (tx = tx0 → rx = rx0 → exec (.blRateWrite m q w) s = .next (State.taken
        (if rate = s.fld (F.BL_CTRL_RATE q) ∨ (tx0 = false ∧ rx0 = false) then ctl
         else ctl.setFlds [(F.BL_CTRL_RATE q, s.fld (F.BL_CTRL_RATE q)), (F.BL_ERR_CFG q, 1)])))) ∧
    (s.MayWrite m (R.BL_CTRL q) → s.inTest q = false → rate = s.fld (F.BL_CTRL_RATE q) → tx = tx0 → rx = rx0 →
      (w.getLsbD 12 = true → w.getLsbD 13 = false → (tx = true ∨ rx = true) →
        exec (.blRetrain m q w) s = .next (((ctl.eyeAbort q).bringUp q tx rx).taken)) ∧
      (w.getLsbD 12 = false → w.getLsbD 13 = true → exec (.blClrCnt m q w) s = .next ((ctl.setFlds zero).taken))) ∧
    (s.MayWrite m (R.BL_CTRL q) → w.getLsbD 13 = false → s.inTest q = true → rate = s.fld (F.BL_CTRL_RATE q) →
      let c := (if rx0 = true ∧ rx = false then ctl.eyeAbort q else ctl).testSync q
      ∀ i ∈ [Instr.blTxEn m q w, .blRxEn m q w, .blRateWrite m q w, .blRetrain m q w], exec i s = .next ((c.eyePause q (!c.eyeCounts q)).taken)) ∧
    (s.MayWrite m (R.BL_TXQ_CMD q) →
      let cmd := s.written (R.BL_TXQ_CMD q) w.toNat
      let typ := bits w.toNat 23 16
      let allowed := (q.val < 20 ∧ typ = 0x14) ∨ (q.val = 20 ∧ typ = 0x41)
      (w.getLsbD 31 = false → exec (.blTxqSend m q w) s = .next cmd.taken) ∧
      (w.getLsbD 31 = true → ¬allowed → exec (.blTxqSend m q w) s =
        .next (((cmd.setFld (F.BL_TXQ_CMD_GO q) 0).setFld (F.BL_ERR_CFG q) 1).taken)) ∧
      (w.getLsbD 31 = true → allowed →
        let u := cmd.setFld (F.BL_TXQ_CMD_GO q) 0
        let n := if bits w.toNat 10 0 ≤ 1024 then bits w.toNat 10 0 else 0
        let sp := bits w.toNat 25 24
        let at' := s.fld (F.BL_TXQ_ADDR_LO_ADDR q) * 8 + s.fld (F.BL_TXQ_ADDR_HI_ADDR q) * 2 ^ 32
        let r : RdRes := if n = 0 then ⟨u, [], [], false⟩ else u.read (0x48 + q) at' n
        let reply := typ = 0x41
        let cut := reply ∧ l.replyCut = true ∧ sp % 2 = 0
        let l1 : LinkSt := if reply then { l with replyCut := decide cut && decide (sp / 2 = 0), replyOpen := decide (sp / 2 = 0) } else l
        (n ≠ 0 → u.waits (u.regionN at' n) = true → exec (.blTxqSend m q w) s = .next ((u.defer (.txq q typ sp at' n)).taken)) ∧
        ((n = 0 ∨ u.waits (u.regionN at' n) = false) → r.poisoned = false → Gives (.blTxqSend m q w) s fun t =>
          (cut → t.link q = l1) ∧
          (¬cut → t.link q = { l1 with idleClk := s.time.clk, waiting := l.waiting ++ [⟨typ, 1, sp, r.dmaBytes at' n, none⟩] }) ∧
          (∀ p, p ≠ q.val → t.link p = s.link p) ∧ t = { r.st with links := t.links, resp := .ok }))) ∧
    (∀ p : Fin 12, s.MayWrite m (R.BL_HEADMAP p) →
      let old := (s.reg (R.BL_HEADMAP p)).toNat
      let heads (v : Nat) : List Nat := ((List.range 3).map (mapSlot v)).filterMap (fun x => if 128 ≤ x then some (x % 32) else none)
      let busy (v k : Nat) : Prop := 128 ≤ mapSlot v k ∧ s.scanning (mapSlot v k % 32) = true
      let bad := (∃ k, k < 3 ∧ mapSlot old k ≠ mapSlot w.toNat k ∧ (busy old k ∨ busy w.toNat k)) ∨ ¬(heads w.toNat).Nodup ∨
        ∃ o, o < 12 ∧ o ≠ p.val ∧ ∃ h ∈ heads w.toNat, h ∈ heads (s.reg (R.BL_HEADMAP o)).toNat
      (bad → exec (.blHeadmapWrite m p w) s = .next ((s.setFld (F.BL_ERR_CFG p) 1).taken)) ∧
      (¬bad → exec (.blHeadmapWrite m p w) s = .next ((s.written (R.BL_HEADMAP p) w.toNat).taken)))

/-- R167 to R177: a change of MODE starts or ends a test: entering stops the link and discards what waits, a mode starts with generators all
ones and zero counts, OFF brings the enabled directions up again; it is refused while a head scans through the quad. CLR zeroes the counts.
While time passes the generator runs on, the checkers count bits and, in a near loopback, exactly the inverted ones. A lane locks after its n
bits and 1,024 more that match, loses lock with 1,024 bits of which at least 256 mismatch, and loads afresh then and when it stops. SINGLE inverts the next bit sent, or reaches the next row in ACTIVE;
RATE_EXP inverts one bit after every 2^RATE_EXP. An eye scan counts as bits are compared, cannot be reprogrammed while BUSY, and ends DONE
after 2^(16 + DWELL) bits or ABORTED with its counts kept.
The model's readings in it: log entry 46. -/
def Obligations.LinkTestsAndEyeScan : Prop :=
  ∀ (s : State) (m : Mst) (q : Fin 24) (w errs : Word) (lane : Fin 4), s.pwr.phase = .run →
    (Tbl.wf (fun _ => {}) s.tests : Bool) = true →
    let l := s.link q
    let mode := s.testMode q
    let new := modeOf (bits w.toNat 2 0)
    let ctl := s.written (R.BL_TEST_CTL q) w.toNat
    let inj := s.written (R.BL_TEST_INJ q) w.toNat
    let eye := s.written (R.BL_EYE_CTL q) w.toNat
    let u := s.test q
    let off (v : State) : State := (v.setFlds [(F.BL_TEST_STAT_IN_TEST q, 0), (F.BL_TEST_STAT_LOCK q, 0)]).setTest q {}
    let scans := q.val < 12 ∧ s.quadScans q = true
    let degree := [7, 15, 23, 31].getD (s.fld (F.BL_TEST_CTL_PAT q)) 0
    let rate := 64 + 16 * s.blRate q
    let passed (t : State) : Prop := t = { s with regs := t.regs, time := t.time, tests := t.tests, cores := t.cores }
    (s.MayWrite m (R.BL_TEST_CTL q) → w.getLsbD 15 = false →
      (mode = 0 → new ≠ 0 → scans → exec (.testModeSet m q w) s = .next ((s.setFld (F.BL_ERR_CFG q) 1).taken)) ∧
      (mode = 0 → new ≠ 0 → ¬scans →
        exec (.testModeSet m q w) s = .next (((((ctl.eyeAbort q).linkFresh q).setStates q 0 0).testStart q).taken)) ∧
      (mode ≠ 0 → new ≠ 0 → new ≠ mode → exec (.testModeSet m q w) s = .next (((ctl.eyeAbort q).testStart q).taken)) ∧
      (mode ≠ 0 → new = 0 → exec (.testModeSet m q w) s =
        .next (((off (ctl.eyeAbort q)).bringUp q (s.bit (F.BL_CTRL_TX_EN q)) (s.bit (F.BL_CTRL_RX_EN q))).taken)) ∧
      (new = mode → exec (.testModeSet m q w) s = .next ((ctl.testSync q).taken))) ∧
    (let t := s.testStart q
     t.fld (F.BL_TEST_STAT_IN_TEST q) = 1 ∧ t.fld (F.BL_TEST_STAT_LOCK q) = 0 ∧ (∀ i, i < 4 → t.fld (F.BL_TEST_ERR_COUNT q i) = 0) ∧
     t.reg (R.BL_TEST_BITS_LO q) = 0 ∧ t.reg (R.BL_TEST_BITS_HI q) = 0 ∧
     t.test q = { gen := 2 ^ degree - 1, load := [0, 0, 0, 0] } ∧ t = { s with regs := t.regs, tests := t.tests }) ∧
    (let t := s.testSync q
     (∀ i, i < 4 → t.bitAt (F.BL_TEST_STAT_LOCK q) i = (s.bitAt (F.BL_TEST_STAT_LOCK q) i && (!s.inTest q || s.checks q i)) ∧
       (s.inTest q = true → s.checks q i = false → (t.test q).load.getD i 0 = u.bits)) ∧ t = { s with regs := t.regs, tests := t.tests }) ∧
    (s.MayWrite m (R.BL_TEST_CTL q) → w.getLsbD 15 = true → new = mode → Gives (.testClr m q w) s fun t =>
      (∀ i, i < 4 → t.fld (F.BL_TEST_ERR_COUNT q i) = 0) ∧ t.reg (R.BL_TEST_BITS_LO q) = 0 ∧ t.reg (R.BL_TEST_BITS_HI q) = 0 ∧
      t = { s with regs := t.regs, tests := t.tests, resp := .ok } ∧ s.SameRegsBut t [R.BL_TEST_CTL q, R.BL_TEST_STAT q, R.BL_TEST_BITS_LO q,
        R.BL_TEST_BITS_HI q, R.BL_TEST_ERR q 0, R.BL_TEST_ERR q 1, R.BL_TEST_ERR q 2, R.BL_TEST_ERR q 3]) ∧
    (∀ n, s.inTest q = true →
      let t := s.patternPass q n
      let k := (u.tenths + n * rate) / 10
      let lost := (u.inj.filter (fun e => e.1 == lane.val && decide (e.2 < u.sent + k))).length
      (t.test q).bits = u.bits + k ∧ (t.test q).sent = (if s.generates q then u.sent + k else u.sent) ∧
      (t.test q).gen = (if s.generates q then prbsRun (s.fld (F.BL_TEST_CTL_PAT q)) k u.gen else u.gen) ∧
      t.reg64 (R.BL_TEST_BITS_LO q) (R.BL_TEST_BITS_HI q) = min (2 ^ 64 - 1) (s.reg64 (R.BL_TEST_BITS_LO q) (R.BL_TEST_BITS_HI q) +
        if s.fld (F.BL_TEST_STAT_LOCK q) = 0 then 0 else k) ∧
      (s.nearLoop q = true → s.checks q lane = true → s.bitAt (F.BL_TEST_STAT_LOCK q) lane = true →
        t.fld (F.BL_TEST_ERR_COUNT q lane) = min (2 ^ 32 - 1) (s.fld (F.BL_TEST_ERR_COUNT q lane) + lost)) ∧
      (s.bitAt (F.BL_TEST_STAT_LOCK q) lane = false → t.fld (F.BL_TEST_ERR_COUNT q lane) = s.fld (F.BL_TEST_ERR_COUNT q lane)) ∧
      t = { s with regs := t.regs, tests := t.tests }) ∧
    (let runs := s.inTest q = true ∧ s.bit (F.BL_CTRL_RX_EN q) = true ∧ s.bitAt (F.BL_TEST_CTL_LANE_EN q) lane = true
     let locked := s.bitAt (F.BL_TEST_STAT_LOCK q) lane = true
     let pending := u.inj.any (fun e => e.1 == lane.val && decide (u.bits + (e.2 - u.sent) < u.load.getD lane 0 + degree + 1024))
     (runs → ¬locked → q.val ∈ s.tests.map (·.1) → (mode = 2 ∨ mode = 3 → s.bit (F.BL_CTRL_TX_EN q) = true) → (pending = false ∨ ¬(mode = 2 ∨ mode = 3)) → Gives (.checkerLock q lane) s fun t =>
       t.bitAt (F.BL_TEST_STAT_LOCK q) lane = true ∧ u.load.getD lane 0 + degree + 1024 ≤ (t.test q).bits ∧ passed t ∧
       t.fld (F.BL_TEST_STAT_LOCK_LOST q) = s.fld (F.BL_TEST_STAT_LOCK_LOST q)) ∧
     (runs → ¬locked → pending = true → (mode = 2 ∨ mode = 3) → exec (.checkerLock q lane) s = .next s) ∧
     (runs → locked → q.val ∈ s.tests.map (·.1) → 256 ≤ errs.toNat → errs.toNat ≤ 1024 →
       Gives (.checkerLockLost q lane errs) s fun t => t.bitAt (F.BL_TEST_STAT_LOCK q) lane = false ∧
       t.bitAt (F.BL_TEST_STAT_LOCK_LOST q) lane = true ∧ (t.test q).load.getD lane 0 = (t.test q).bits ∧ u.bits + 1024 ≤ (t.test q).bits ∧ passed t ∧
       t.reg64 (R.BL_TEST_BITS_LO q) (R.BL_TEST_BITS_HI q) =
         min (2 ^ 64 - 1) (s.reg64 (R.BL_TEST_BITS_LO q) (R.BL_TEST_BITS_HI q) + ((t.test q).bits - u.bits)) ∧
       t.fld (F.BL_TEST_ERR_COUNT q lane) = min (2 ^ 32 - 1) (s.fld (F.BL_TEST_ERR_COUNT q lane) + errs.toNat)) ∧
     (¬(256 ≤ errs.toNat ∧ errs.toNat ≤ 1024) → exec (.checkerLockLost q lane errs) s = .next s) ∧
     (¬runs → exec (.checkerLock q lane) s = .next s ∧ exec (.checkerLockLost q lane errs) s = .next s)) ∧
    (s.MayWrite m (R.BL_TEST_INJ q) → w.getLsbD 4 = true →
      (s.inTest q = true → s.generates q = true → bits w.toNat 12 8 = s.fld (F.BL_TEST_INJ_RATE_EXP q) → Gives (.injectSingle m q w) s fun t =>
        t.test q = { u with inj := (t.test q).inj } ∧ u.inj <+: (t.test q).inj ∧
        (∀ i b, (i, b) ∈ (t.test q).inj ↔ (i, b) ∈ u.inj ∨ (i < 4 ∧ w.getLsbD i = true ∧ b = u.sent)) ∧
        t = { inj with tests := t.tests, resp := .ok }) ∧
      (s.inTest q = false → exec (.injectSingle m q w) s = .next ((if s.txState q = 4 then
        inj.setLink q { l with inject := (List.range 4).map (fun i => l.inject.getD i 0 + (w.getLsbD i).toNat) } else inj).taken))) ∧
    (s.fld (F.BL_TEST_INJ_RATE_EXP q) ≠ 0 → s.generates q = true → u.sent ≤ u.perAt + 2 ^ max 10 (s.fld (F.BL_TEST_INJ_RATE_EXP q)) →
      Gives (.injectPeriodic q) s fun t =>
        let at' := u.perAt + 2 ^ max 10 (s.fld (F.BL_TEST_INJ_RATE_EXP q))
        (t.test q).perAt = at' ∧ at' < (t.test q).sent ∧ passed t ∧
        (s.nearLoop q = true → s.checks q lane = true → s.bitAt (F.BL_TEST_STAT_LOCK q) lane = true → u.inj = [] →
          t.fld (F.BL_TEST_ERR_COUNT q lane) = min (2 ^ 32 - 1) (s.fld (F.BL_TEST_ERR_COUNT q lane) +
            (s.bitAt (F.BL_TEST_INJ_LANES q) lane).toNat))) ∧
    (let busy := s.bit (F.BL_EYE_STAT_BUSY q)
     let aborted := (s.setFlds [(F.BL_EYE_STAT_BUSY q.val, 0), (F.BL_EYE_STAT_PAUSED q, 0), (F.BL_EYE_STAT_ABORTED q, 1)]).setTest q { u with eye := none }
     let length := 2 ^ (16 + s.fld (F.BL_EYE_CTL_DWELL q))
     (s.MayWrite m (R.BL_EYE_CTL q) →
       (busy = false → w.getLsbD 2 = true → exec (.eyeScanStart m q w) s = .next (State.taken ((eye.setTest q { u with eye := some 0 }).setFlds
         [(F.BL_EYE_STAT_DONE q, 0), (F.BL_EYE_STAT_ABORTED q, 0), (F.BL_EYE_ERR_COUNT q, 0), (F.BL_EYE_BITS_COUNT q, 0), (F.BL_EYE_STAT_BUSY q, 1),
          (F.BL_EYE_STAT_PAUSED q, if s.eyeCounts q then 0 else 1)]))) ∧
       (busy = true → w.getLsbD 2 = true → w.getLsbD 3 = false → exec (.eyeScanStart m q w) s = .next ((s.setFld (F.BL_ERR_CFG q) 1).taken)) ∧
       (busy = true → w.getLsbD 2 = false → w.getLsbD 3 = true →
         bits w.toNat 1 0 = s.fld (F.BL_EYE_CTL_LANE q) → bits w.toNat 10 4 = s.fld (F.BL_EYE_CTL_PHASE q) →
         bits w.toNat 19 12 = s.fld (F.BL_EYE_CTL_VOFF q) → bits w.toNat 27 24 = s.fld (F.BL_EYE_CTL_DWELL q) →
         exec (.eyeScanAbort m q w) s = .next aborted.taken)) ∧
     (∀ n x, u.eye = some x → s.eyeCounts q = true → s.fld (F.BL_EYE_BITS_COUNT q) ≤ length →
       let t := s.eyePass q n
       t.fld (F.BL_EYE_BITS_COUNT q) = min length (s.fld (F.BL_EYE_BITS_COUNT q) + (x + n * rate) / 10) ∧
       (s.fld (F.BL_EYE_ERR_COUNT q) ≤ s.fld (F.BL_EYE_BITS_COUNT q) → t.fld (F.BL_EYE_ERR_COUNT q) ≤ t.fld (F.BL_EYE_BITS_COUNT q)) ∧
       t = { s with regs := t.regs, tests := t.tests }) ∧
     (∀ n, s.eyeCounts q = false → s.eyePass q n = s) ∧
     (∀ x, busy = true → s.eyeCounts q = true → u.eye = some x → s.fld (F.BL_EYE_BITS_COUNT q) ≤ length → ∀ errs, Gives (.eyeScanDone q errs) s fun t =>
       t.fld (F.BL_EYE_STAT_BUSY q) = 0 ∧ t.fld (F.BL_EYE_STAT_PAUSED q) = 0 ∧ t.fld (F.BL_EYE_STAT_DONE q) = 1 ∧
       t.fld (F.BL_EYE_BITS_COUNT q) = length ∧ t.fld (F.BL_EYE_ERR_COUNT q) = min (2 ^ 32 - 1) (s.fld (F.BL_EYE_ERR_COUNT q) + min (length - s.fld (F.BL_EYE_BITS_COUNT q)) errs) ∧
       (t.test q).eye = none ∧ passed t) ∧
     ((busy = false ∨ s.eyeCounts q = false) → ∀ errs, exec (.eyeScanDone q errs) s = .next s))

/-- R37, R147, R149 to R153, R182, R187, R189, R192, R253 to R255: what barges on companion and bridge quads do once accepted. A bridge's status is
readable; a timestamp enters the FIFO unless it was replayed; command bytes gather and a whole well-formed command enters the carry buffer; an
access unit of an enabled context takes the next arrival number, or waits for one while the context joins, until it is classified; its bytes go
into the ring in whole code words as they arrive; its last bytes end it, COMPLETE only with every byte; a frame of an input starts and is counted
when every line has arrived.
The model's readings in it: log entries 47 and 48. -/
def Obligations.ReceivedTraffic : Prop :=
  ∀ (s : State) (seq : BitVec 12), s.pwr.phase = .run →
    let ready (q : Nat) : Prop := s.up q = true ∧ (s.link q).discard = false ∧ seq.toNat = (s.link q).expect
    (∀ (q : Fin 20) (d : DWord), ready q → exec (.bridgeStatus q seq d) s = .next
      ((s.rxBarge q seq.toNat 1 8 id).setFlds [(F.BL_BSTAT_LO_DATA q, d.toNat), (F.BL_BSTAT_HI_DATA q, d.toNat / 2 ^ 32)])) ∧
    (∀ (k : Fin 2) (rpl : Bool) (id' : BitVec 16) (typ : BitVec 4) (iv : Word) (sec : BitVec 48) (ns : Word) (val : Bool), ready (20 + k) →
      let u := s.rxBarge (20 + k) seq.toNat 2 24 id
      let x := exec (.timestamp k seq rpl id' typ iv sec ns val) s
      (rpl = true → x = .next (u.setFld (F.BL_ERR_TS_REPLAY (20 + k)) 1)) ∧
      (rpl = false → 64 ≤ s.time.tsFifo.length → x = .next (u.setFld F.TIME_STATUS_TS_OVF 1)) ∧
      (rpl = false → s.time.tsFifo.length < 64 → (s.fld F.TIME_LINK_LAT_LAT + iv.toNat) * 4096 ≤ s.time.now / 2 ^ 24 → x = .next
        (({ u with time := { s.time with tsFifo := s.time.tsFifo ++ [⟨s.time.now / 2 ^ 24 - (s.fld F.TIME_LINK_LAT_LAT + iv.toNat) * 4096, id'.toNat,
          typ.toNat, k, if val then sec.toNat else 0, if val then ns.toNat else 0⟩] } } : State).setFld F.TIME_STATUS_TS_LEVEL (s.time.tsFifo.length + 1)))) ∧
    (∀ (first final : Bool) (d : List Byte), ready 20 →
      let u := s.rxBarge 20 seq.toNat 1 d.length id
      let l := u.link 20
      let x := exec (.cmd seq first final d) s
      let proto := (u.bump (F.BL_CNT_PROTO_COUNT 20)).setFld (F.BL_ERR_PROTO 20) 1
      ((first = true ∨ (s.link 20).cmd ≠ none) → final = false →
        x = .next (u.setLink 20 { l with cmd := some ((if first then [] else (l.cmd).getD []) ++ d) })) ∧
      (first = false → (s.link 20).cmd = none → x = .next (if final then proto else u)) ∧
      (first = true → final = true →
        let n := leNat (d.take 2)
        let body := slice d 0 (ceilDiv d.length 8 * 8)
        let used := (s.pair.carry.map (fun c => c.data.length)).foldl (· + ·) 0
        let v := u.setLink 20 { l with cmd := none }
        (d.length = 8 + n → 1 ≤ n → n ≤ 4096 →
          x = .next (if used + body.length ≤ 65536 then
            { v with pair := { s.pair with carry := s.pair.carry ++ [⟨leNat (slice d 4 4), body, s.pair.releases⟩] } } else v.orFld F.STEP_ERR_ERR 256)) ∧
        (¬(d.length = 8 + n ∧ 1 ≤ n ∧ n ≤ 4096) → x = .next ((v.bump (F.BL_CNT_PROTO_COUNT 20)).setFld (F.BL_ERR_PROTO 20) 1)))) ∧
    (∀ (k : Fin 2) (len : Word) (c flags : Byte) (cap : BitVec 96), ready (20 + k) →
      let u := s.rxBarge (20 + k) seq.toNat 0 32 id
      let l := u.link (20 + k)
      let x := exec (.auStart k seq len c flags cap) s
      let i := c.toNat
      let a := s.ctxNext i
      let need := ceilDiv len.toNat 32 * 32
      let dc := s.dc i
      let unit : AuRx := { ctx := i, num := none, len := len.toNat, flags := flags.toNat % 8, capture := leBytes 12 cap.toNat, off := 0, room := false,
                           slot := false, data := [], put := 0, rap := false, recov := false, decided := false, dropped := false }
      (127 < i → x = .next ((u.bump (F.BL_CNT_PROTO_COUNT (20 + k))).setFld (F.BL_ERR_PROTO (20 + k)) 1)) ∧
      (i ≤ 127 → s.joinArmed i = false → (∀ y ∈ (s.link (20 + k)).aus, y.ctx ≠ i) →
        (s.bit (F.DEC_CTX_CTL_EN i) = false → x = .next u) ∧
        (s.bit (F.DEC_CTX_CTL_EN i) = true → dc.joining = true → x = .next (u.setLink (20 + k) { l with aus := l.aus ++ [unit] })) ∧
        (s.bit (F.DEC_CTX_CTL_EN i) = true → dc.joining = false → (dc.aus.map (·.size)).foldl (· + ·) 0 + need ≤ s.bsSize i →
          (∀ r ∈ dc.aus, ¬(r.num < a ∧ (a - r.num) % 256 = 0)) → x = .next
            (((u.setCtxNext i (a + 1)).setDc i { dc with discont := false, wr := (dc.wr + need) % max 1 (s.bsSize i), aus := dc.aus ++ [⟨a, need, false, false⟩] }).setLink
              (20 + k) { l with aus := l.aus ++ [{ unit with num := some a, off := dc.wr, room := true, slot := true,
                                                             flags := if dc.discont then unit.flags ||| 2 else unit.flags }] })) ∧
        (s.bit (F.DEC_CTX_CTL_EN i) = true → dc.joining = false → s.bsSize i < (dc.aus.map (·.size)).foldl (· + ·) 0 + need → Gives (.auStart k seq len c flags cap) s
          fun t => t.ctxNext i = (a + 1) % 2 ^ 64 ∧ t.fld (F.DEC_CTX_DROP_COUNT i) = min (2 ^ 32 - 1) (s.fld (F.DEC_CTX_DROP_COUNT i) + 1) ∧
            (∃ y, (t.link (20 + k)).aus = l.aus ++ [y] ∧ y.num = some a ∧ y.room = false) ∧ t = { s with regs := t.regs, links := t.links, dctx := t.dctx }))) ∧
    (∀ (k : Fin 2) (i : Fin 128) (final : Bool) (d : List Byte), ready (20 + k) →
      let u := s.rxBarge (20 + k) seq.toNat 0 d.length id
      let l := u.link (20 + k)
      let x := exec (.auData k seq i final d) s
      let c := classify (s.bit (F.DEC_CTX_CTL_CODEC i))
      (((s.link (20 + k)).aus.find? (fun y => y.ctx == i.val) = none) → x = .next (u.bump (F.BL_CNT_DROP_COUNT (20 + k)))) ∧
      (∀ y, (s.link (20 + k)).aus.find? (fun y => y.ctx == i.val) = some y →
        let got := c (y.data ++ d)
        (final = false → y.dropped = true → y.num = none →
          x = .next (u.setLink (20 + k) { l with aus := l.aus.map (fun z => if z.ctx == i.val then { y with data := y.data ++ d } else z) })) ∧
        (∀ a, final = false → y.dropped = false → y.decided = true → y.num = some a → y.room = true →
          let have' := (y.data ++ d).take (ceilDiv y.len 32 * 32)
          let upTo := have'.length / 32 * 32
          let v := u.ringWrite (0x30 + (20 + k)) (s.bsBase y.ctx) (s.bsSize y.ctx) (y.off + y.put) (slice (have'.drop y.put) 0 (upTo - y.put))
          x = .next (v.updLink (20 + k) (fun l => { l with aus := l.aus.map (fun z => if z.ctx == i.val then
            { y with data := y.data ++ d, put := max y.put upTo, rap := got.rap, recov := got.recov } else z) }))) ∧
        (final = false → y.decided = false → y.dropped = false → y.num = none → got.vcl = true →
          ((got.rap = true ∨ got.recov = true) → Gives (.auData k seq i final d) s fun t =>
            (t.dc i).joining = false ∧ t.ctxNext i = (s.ctxNext i + 1) % 2 ^ 64 ∧ ∃ z ∈ (t.link (20 + k)).aus, z.ctx = i.val ∧ z.num = some (s.ctxNext i)) ∧
          (got.rap = false → got.recov = false → Gives (.auData k seq i final d) s fun t =>
            (t.dc i).joining = (s.dc i).joining ∧
            ∃ z ∈ (t.link (20 + k)).aus, z.ctx = i.val ∧ z.num = none ∧ z.dropped = !s.bit (F.DEC_CTX_CTL_CODEC i))) ∧
        (∀ a, final = true → y.num = some a → y.decided = true → Gives (.auData k seq i final d) s fun t =>
          (t.link (20 + k)).aus = l.aus.filter (fun z => z.ctx != i.val) ∧
          (y.dropped = false → y.data.length + d.length ≠ y.len → (t.dc i).discont = true ∧ (t.dc i).newest = (s.dc i).newest) ∧
          (y.data.length + d.length = y.len → (t.dc i).discont = (s.dc i).discont ∧
            (t.dc i).newest = if y.room then max (s.dc i).newest a else (s.dc i).newest)))) ∧
    (∀ (q : Fin 8) (k : BitVec 2) (w h : BitVec 16) (fmt : BitVec 2), ready (12 + q) →
      let u := s.rxBarge (12 + q) seq.toNat 0 32 id
      let j := 3 * q.val + k.toNat
      let f := exec (.frameStart q seq k w h fmt) s
      let slot := ((s.inp j).num + 1) % s.inSlots j
      (k = 3 ∨ s.inEn j = false → f = .next u) ∧
      (k ≠ 3 → s.inEn j = true → (s.inp j).cur = none → s.slotHeld j slot = false → fmt.toNat = s.inFmt j → s.inFits j w.toNat h.toNat = true →
        let y : InFrame := { w := w.toNat, h := h.toNat, fmt := fmt.toNat, stamp := s.nowTriple, store := true, parts := [] }
        f = .next ((u.setInp j { s.inp j with cur := some y }).writeAll (0x30 + (12 + q)) (s.inSlot j slot) (inHeader 0 y)).1)) ∧
    (∀ (q : Fin 8) (k : BitVec 2) (y : BitVec 12) (x : BitVec 13) (last : Bool) (d : List Byte), ready (12 + q) →
      let u := s.rxBarge (12 + q) seq.toNat 0 d.length id
      let j := 3 * q.val + k.toNat
      let p := exec (.pixels q seq k y x last d) s
      (k = 3 → p = .next u) ∧
      (k ≠ 3 → (s.inp j).cur = none → p = .next u) ∧
      (∀ g, k ≠ 3 → (s.inp j).cur = some g →
        let g' : InFrame := { g with parts := insertPart ((y.toNat, x.toNat), d) g.parts }
        let n := min (pixelsIn g.fmt d.length) (g.w - x.toNat)
        let a := s.inSlot j (((s.inp j).num + 1) % s.inSlots j) + 0x1000 + y.toNat * s.inPitch j + 4 * x.toNat
        ((s.inEn j = false ∨ g.h ≤ y.toNat ∨ g.w ≤ x.toNat) → p = .next u) ∧
        (s.inEn j = true → y.toNat < g.h → x.toNat < g.w →
          (g'.complete = false → g.store = false → p = .next (u.setInp j { s.inp j with cur := some g' })) ∧
          (g'.complete = false → g.store = true → g.fmt < 2 → p = .next
            ((u.writeAll (0x30 + (12 + q)) a (padWords a (storePixels g.fmt n d).1)).1.setInp j { s.inp j with cur := some g' })) ∧
          (g'.complete = true → g.store = false → p = .next (u.setInp j { num := (s.inp j).num + 1, cur := none, hist :=
            ((s.inp j).hist ++ [((s.inp j).num + 1, crc32c (g'.parts.flatMap (·.2)), g.w, g.h)]).drop ((s.inp j).hist.length + 1 - 16) })))))

/-! ### Decode and encode engines -/

/-- R181, R185, R194, R195, R199, R200, R203, R207, R210, R211, R552: an access unit that leaves a decode engine makes DONE its number,
whatever became of it: LOST sets an error and makes the next picture DISCONT; one that is no longer decoded passes through, one whose sequence or
pool is not supported sets its error; decoded, the buffer taken with it becomes the previous picture, TAINT follows the picture, and a required
reference that is not held is replaced by a grey substitute, whose first use sets an error; pictures leave in output order. An idle engine takes the
first job that can run, with a buffer that is free; one retired, by its
register, watchdog or a fault, drops its queue and orphans its contexts. EN 0 and 1 turn an engine off and idle.
The model's readings in it: log entries 13, 48, 49 and 50. -/
def Obligations.DecodeEngines : Prop :=
  ∀ (s : State) (m : Mst) (n : Fin 16) (w : Word), s.pwr.phase = .run →
    let e := s.de n
    let st := s.fld (F.DEC_ENG_STATUS_STATE n)
    let ctl := (s.written (R.DEC_ENG_CTL n) w.toNat).setFld (F.DEC_ENG_CTL_RETIRE n) 0
    let retired (f : Nat → Fld) (t : State) : Prop := t.fld (F.DEC_ENG_STATUS_STATE n) = 3 ∧ t.fld (F.DEC_ENG_ERR_RETIRED n) = 1 ∧ t.fld (f n) = 1 ∧
      (t.de n).queue = [] ∧ (t.de n).cur = none ∧ (∀ k, k < 16 → k ≠ n.val → t.de k = s.de k) ∧
      ∀ i, i < 128 → s.bit (F.DEC_CTX_CTL_EN i) = true → s.ctxEngine i = n → s.ctxState i ≠ 5 → t.ctxState i = 5 ∧
        t.bitAt (F.DEC_CTX_ERR_ERR i) 9 = true ∧ (t.dc i).pend = (e.queue.filter (fun j => j.ctx == i)).foldl (fun b j => mergeJob b j) (s.dc i).pend
    (∀ (i : Nat) (r : EngRun) (j : DecJob), i < 128 → e.cur = some i → e.queue.find? (fun x => x.ctx == i) = some j → (s.dc i).replay = none →
      s.ctxWaits i = false →
      let a := s.ctxDone i + 1
      let v := ((s.engineErrs r).read (0x10 + n) (s.idxEntry i a) 32).noted (0x10 + n) (s.idxEntry i a) 4
      Gives (.decAuDone n r) s fun t => t.ctxDone i = a % 2 ^ 64 ∧
        (s.auState i a = .lost → (t.dc i).discDue = true ∧ t.bitAt (F.DEC_CTX_ERR_ERR i) 3 = true ∧ (t.dc i).lastOut = (s.dc i).lastOut ∧
          (∀ r ∈ (t.dc i).seis, r.clean = false)) ∧
        (∀ x, s.auState i a = .here x →
          let p := v.decHere n i a j.tick x
          (t.dc i).discDue = false ∧ (t.dc i).pics = (p.1.dc i).pics ∧ (t.dc i).lastOut = (p.1.dc i).lastOut ∧
          t.fld (F.DEC_CTX_STATUS_TAINT i) = p.1.fld (F.DEC_CTX_STATUS_TAINT i))) ∧
    ((e.cur = none ∨ ∃ i, e.cur = some i ∧ s.ctxWaits i = true) → ∀ r, exec (.decAuDone n r) s = .next s) ∧
    (∀ (i a tick : Nat) (x : List Byte) (hist : List AuIn) (heads : AuHeads), i < 128 →
      let c := s.dc i
      let ok := spsSupported (s.bit (F.DEC_CTX_CTL_CODEC i)) heads.sps
      (c.decodes (leNat (slice x 28 1)) = false → s.decHere n i a tick x = (s, none)) ∧
      (let p := s.decWith n i a tick x hist true heads
       (ok = false → p.2 = none ∧ (p.1.dc i).unsup = true ∧ p.1.bitAt (F.DEC_CTX_ERR_ERR i) 5 = true) ∧
       (ok = true → s.poolOk i heads.sps = false → p.2 = none ∧ (p.1.dc i).unsup = true ∧ p.1.bitAt (F.DEC_CTX_ERR_ERR i) 6 = true) ∧
       (ok = true → s.poolOk i heads.sps = true → p.2 ≠ none ∧ (p.1.dc i).unsup = false ∧ ((p.1.dc i).started = true ∨ c.started = true))) ∧
      (c.unsup = true → s.decWith n i a tick x hist false heads =
        (if (hist.getLast?.map (·.dead)).getD false then s.ctxErr i 2 else s, none))) ∧
    (∀ (i a tick : Nat) (x : List Byte) (heads : AuHeads) (p : DecSps) (hist : List AuIn) (start : Bool), i < 128 →
      let c := s.dc i
      let h264 := s.bit (F.DEC_CTX_CTL_CODEC i)
      let t := (s.decodePic n i a tick x heads p hist start).1
      let tainted := t.fld (F.DEC_CTX_STATUS_TAINT i) = 1
      (t.dc i).prev = some e.buf ∧ (h264 = false → ∃ y ∈ (t.dc i).pics, y.buf = e.buf ∧ y.num = a ∧ (y.tainted = true ↔ tainted)) ∧
      (heads.parses = false → tainted ∧ t.bitAt (F.DEC_CTX_ERR_ERR i) 0 = true) ∧
      (∀ k ∈ heads.needs, start = false → heads.memReset = false → (∀ y ∈ c.pics, y.ref = true → y.key h264 ≠ k) → (∀ y ∈ c.subs, y.key ≠ k) →
        ∃ u : Bool, { substitute p k with used := u } ∈ (t.dc i).subs ∧ (u = true → t.bitAt (F.DEC_CTX_ERR_ERR i) 1 = true))) ∧
    (∀ l y, nextOut l = some y → y ∈ l ∧ y.wait = true ∧ ∀ z ∈ l, z.wait = true → y.poc ≤ z.poc) ∧
    (∀ i : Fin 128, exec (.decBufferFree i) s = .next (if s.bufReady i (s.nextAu i) then s.decSched (s.ctxEngine i) else s)) ∧
    (∀ i a, s.bufReady i a = true → ∃ k, s.bufPick i a = some k ∧ s.bufFree i k = true) ∧
    (∀ j, st = 1 → s.bit (F.DEC_ENG_CTL_EN n) = true → e.cur = none → e.queue = [j] → j.ctx < 128 → s.bit (F.DEC_CTX_CTL_EN j.ctx) = true → j.ok = true →
      ((s.dc j.ctx).replay ≠ none ∨ s.ctxDone j.ctx < j.upto) →
      ((s.jobReady j).1 = 2 → (s.decSched n).fld (F.DEC_ENG_STATUS_STATE n) = 2 ∧ ((s.decSched n).de n).cur = some j.ctx ∧
        ((s.decSched n).de n).buf = (s.jobReady j).2.getD 0 ∧
        (s.decSched n).fld (F.DEC_ENG_STATUS_CTX n) = j.ctx ∧ (s.decSched n).fld (F.DEC_CTX_STATUS_POOL_WAIT j.ctx) = 0) ∧
      ((s.jobReady j).1 = 1 → (s.decSched n).de n = e ∧ (s.decSched n).fld (F.DEC_CTX_STATUS_POOL_WAIT j.ctx) = 1)) ∧
    (s.MayWrite m (R.DEC_ENG_CTL n) →
      (st = 3 → exec (.decRetire m n w) s = .next s.taken ∧ exec (.decEngEnable m n w) s = .next s.taken) ∧
      (st ≠ 3 → w.getLsbD 1 = true → Gives (.decRetire m n w) s (retired F.DEC_ENG_ERR_RETIRED)) ∧
      (st < 2 → w.getLsbD 1 = false → exec (.decEngEnable m n w) s = .next (State.taken (if w.getLsbD 0 then (ctl.setFld (F.DEC_ENG_STATUS_STATE n) 1).decSched n
        else ctl.setFld (F.DEC_ENG_STATUS_STATE n) 0))) ∧
      (st = 2 → w.getLsbD 1 = false → exec (.decEngEnable m n w) s = .next ctl.taken)) ∧
    (st ≠ 3 → ∀ a, Gives (.decEngineFault n true a) s (retired F.DEC_ENG_ERR_PARITY) ∧ Gives (.decEngineFault n false a) s (retired F.DEC_ENG_ERR_SECDED)) ∧
    (st ≠ 3 → e.cur ≠ none → s.fld (F.DEC_ENG_WDOG_LIMIT n) ≠ 0 → Gives (.decWdogExpire n) s fun t =>
      retired F.DEC_ENG_ERR_WDOG t ∧ e.since + 500 * s.fld (F.DEC_ENG_WDOG_LIMIT n) ≤ t.time.clk)

/-- R189, R191, R206, R208, R212, R240, R243: enabling a context starts it afresh, keeping what its ring holds from the retain point on, unless its ring, pool or engine forbids it; disabling ends it; while
enabled only a binding that its state allows is taken, and an orphan then takes up its work on the new engine. What is turned away sets ERR bit 8
of a decode context, bit 6 of an encode context; a refused EN or binding keeps its old value, and the write's other fields are taken.
The model's readings in it: log entries 36 and 48. -/
def Obligations.CodecContexts : Prop :=
  ∀ (s : State) (m : Mst) (w : Word), s.pwr.phase = .run →
    (∀ i : Fin 128, s.MayWrite m (R.DEC_CTX_CTL i) →
      let t := s.written (R.DEC_CTX_CTL i) w.toNat
      let n := bits w.toNat 3 0
      let same := w.getLsbD 30 = (s.fld (F.DEC_CTX_CTL_JOIN i) == 1) ∧ w.getLsbD 28 = (s.fld (F.DEC_CTX_CTL_CODEC i) == 1)
      let fits := 16 ≤ s.fld (F.DEC_CTX_BS_SIZE_SIZE i) ∧ 2 ≤ s.fld (F.DEC_CTX_POOL_CFG_COUNT i) ∧ s.fld (F.DEC_ENG_STATUS_STATE n) ≠ 3
      let on := s.bit (F.DEC_CTX_CTL_EN i)
      (on = false → w.getLsbD 31 = true → fits → Gives (.decCtxEnable m i w) s fun u =>
        u.fld (F.DEC_CTX_CTL_EN i) = 1 ∧ u.ctxState i = (if w.getLsbD 30 then 1 else 2) ∧ (u.dc i).joining = w.getLsbD 30 ∧ (u.dc i).pics = [] ∧ (u.dc i).subs = [] ∧
        (u.dc i).started = false ∧ (u.dc i).aus = (s.dc i).aus.filter (fun r => decide (s.retain i ≤ r.num)) ∧ (u.dc i).wr = (s.dc i).wr ∧
        (u.dc i).shown = (s.dc i).shown ∧ u.ctxDone i = s.ctxDone i ∧ u.ctxNext i = s.ctxNext i ∧
        (∀ k, k ≠ i.val → u.dc k = s.dc k) ∧ u = { s with regs := u.regs, dctx := u.dctx, resp := .ok }) ∧
      (on = false → w.getLsbD 31 = true → ¬fits → exec (.decCtxEnable m i w) s = .next (State.taken ((t.setFld (F.DEC_CTX_CTL_EN i) 0).ctxErr i 8))) ∧
      (on = true → w.getLsbD 31 = false → same → Gives (.decCtxDisable m i w) s fun u =>
        u.fld (F.DEC_CTX_CTL_EN i) = 0 ∧ (u.ctxEngine i = if s.canBind i n then n else s.ctxEngine i) ∧
        (n ≠ s.ctxEngine i → s.canBind i n = false → u.bitAt (F.DEC_CTX_ERR_ERR i) 8 = true) ∧
        (∀ q, q < 24 → ∀ y ∈ (u.link q).aus, y.ctx = i → y.num = none → q = 20 ∨ q = 21 → y.dropped = true) ∧ u.ctxState i = 0 ∧ (u.dc i).pend = none ∧ (u.dc i).joining = false ∧
        (∀ k, k < 16 → (s.de k).cur ≠ some i.val → ∀ j ∈ (u.de k).queue, j.ctx ≠ i) ∧
        (∀ k, k ≠ i.val → u.dc k = s.dc k) ∧ u = { s with regs := u.regs, dctx := u.dctx, deng := u.deng, links := u.links, resp := .ok }) ∧
      (on = true → w.getLsbD 31 = true → ¬same → exec (.decCtxRebind m i w) s = .next (State.taken (s.ctxErr i 8))) ∧
      (on = true → w.getLsbD 31 = true → same → n ≠ s.ctxEngine i → s.canBind i n = false →
        exec (.decCtxRebind m i w) s = .next (State.taken ((t.setFld (F.DEC_CTX_CTL_ENGINE i) (s.ctxEngine i)).ctxErr i 8))) ∧
      (on = true → w.getLsbD 31 = true → same → s.ctxState i ≠ 5 → (n = s.ctxEngine i ∨ s.canBind i n = true) →
        exec (.decCtxRebind m i w) s = .next t.taken) ∧
      (on = true → w.getLsbD 31 = true → same → s.ctxState i = 5 → s.canBind i n = true →
        exec (.decCtxRebind m i w) s = .next ((t.orphanBind i n).taken))) ∧
    (∀ i : Fin 32, s.MayWrite m (R.ENC_CTX_CTL i) →
      let t := s.written (R.ENC_CTX_CTL i) w.toNat
      let n := bits w.toNat 2 0
      let same := w.getLsbD 28 = (s.fld (F.ENC_CTX_CTL_CODEC i) == 1) ∧ w.getLsbD 27 = (s.fld (F.ENC_CTX_CTL_RC i) == 1) ∧
        w.getLsbD 26 = (s.fld (F.ENC_CTX_CTL_SEI i) == 1) ∧ w.getLsbD 25 = (s.fld (F.ENC_CTX_CTL_LINK i) == 1) ∧
        w.getLsbD 24 = (s.fld (F.ENC_CTX_CTL_QUAD i) == 1)
      let fits := 2 ≤ s.fld (F.ENC_CTX_SRC_CFG_SLOTS i) ∧ frameSizeOk (s.encW i) (s.encH i) = true ∧ 16 ≤ s.fld (F.ENC_CTX_OUT_SIZE_SIZE i) ∧
        s.encStep i ≠ 0 ∧ s.fld (F.ENC_ENG_STATUS_STATE n) ≠ 3
      let on := s.bit (F.ENC_CTX_CTL_EN i)
      (on = false → w.getLsbD 31 = true → fits → exec (.encCtxEnable m i w) s = .next (State.taken ((t.setEc i {}).setEncState i 1))) ∧
      (on = false → w.getLsbD 31 = true → ¬fits → exec (.encCtxEnable m i w) s = .next (State.taken ((t.setFld (F.ENC_CTX_CTL_EN i) 0).encErr i 6))) ∧
      (on = true → w.getLsbD 31 = false → same → Gives (.encCtxDisable m i w) s fun u =>
        u.fld (F.ENC_CTX_CTL_EN i) = 0 ∧ (u.encEngine i = if s.encCanBind i n then n else s.encEngine i) ∧
        (n ≠ s.encEngine i → s.encCanBind i n = false → u.bitAt (F.ENC_CTX_ERR_ERR i) 6 = true) ∧ u.encState i = 0 ∧ (u.ec i).pend = none ∧ (u.ec i).core = (s.ec i).core ∧
        ((s.ec i).held = none → ∀ k, k < 8 → (s.ee k).cur ≠ some i.val → ∀ j ∈ (u.ee k).queue, j.ctx ≠ i) ∧
        u = { s with regs := u.regs, ectx := u.ectx, eeng := u.eeng, resp := .ok }) ∧
      (on = true → w.getLsbD 31 = true → ¬same → exec (.encCtxRebind m i w) s = .next (State.taken (s.encErr i 6))) ∧
      (on = true → w.getLsbD 31 = true → same → n ≠ s.encEngine i → s.encCanBind i n = false →
        exec (.encCtxRebind m i w) s = .next (State.taken ((t.setFld (F.ENC_CTX_CTL_ENGINE i) (s.encEngine i)).encErr i 6))) ∧
      (on = true → w.getLsbD 31 = true → same → s.encState i ≠ 5 → (n = s.encEngine i ∨ s.encCanBind i n = true) →
        exec (.encCtxRebind m i w) s = .next t.taken) ∧
      (on = true → w.getLsbD 31 = true → same → s.encState i = 5 → s.encCanBind i n = true →
        let u := t.setEncState i 1
        exec (.encCtxRebind m i w) s = .next (State.taken (match (s.ec i).pend with
          | some j => (u.setEc i { s.ec i with pend := none }).encQueue n { j with clk := s.time.clk }
          | none => u))))

/-- R218, R222, R223, R228, R239, R240, R242, R243: an encode engine at rest takes the first job whose WAIT is met; a frame ends with its unit in the
output ring, behind which OUT_WR moves on, or waits, held, while the ring has no room, until ENC_OUT_ROOM; without damage and room in the coded
picture buffer it is dropped, and its damage carried. OUT_RD is software's unless LINK is 1. Retirement is as for decode engines.
The model's readings in it: log entries 13, 19, 50 and 51. -/
def Obligations.EncodeEngines : Prop :=
  ∀ (s : State) (m : Mst) (n : Fin 8) (w : Word), s.pwr.phase = .run →
    let e := s.ee n
    let st := s.fld (F.ENC_ENG_STATUS_STATE n)
    let ctl := (s.written (R.ENC_ENG_CTL n) w.toNat).setFld (F.ENC_ENG_CTL_RETIRE n) 0
    let retired (b : Nat) (t : State) : Prop := t.fld (F.ENC_ENG_STATUS_STATE n) = 3 ∧ t.bitAt (F.ENC_ENG_ERR_ERR n) 0 = true ∧
      t.bitAt (F.ENC_ENG_ERR_ERR n) b = true ∧ (t.ee n).queue = [] ∧ (t.ee n).cur = none ∧ (∀ k, k < 8 → k ≠ n.val → t.ee k = s.ee k) ∧
      ∀ i, i < 32 → s.bit (F.ENC_CTX_CTL_EN i) = true → s.encEngine i = n → s.encState i ≠ 5 → t.encState i = 5 ∧
        t.bitAt (F.ENC_CTX_ERR_ERR i) 7 = true ∧ (t.ec i).held = none ∧ (t.ec i).core = (s.ec i).core
    (∀ j, st = 1 → s.bit (F.ENC_ENG_CTL_EN n) = true → e.cur = none → e.queue = [j] → j.ctx < 32 → (s.ec j.ctx).held = none →
      s.bit (F.ENC_CTX_CTL_EN j.ctx) = true → j.ok = true → (∀ p, (s.ec j.ctx).core.fp = some p → p < j.frame) → j.wait = 0 →
      Gives (.encJobStart n) s fun t => t.fld (F.ENC_ENG_STATUS_STATE n) = 2 ∧ (t.ee n).cur = some j.ctx ∧ t.encState j.ctx = 3 ∧
        t.fld (F.ENC_ENG_STATUS_CTX n) = j.ctx ∧ (t.ee n).queue = e.queue ∧ t = { s with regs := t.regs, eeng := t.eeng }) ∧
    ((st ≠ 1 ∨ e.cur ≠ none) → exec (.encJobStart n) s = .next s) ∧
    ((e.cur = none ∨ ∃ i, e.cur = some i ∧ s.encWaits i = true) → ∀ r, exec (.encFrameDone n r) s = .next s) ∧
    (∀ (i : Nat) (r : EngRun) (j : EncJob), i < 32 → e.cur = some i → (s.ec i).held = none → e.queue.find? (fun x => x.ctx == i) = some j →
      s.encWaits i = false → Gives (.encFrameDone n r) s fun t => (t.ee n).cur = none ∧ t.fld (F.ENC_ENG_STATUS_STATE n) = (if s.bit (F.ENC_ENG_CTL_EN n) then 1 else 0) ∧
        ((t.ec i).held = none → (t.ee n).queue = e.queue.eraseP (fun x => x.ctx == i)) ∧
        (∀ k, k ≠ i → t.ec k = s.ec k) ∧ (∀ u, (t.ec i).held = some u → u.frame = j.frame ∧ u.fence = j.fence ∧ (t.ee n).queue = e.queue)) ∧
    (∀ i : Fin 32, ((s.ec i).held = none → exec (.encOutRoom i) s = .next s) ∧
      (∀ u, (s.ec i).held = some u → ((s.outFits i u.data.length = false ∨ s.encWaits i = true) → exec (.encOutRoom i) s = .next s) ∧
        (s.outFits i u.data.length = true → s.encWaits i = false → Gives (.encOutRoom i) s fun t => (t.ec i).held = none ∧
          ((t.ec i).core = u.core ∨ ((t.ec i).core = (s.ec i).core ∧ t.bitAt (F.ENC_CTX_ERR_ERR i) 8 = true))))) ∧
    (∀ i : Fin 32, s.MayWrite m (R.ENC_CTX_OUT_RD i) →
      exec (.encOutRdWrite m i w) s = .next (State.taken (if s.bit (F.ENC_CTX_CTL_LINK i) then s else s.written (R.ENC_CTX_OUT_RD i) w.toNat))) ∧
    (s.MayWrite m (R.ENC_ENG_CTL n) →
      (st = 3 → exec (.encRetire m n w) s = .next s.taken ∧ exec (.encEngEnable m n w) s = .next s.taken) ∧
      (st ≠ 3 → w.getLsbD 1 = true → Gives (.encRetire m n w) s (retired 0)) ∧
      (st < 2 → w.getLsbD 1 = false → exec (.encEngEnable m n w) s = .next (State.taken (ctl.setFld (F.ENC_ENG_STATUS_STATE n) (if w.getLsbD 0 then 1 else 0)))) ∧
      (st = 2 → w.getLsbD 1 = false → exec (.encEngEnable m n w) s = .next ctl.taken)) ∧
    (st ≠ 3 → ∀ a, Gives (.encEngineFault n true a) s (retired 2) ∧ Gives (.encEngineFault n false a) s (retired 3)) ∧
    (st ≠ 3 → e.cur ≠ none → s.fld (F.ENC_ENG_WDOG_LIMIT n) ≠ 0 → Gives (.encWdogExpire n) s fun t =>
      retired 1 t ∧ e.since + 500 * s.fld (F.ENC_ENG_WDOG_LIMIT n) ≤ t.time.clk)

/-! ### The compositor and the heads -/

/-- R272, R273, R276, R280, R281, R296, R302, R323, R337: an input, and a writeback port, starts afresh when it is enabled, and what may not
change while it is enabled is discarded and flagged, as is an enable with too few slots or a size out of limits; coefficients in use are not
written; FG_LOCK stays set; a commit of an OFF head makes its shadow registers live at once if they are legal and its region of the Age Map is
free, and else changes nothing but the error bits.
The model's readings in it: log entries 36 and 54. -/
def Obligations.CompositorRegisters : Prop :=
  ∀ (s : State) (m : Mst) (w : Word), s.pwr.phase = .run →
    (∀ j : Fin 24, s.MayWrite m (R.COMP_IN_CTL j) →
      let t := s.written (R.COMP_IN_CTL j) w.toNat
      let same := bits w.toNat 21 16 = s.fld (F.COMP_IN_CTL_SLOTS j) ∧ bits w.toNat 15 8 = s.fld (F.COMP_IN_CTL_PITCH j) ∧
        bits w.toNat 1 0 = s.fld (F.COMP_IN_CTL_FMT j)
      (s.inEn j = false → w.getLsbD 31 = true → exec (.inputEnable m j w) s =
        .next (State.taken (if 2 ≤ bits w.toNat 21 16 ∧ 2 ≤ s.fld (F.COMP_IN_STRIDE_SIZE j) then t.setInp j {}
          else (t.setFld (F.COMP_IN_CTL_EN j) 0).compErr 7 j 0))) ∧
      (s.inEn j = true → ¬same → exec (.inputEnable m j w) s = .next (State.taken (s.compErr 7 j 0))) ∧
      (s.inEn j = true → same → exec (.inputEnable m j w) s =
        .next (State.taken (if w.getLsbD 31 then t else t.setInp j { s.inp j with cur := none })))) ∧
    (∀ k : Fin 8, s.MayWrite m (R.COMP_WB_CTL k) →
      let t := s.written (R.COMP_WB_CTL k) w.toNat
      let on := s.bit (F.COMP_WB_CTL_EN k)
      let same := bits w.toNat 20 16 = s.fld (F.COMP_WB_CTL_HEAD k) ∧ bits w.toNat 9 8 = s.fld (F.COMP_WB_CTL_SIZE k) ∧
        bits w.toNat 0 0 = s.fld (F.COMP_WB_CTL_TEN_BIT k)
      let flagged := exec (.wbEnable m k w) s = .next (State.taken (s.setFld (F.COMP_WB_ERR_CFG k) 1))
      (on = false → w.getLsbD 31 = true → t.wbFits k = true → 2 ≤ s.fld (F.COMP_WB_CFG_SLOTS k) → s.headState (bits w.toNat 20 16) ≠ 0 →
        exec (.wbEnable m k w) s = .next (State.taken (t.setWb k {}))) ∧
      (on = false → w.getLsbD 31 = true → (t.wbFits k = false ∨ s.fld (F.COMP_WB_CFG_SLOTS k) < 2 ∨ s.headState (bits w.toNat 20 16) = 0) →
        exec (.wbEnable m k w) s = .next (State.taken ((t.setFld (F.COMP_WB_CTL_EN k) 0).setFld (F.COMP_WB_ERR_CFG k) 1))) ∧
      (on = true → ¬same → flagged) ∧
      (on = true → same → exec (.wbEnable m k w) s = .next (State.taken t))) ∧
    (∀ (vert : Bool) (t : Fin 2) (p : Fin 64) (k : Fin 4), s.MayWrite m (sclReg vert t p k) →
      exec (.sclCoefWrite m vert t p k w) s = .next (State.taken
        (if s.tableInUse t then s.setFld F.SCL_ERR_CFG 1 else s.written (sclReg vert t p k) w.toNat))) ∧
    (s.MayWrite m R.FG_LOCK → Gives (.fgLockSet m w) s fun t => t.fld F.FG_LOCK_LOCK = (if s.bit F.FG_LOCK_LOCK || w.getLsbD 0 then 1 else 0) ∧
      t = { s with regs := t.regs, resp := .ok } ∧ s.SameRegsBut t [R.FG_LOCK]) ∧
    (∀ h : Fin 32, s.MayWrite m (R.HEAD_COMMIT h) → w.getLsbD 0 = true →
      let tiles := ceilDiv (s.fld (F.HEAD_HTIMING_HACTIVE h)) 32 * ceilDiv (s.fld (F.HEAD_VTIMING_VACTIVE h)) 32
      let legal := s.timingOk h = true ∧ s.amapOk h (s.fld (F.FG_HEAD_AMAP_BASE h)) tiles = true
      (s.headState h ≠ 0 → exec (.headCommitGo m h w) s = .next (State.taken (s.written (R.HEAD_COMMIT h) w.toNat))) ∧
      (s.headState h = 0 → legal → Gives (.headCommitGo m h w) s fun t => t.fld (F.HEAD_COMMIT_GO h) = 0 ∧
        (∀ o ∈ commitRegs h, t.lreg o = s.reg o) ∧ (∀ o, o ∉ commitRegs h → t.lreg o = s.lreg o) ∧
        (∀ o, o ≠ R.HEAD_COMMIT h → t.reg o = s.reg o) ∧ t = { s with regs := t.regs, live := t.live, resp := .ok }) ∧
      (s.headState h = 0 → ¬legal → Gives (.headCommitGo m h w) s fun t => t.fld (F.HEAD_COMMIT_GO h) = 0 ∧ t.fld (F.HEAD_ERR_CFG h) = 1 ∧
        t.live = s.live ∧ t = { s with regs := t.regs, resp := .ok } ∧ s.SameRegsBut t [R.HEAD_COMMIT h, R.HEAD_ERR h, R.FG_ERR]))

/-- R283, R284, R323: EN at 1 starts an OFF head, unless its region of the Age Map is taken; EN at 0 stops a head at once in blanking, else at the
end of the frame's active lines. At its latch line a head takes the frame in hand; at each line start the line in hand has been drawn
and the next one begins, at its nominal time; a row that arrives joins the FIFO, or, where an earlier
frame asked for it, is only taken note of; the end of the active lines closes the frame and keeps its CRC, size and veiled tiles for the next certificate.
The model's readings in it: log entries 52, 53 and 54. -/
def Obligations.HeadsScan : Prop :=
  ∀ (s : State) (m : Mst) (h : Fin 32) (w : Word), s.pwr.phase = .run →
    let x := s.hd h
    let st := s.headState h
    let ctl := s.written (R.HEAD_CTL h) w.toNat
    let small := ∀ l ∈ s.layers, l.lp < 384
    (s.MayWrite m (R.HEAD_CTL h) →
      (s.bit (F.HEAD_CTL_EN h) = false → w.getLsbD 0 = true →
        (st = 0 → s.amapLiveOk h = false → exec (.headStart m h w) s = .next (State.taken (s.setFld F.FG_ERR_AMAP 1))) ∧
        (st = 0 → s.amapLiveOk h = true → exec (.headStart m h w) s =
          .next (State.taken ((ctl.setHd h { x with startNs := s.nowNs }).setFld (F.HEAD_STATUS_STATE h) 1))) ∧
        (st ≠ 0 → exec (.headStart m h w) s = .next ctl.taken)) ∧
      (s.bit (F.HEAD_CTL_EN h) = true → w.getLsbD 0 = false →
        ((st = 2 ∨ st = 3) → 0 ≤ x.line → x.ended = false → exec (.headStop m h w) s = .next (State.taken (ctl.setFld (F.HEAD_STATUS_STATE h) 4))) ∧
        ((st = 1 ∨ (st = 2 ∨ st = 3) ∧ (x.line < 0 ∨ x.ended = true)) → small → x.owed = [] → Gives (.headStop m h w) s fun t =>
          t.headState h = 0 ∧ t.hd h = { certs := x.certs } ∧ t.bitAt F.TICK_LOCK_LOCK h = false ∧
          (∀ g, g ≠ h.val → t.hd g = s.hd g) ∧ (s.layers.Pairwise (fun a b => a.lp ≠ b.lp ∧ ¬(a.head = b.head ∧ a.slot = b.slot)) →
            ∀ l ∈ t.layers, l.head = h → l.slot < 16 → l.held = false ∧ l.scalers = false) ∧
          t = { s with regs := t.regs, layers := t.layers, heads := t.heads, wbs := t.wbs, resp := .ok }) ∧
        ((st = 0 ∨ st = 4) → exec (.headStop m h w) s = .next ctl.taken))) ∧
    (st = 1 → s.bit F.TICK_STATUS_RUNNING = true → Gives (.headLatchLine h) s fun t => (t.hd h).latched = true ∧ (t.hd h).ended = false ∧
      (t.hd h).resync = true ∧ (t.hd h).crc = 0xFFFFFFFF ∧ (t.hd h).fifo = [] ∧ s.time.now ≤ t.time.now) ∧
    (2 ≤ st → x.latched = false → x.line = s.latchLine h → Gives (.headLatchLine h) s fun t => (t.hd h).latched = true ∧ (t.hd h).ended = false ∧
      (t.hd h).crc = 0xFFFFFFFF ∧ (t.hd h).fifo = [] ∧ t.time = s.time) ∧
    (2 ≤ st → (x.latched = true ∨ x.line ≠ s.latchLine h) → exec (.headLatchLine h) s = .next s) ∧
    (∀ full bad, 2 ≤ st → (x.latched = true ∨ x.line ≠ s.latchLine h) →
      (x.line < (s.vact h : Int) - 1 → Gives (.headLineStart h full bad) s fun t => (t.hd h).line = x.line + 1 ∧
        s.lineAt40 h (x.line + 1) ≤ t.time.now ∧ (t.hd h).tick = x.tick ∧ (t.hd h).second = x.second ∧ (t.hd h).latched = x.latched) ∧
      (x.line = (s.vact h : Int) - 1 → x.ended = false → exec (.headLineStart h full bad) s = .next s)) ∧
    (∀ (lp : Fin 384) (plane : Fin 3) (row n rep ce : Nat),
      let mine (f : Fetch) : Bool := f.lp == lp && f.plane == plane && f.row == row
      let i := Instr.layerFetchReturn h lp plane row n ⟨[], rep⟩ ⟨[], ce⟩
      let count (f : Fetch) : Nat := min n (f.blocks - f.got.length / 64)
      let r (f : Fetch) : RdRes := s.serve 0x70 (f.addr + f.got.length) (64 * count f)
      let more (f : Fetch) : List Byte := (r f).dmaBytes (f.addr + f.got.length) (64 * count f)
      let waits (f : Fetch) : Bool := s.waits (s.region (f.addr + f.got.length))
      (2 ≤ st → x.late.find? mine = none → x.fifo.find? mine = none → exec i s = .next s) ∧
      (∀ f, 2 ≤ st → x.late.find? mine = some f →
        (waits f = true → exec i s = .next s) ∧
        (waits f = false → (r f).poisoned = false → Gives i s fun t =>
          t.hd h = { x with
            late := (x.late.map (fun g => if g = f then { g with got := g.got ++ more f } else g)).filter (fun g => g.got.length < 64 * g.blocks) } ∧ (∀ g, g ≠ h.val → t.hd g = s.hd g) ∧ t.layers = s.layers)) ∧
      (∀ f l p, 2 ≤ st → x.late.find? mine = none → x.fifo.find? mine = some f → s.layerOf lp = some l → l.pic = some p →
        (waits f = true → exec i s = .next s) ∧
        (waits f = false → (r f).poisoned = false → Gives i s fun t =>
          t.hd h = { x with blocks := x.blocks + count f, fifo := x.fifo.map (fun g => if mine g then { g with got := g.got ++ more f } else g) } ∧
          (∀ g, g ≠ h.val → t.hd g = s.hd g)))) ∧
    (x.drawing = none → s.finishLine h = s) ∧
    (2 ≤ st → x.ended = false → x.line = (s.vact h : Int) - 1 → small →
      let y := (s.finishLine h).hd h
      (st ≠ 4 → Gives (.headFrameEnd h) s fun t => s.lineAt40 h (s.vact h) ≤ t.time.now ∧ t.headState h = st ∧ (t.hd h).ended = true ∧
        (t.hd h).prevCrc = y.crc ^^^ 0xFFFFFFFF ∧ (t.hd h).prevW = s.hact h ∧ (t.hd h).prevH = s.vact h ∧
        (t.hd h).prevVeiled = (y.amap.filter entryVeiled).length ∧ (t.hd h).prevUflow = y.uflows ∧
        (t.hd h).fifo = y.fifo.filter (fun f => f.got.length < 64 * f.blocks)) ∧
      (st = 4 → x.owed = [] → Gives (.headFrameEnd h) s fun t => t.headState h = (if s.bit (F.HEAD_CTL_EN h) then 1 else 0) ∧
        t.bitAt F.TICK_LOCK_LOCK h = false)) ∧
    (2 ≤ st → (x.ended = true ∨ x.line ≠ (s.vact h : Int) - 1) → exec (.headFrameEnd h) s = .next s)

/-! ### Memory -/

/-- R17, R343 to R353, R357, R358, R361, R386: a read at the controller is served at once and changes no byte, or is held; a permitted write of
whole code words stores them and nothing else, each in poison form where its master marks it so or parity fails, or waits at its port while a
frequency change runs; a refused one stores nothing, and an A core takes note of it; a read is promoted 2,000 clocks after it came; an idle channel
drains its write queue. At a refresh the delay set that waits becomes live and a waiting operation starts; INIT, its end and READY lead a channel
from OFF to RUN; a training operation runs where R351 allows it, and reports what it found.
The model's readings in it: log entries 56 and 57. -/
def Obligations.MemoryController : Prop :=
  ∀ (s : State) (m : Mst) (c : Fin 8) (w : Word), s.pwr.phase = .run →
    let ch := s.ddrCh c
    let st := s.ddrState c
    (∀ (a : BitVec 40) (n : BitVec 9) (run : ReadRun),
      (s.regionN a.toNat n.toNat ≠ .dram → ∀ hold, exec (.dramRead m a n hold run) s = .next { s with resp := .busError }) ∧
      (s.regionN a.toNat n.toNat = .dram → c.val = dramChan a.toNat →
        (let t := s.askUnits a.toNat n.toNat
         exec (.dramRead m a n true run) s = .next { t.setDdrCh c { t.ddrCh c with
           rq := ch.rq ++ [⟨m.toNat, a.toNat, n.toNat, false, s.time.clk⟩] } with resp := .stalled }) ∧
        (s.fc.stage ≠ .change → ch.rq = [] → Gives (.dramRead m a n false run) s fun t =>
          let r := s.serve m.toNat a.toNat n.toNat
          t.resp = .reads [(m.toNat, a.toNat, r.data, parityBad run.par r.bad)] ∧ (t.ddrCh c).rq = [] ∧
          (s.gonePages .dram a.toNat n.toNat = [] → n ≠ 0 → (t.ddrCh c).lastRd = s.time.clk) ∧
          t = { s with regs := t.regs, wq := t.wq, ddr := t.ddr, resp := t.resp }))) ∧
    (∀ (a : BitVec 40) (d : WrData),
      let b := d.bytes
      let p := s.parity m.toNat a.toNat d.par
      let ways := s.judge m.toNat a.toNat = .permit ∧ a.toNat % 32 = 0 ∧ (b.length = 32 ∨ b.length = 64) ∧ a.toNat % 64 + b.length ≤ 64 ∧
        s.retired a.toNat = false
      (s.regionN a.toNat b.length ≠ .dram → exec (.dramWrite m a d) s = .next { s with resp := .busError }) ∧
      (s.regionN a.toNat b.length = .dram →
        (s.fc.stage = .change → ways →
          ((b.length = 32 ∨ wordBad d 0 = wordBad d 1) → exec (.dramWrite m a d) s = .next { p with
            fc := { s.fc with writes := s.fc.writes ++ [⟨m.toNat, a.toNat, b, wordBad d 0⟩] }, resp := .stalled }) ∧
          (b.length = 64 → wordBad d 0 ≠ wordBad d 1 → exec (.dramWrite m a d) s = .next { p with
            fc := { s.fc with writes := s.fc.writes ++ [⟨m.toNat, a.toNat, b.take 32, wordBad d 0⟩, ⟨m.toNat, a.toNat + 32, b.drop 32, wordBad d 1⟩] },
            resp := .stalled })) ∧
        (s.fc.stage ≠ .change → ways → s.lineAt a.toNat = none →
          Gives (.dramWrite m a d) s fun t => t.resp = .ok ∧ (∀ k, k < b.length → t.byte (a.toNat + k) = b.getD k 0) ∧
            (∀ k, k < b.length / 32 → t.delta (a.toNat + 32 * k) = if wordBad d k then 0xA5A5A5A5 else 0) ∧ s.SameMemBut t a.toNat b.length ∧
            t = { s with regs := t.regs, mem := t.mem, chk := t.chk, wq := t.wq, ddr := t.ddr, churn := t.churn, resp := t.resp }) ∧
        (∀ k, s.judge m.toNat a.toNat = .refuse k → Gives (.dramWrite m a d) s fun t => t.resp = .refused ∧ s.SameMemButLog t ∧
          (isA m.toNat = false → t.cores = s.cores) ∧ s.SameCoresBut t m.toNat ∧
          (isA m.toNat = true → (s.core m.toNat).notice = none → (t.core m.toNat).notice = some (BitVec.ofNat 64 a.toNat)) ∧
          t = { s with regs := t.regs, mem := t.mem, log := t.log, cores := t.cores, resp := t.resp }))) ∧
    ((ch.rq.find? (fun r => !r.display) = none → exec (.ddrReadPromote c) s = .next s) ∧
     (∀ r, ch.rq.find? (fun r => !r.display) = some r → exec (.ddrReadPromote c) s = .next ((s.advance (r.clk + 2000 - s.time.clk)).setDdrCh c
       { ch with rq := ch.rq.map (fun x => if x == r then { x with promoted := true } else x) }))) ∧
    (∀ n, (ch.rq = [] → s.fc.stage ≠ .change →
        let t := s.advance (ch.lastRd + 5 * s.fld (F.DDR_WQ_IDLE c) - s.time.clk)
        exec (.ddrIdleDrain c n) s =
          .next ((t.setQueue c ((s.queue c).drop n)).bump (F.DDR_CNT_WR_COUNT c) (min n (s.queue c).length))) ∧
      (ch.rq ≠ [] → exec (.ddrIdleDrain c n) s = .next s)) ∧
    (s.fc.stage ≠ .change → (st = 2 ∨ st = 3) → Gives (.ddrRefresh c) s fun t =>
      ch.next ≤ t.refNs ∧ (t.ddrCh c).next = ch.next + s.fld (F.DDR_REF_REFI_NS c) ∧ (t.ddrCh c).trn = ch.trn.map (fun x => (x.1, x.2.1, true)) ∧
      t.fld (F.DDR_CTL_APPLY c) = 0 ∧ (∀ o ∈ delayRegs c (s.ddrPoint c), t.lreg o = if s.bit (F.DDR_CTL_APPLY c) then s.reg o else s.lreg o) ∧
      t = { s with regs := t.regs, live := t.live, time := t.time, tests := t.tests, cores := t.cores, ddr := t.ddr }) ∧
    (s.MayWrite m (R.DDR_CTL c) →
      let ctl := s.written (R.DDR_CTL c) w.toNat
      (w.getLsbD 0 = false → ∀ i ∈ [Instr.ddrInit m c w, .ddrApply m c w],
        exec i s = .next (State.taken ((ctl.setFld (F.DDR_STATUS_STATE c) 0).setDdrCh c { ch with trn := none }))) ∧
      (w.getLsbD 0 = true → w.getLsbD 1 = true → exec (.ddrInit m c w) s =
        .next (State.taken ((ctl.setFlds [(F.DDR_STATUS_STATE c, 1), (F.DDR_STATUS_POINT c, 3)]).setDdrCh c { ch with trn := none }))) ∧
      (w.getLsbD 0 = true → w.getLsbD 1 = false → exec (.ddrApply m c w) s = .next ctl.taken)) ∧
    (st ≠ 1 → exec (.ddrInitDone c) s = .next s) ∧
    (st = 1 → 0 < s.fld (F.DDR_REF_REFI_NS c) → Gives (.ddrInitDone c) s fun t =>
      let i := s.fld (F.DDR_REF_REFI_NS c)
      t.ddrState c = 2 ∧ s.refNs < (t.ddrCh c).next ∧ (t.ddrCh c).next ≤ s.refNs + i ∧ (t.ddrCh c).next % i = c.val * i / 8 ∧
      t = { s with regs := t.regs, ddr := t.ddr } ∧ s.SameRegsBut t [R.DDR_STATUS c]) ∧
    (s.MayWrite m (R.DDR_TRN_CTL c) → w.getLsbD 31 = true → ch.trn = none →
      let t := s.written (R.DDR_TRN_CTL c) w.toNat
      let op := bits w.toNat 3 0
      let may := (op = 1 ∨ op = 2 ∨ op = 4) ∧ st = 2 ∨ (op = 3 ∨ op = 5 ∨ op = 6) ∧ (st = 2 ∨ st = 3)
      ∀ i ∈ [Instr.trnCa m c w, .trnWckLevel m c w, .trnReadDq m c w, .trnWriteDq m c w, .trnOsc m c w, .trnMrr m c w],
        (may → exec i s = .next (State.taken (t.setDdrCh c { ch with trn := some (op, s.fld (F.DDR_TRN_ROW_ROW c), st == 2) }))) ∧
        (¬may → exec i s = .next (State.taken (t.setFlds [(F.DDR_TRN_CTL_GO c, 0), (F.DDR_TRN_STAT_REFUSED c, 1), (F.DDR_ERR_TRN c, 1)])))) ∧
    (∀ (dq : Word) (dmi : BitVec 4) (ca count : BitVec 16) (op row : Nat), ch.trn = some (op, row, true) →
      Gives (.ddrTrnDone c dq dmi ca count) s fun t => (t.ddrCh c).trn = none ∧ t.fld (F.DDR_TRN_CTL_GO c) = 0 ∧ t.fld (F.DDR_TRN_STAT_DONE c) = 1 ∧
        (op = 1 → t.fld (F.DDR_TRN_PASS1_CA c) = ca.toNat) ∧ (op = 3 ∨ op = 4 → t.fld (F.DDR_TRN_PASS0_DQ c) = dq.toNat ∧ t.fld (F.DDR_TRN_PASS1_DMI c) = dmi.toNat) ∧
        (op = 5 → t.fld (F.DDR_TRN_STAT_COUNT c) = count.toNat) ∧ (op = 6 → t.fld (F.DDR_TRN_STAT_COUNT c) % 256 = count.toNat % 256) ∧
        (op ≠ 4 → t = { s with regs := t.regs, ddr := t.ddr }) ∧ t = { s with regs := t.regs, ddr := t.ddr, mem := t.mem, chk := t.chk }) ∧
    (s.MayWrite m R.DDR_GCTL →
      let d := s.fld (F.DDR_CFG_DENSITY 0)
      let idle := ∀ k, k < 8 → s.fld (F.DDR_CFG_DENSITY k) = d ∧ s.ddrState k = 2
      (w.getLsbD 0 = false → exec (.ddrReady m w) s = .next s.taken) ∧
      (w.getLsbD 0 = true → ¬idle → exec (.ddrReady m w) s = .next (State.taken (s.setFld (F.DDR_ERR_CFG 0) 1))) ∧
      (w.getLsbD 0 = true → idle → Gives (.ddrReady m w) s fun t => t.fld F.DDR_GCTL_READY = 1 ∧ (∀ k, k < 8 → t.ddrState k = 3) ∧
        t.fld F.DDR_TOP_GIB = (if d = 1 then 28 else if d = 2 then 56 else 14) ∧ t = { s with regs := t.regs, resp := .ok }))

/-- R354 to R356, R359, R503: GO starts a frequency change unless one is pending, DVFS is busy or TARGET is faster than the point allows; the PLL
locks, a window of memory-quiet is searched, and the change runs when one opens, or, with FORCE, at the timeout, which otherwise gives it up; at
its end, with nothing waiting for it and no decode engine free to take a job, every channel runs again. From 1.3 µs into the change TARGET is the current point, with its delay set live.
The model's readings in it: log entries 37 and 56. -/
def Obligations.FrequencyChange : Prop :=
  ∀ (s : State) (m : Mst) (w : Word), s.pwr.phase = .run →
    let stage := s.fc.stage
    let target := bits w.toNat 25 24
    let ctl := (s.written R.DDR_FC_CTL w.toNat).setFld F.DDR_FC_CTL_GO 0
    let p := s.fld F.DDR_FC_CTL_TARGET
    let running (t : State) : Prop := t.fc = { s.fc with stage := .change, clk := t.time.clk - 650 } ∧ 650 ≤ t.time.clk ∧
      ∀ c, c < 8 → t.fld (F.DDR_CTL_APPLY c) = 0 ∧ t.ddrPoint c = p ∧ t.ddrState c = s.ddrState c ∧ ∀ o ∈ delayRegs c p, t.lreg o = s.reg o
    (s.MayWrite m R.DDR_FC_CTL →
      (s.bit F.DDR_FC_STAT_BUSY = false →
        (w.getLsbD 31 = false → exec (.ddrFcGo m w) s = .next ctl.taken) ∧
        (w.getLsbD 31 = true → (s.bit F.PWR_STATUS_DVFS_BUSY = true ∨ target < s.fld F.PWR_DVFS_CURRENT) →
          exec (.ddrFcGo m w) s = .next (State.taken (ctl.setFld (F.DDR_ERR_CFG 0) 1))) ∧
        (w.getLsbD 31 = true → s.bit F.PWR_STATUS_DVFS_BUSY = false → s.fld F.PWR_DVFS_CURRENT ≤ target → exec (.ddrFcGo m w) s =
          .next (State.taken { ctl.setFlds [(F.DDR_FC_STAT_BUSY, 1), (F.DDR_FC_STAT_PREP, 0)] with fc := { s.fc with stage := .lock, clk := s.time.clk } }))) ∧
      (s.bit F.DDR_FC_STAT_BUSY = true → exec (.ddrFcGo m w) s =
        .next (State.taken ((s.setFld F.DDR_FC_CTL_FORCE (bits w.toNat 30 30)).setFld (F.DDR_ERR_CFG 0) 1)))) ∧
    (stage = .lock → exec .ddrFcPrep s =
      .next { s.setFld F.DDR_FC_STAT_PREP 1 with fc := { s.fc with stage := .search, clk := s.time.clk } }) ∧
    (stage ≠ .lock → exec .ddrFcPrep s = .next s) ∧
    (stage = .search → s.windowOpen = true → Gives .ddrFcWindow s fun t => running t ∧ t.time.clk = s.time.clk + 650 ∧
      t = { s with regs := t.regs, live := t.live, time := t.time, tests := t.tests, cores := t.cores, fc := t.fc }) ∧
    ((stage ≠ .search ∨ s.windowOpen = false) → exec .ddrFcWindow s = .next s) ∧
    (stage = .search →
      let wait := s.fc.clk + 500000 * max 1 (s.fld F.DDR_FC_CTL_TIMEOUT)
      (s.bit F.DDR_FC_CTL_FORCE = true → Gives .ddrFcTimeout s fun t => wait + 650 ≤ t.time.clk ∧ running t ∧ t.fld F.DDR_FC_STAT_FORCED = 1 ∧
        t = { s with regs := t.regs, live := t.live, time := t.time, tests := t.tests, cores := t.cores, fc := t.fc }) ∧
      (s.bit F.DDR_FC_CTL_FORCE = false → Gives .ddrFcTimeout s fun t => wait ≤ t.time.clk ∧ t.fc = { s.fc with stage := .idle } ∧
        t.fld F.DDR_FC_STAT_BUSY = 0 ∧ t.fld F.DDR_FC_STAT_PREP = 0 ∧ t.fld F.DDR_FC_STAT_NOWIN = 1 ∧
        t = { s with regs := t.regs, time := t.time, tests := t.tests, cores := t.cores, fc := t.fc })) ∧
    (∀ ns, stage = .change → s.fc.writes = [] → s.fc.late = [] → (∀ c, c < 8 → (s.ddrCh c).rq = []) → (∀ c, c < 13 → (s.core c).xip = none) →
      (∀ n, n < 16 → s.fld (F.DEC_ENG_STATUS_STATE n) ≠ 1 ∨ s.bit (F.DEC_ENG_CTL_EN n) = false) → Gives (.ddrFcDone ns) s fun t =>
      s.fc.clk + ceilDiv ns 2 ≤ t.time.clk ∧ t.fc = { s.fc with stage := .idle } ∧ t.fld F.DDR_FC_STAT_BUSY = 0 ∧ t.fld F.DDR_FC_STAT_DONE = 1 ∧
      t.fld F.DDR_FC_STAT_DURATION = ceilDiv ns 1000 % 256 ∧
      (∀ c, c < 8 → (t.ddrCh c).next = t.refNs + c * s.fld (F.DDR_REF_REFI_NS c) / 8 ∧ t.ddrPoint c = s.ddrPoint c ∧ t.ddrState c = s.ddrState c) ∧
      t = { s with regs := t.regs, time := t.time, tests := t.tests, cores := t.cores, ddr := t.ddr, wq := t.wq, fc := t.fc, resp := t.resp }) ∧
    (∀ ns, stage ≠ .change → exec (.ddrFcDone ns) s = .next s)

/-- R373 to R377, R381: GO starts a scan of a range that R373 allows, with its counts at zero; each unit of it is read and counted, skipped on a
retired page, and, in the scrub mode, rewritten after a correction or in poison form, unless a newer write came first; ABORT ends the scan. The test window reads a unit with its check bits as
stored, writes both as given, or writes data with correct check bits, where protection lets the Keeper write;
on DRAM it waits for a frequency change to end.
The model's readings in it: log entries 56 and 58. -/
def Obligations.ScrubAndTestWindow : Prop :=
  ∀ (s : State) (m : Mst) (w : Word), s.pwr.phase = .run →
    let u := s.churnPos
    let r := s.region u
    let busy := s.bit F.CHURN_STAT_BUSY
    let moved (t : State) : Prop := t.churnPos = (u + r.unit) % 2 ^ 48 ∧ t.churn.unit = none ∧
      (if s.churnEnd ≤ u + r.unit then t.fld F.CHURN_STAT_BUSY = 0 ∧ t.fld F.CHURN_STAT_DONE = 1 else t.fld F.CHURN_STAT_BUSY = 1)
    (s.MayWrite m R.CHURN_CTL →
      (busy = false → w.getLsbD 31 = true → s.churnRange = true → Gives (.churnGo m w) s fun t =>
        t.fld F.CHURN_STAT_BUSY = 1 ∧ t.churnPos = s.churnStart ∧ (∀ k, k < 22 → t.reg (R.CHURN_WORDS + 4 * k) = 0) ∧
        t.fld F.CHURN_CTL_MODE = bits w.toNat 0 0 ∧ t = { s with regs := t.regs, resp := .ok }) ∧
      (busy = false → w.getLsbD 31 = true → s.churnRange = false → exec (.churnGo m w) s =
        .next (State.taken ((s.setFld F.CHURN_CTL_MODE (bits w.toNat 0 0)).setFld F.CHURN_STAT_REFUSED 1))) ∧
      (busy = true → w.getLsbD 31 = true → w.getLsbD 30 = false → exec (.churnGo m w) s = .next (State.taken (s.setFld F.CHURN_STAT_REFUSED 1))) ∧
      (busy = true → w.getLsbD 31 = false → w.getLsbD 30 = true → bits w.toNat 0 0 = s.fld F.CHURN_CTL_MODE → s.churn.unit = none →
        exec (.churnAbort m w) s = .next (State.taken (s.setFlds [(F.CHURN_STAT_BUSY, 0), (F.CHURN_STAT_ABORTED, 1)]))) ∧
      (busy = false → w.getLsbD 31 = false → exec (.churnAbort m w) s = .next (State.taken (s.setFld F.CHURN_CTL_MODE (bits w.toNat 0 0))))) ∧
    (busy = false → ∀ split, exec (.churnUnit split) s = .next s) ∧
    (busy = true → s.churn.unit = none → r.units = true → ∀ split,
      (r = .dram → s.retired u = true → Gives (.churnUnit split) s fun t => moved t ∧
        t.fld F.CHURN_SKIP_COUNT = min (2 ^ 32 - 1) (s.fld F.CHURN_SKIP_COUNT + 1) ∧ t = { s with regs := t.regs, churn := t.churn }) ∧
      ((r = .dram → s.retired u = false ∧ s.fc.stage ≠ .change) →
        (s.unitEcc r u = .clean → Gives (.churnUnit split) s fun t => moved t ∧ s.churn.clk ≤ t.time.clk ∧
          t.fld F.CHURN_WORDS_COUNT = min (2 ^ 32 - 1) (s.fld F.CHURN_WORDS_COUNT + 1) ∧ t.mem = s.mem ∧ t.chk = s.chk) ∧
        (s.unitEcc r u = .poison → Gives (.churnUnit split) s fun t => moved t ∧
          t.fld F.CHURN_POISON_COUNT = min (2 ^ 32 - 1) (s.fld F.CHURN_POISON_COUNT + 1) ∧ s.SameMemButLog t ∧ t.chk = s.chk) ∧
        (s.unitEcc r u = .bad → s.fld F.CHURN_CTL_MODE = 0 → Gives (.churnUnit true) s fun t =>
          t.churn.unit = some (u, false) ∧ t.churnPos = u ∧ t.fld F.CHURN_UNCORR_COUNT = min (2 ^ 32 - 1) (s.fld F.CHURN_UNCORR_COUNT + 1) ∧
          t.mem = s.mem ∧ t.chk = s.chk) ∧
        (∀ k v, s.unitEcc r u = .corrected k v → s.fld F.CHURN_CTL_MODE = 0 → Gives (.churnUnit true) s fun t =>
          t.churn.unit = some (u, false) ∧ t.churnPos = u ∧ t.fld F.CHURN_CORR_COUNT = min (2 ^ 32 - 1) (s.fld F.CHURN_CORR_COUNT + 1) ∧
          t.mem = s.mem ∧ t.chk = s.chk))) ∧
    (busy = true → r.units = true → (r = .dram → s.fc.stage ≠ .change) → ∀ split,
      (s.churn.unit = some (u, true) → Gives (.churnUnit split) s fun t => moved t ∧
        t.fld F.CHURN_DROPPED_COUNT = min (2 ^ 32 - 1) (s.fld F.CHURN_DROPPED_COUNT + 1) ∧ t = { s with regs := t.regs, churn := t.churn }) ∧
      (s.churn.unit = some (u, false) → s.permits 0x60 u = true → (r = .dram → s.retired u = false) → Gives (.churnUnit split) s fun t => moved t ∧
        (∀ k, k < r.unit → t.byte (u + k) = (eccFix r (s.bytes u r.unit) (s.unitEcc r u)).getD k 0) ∧
        t.delta u = (if s.unitEcc r u = .bad ∨ s.unitEcc r u = .poison then r.poisonDelta else 0) ∧ s.SameMemBut t u r.unit ∧
        t = { s with regs := t.regs, mem := t.mem, chk := t.chk, wq := t.wq, ddr := t.ddr, churn := t.churn })) ∧
    (s.MayWrite m R.ECC_DIAG_CTL → w.getLsbD 31 = true →
      let ctl := (s.written R.ECC_DIAG_CTL w.toNat).setFld F.ECC_DIAG_CTL_GO 0
      let x := s.fld F.ECC_DIAG_ADDR_LO_ADDR * 8 + s.fld F.ECC_DIAG_ADDR_HI_ADDR * 2 ^ 32
      let y := s.region x
      let op := bits w.toNat 1 0
      let d := ((List.range (y.unit / 4)).map (fun k => leBytes 4 (s.reg (R.ECC_DIAG_DATA k)).toNat)).flatten
      let chk := if y = .dram then (s.reg R.ECC_DIAG_CHK).toNat else (s.reg R.ECC_DIAG_CHK).toNat % 256
      let held := y = .dram ∧ s.fc.stage = .change
      let all := [Instr.diagReadRaw m w, .diagWriteRaw m w, .diagWriteData m w]
      ((y.units = false ∨ x % y.unit ≠ 0) → ∀ i ∈ all, exec i s = .next (State.taken ((ctl.setFld F.ECC_DIAG_STAT_REFUSED 1).orFld F.ECC_ERR_ERR 0x80))) ∧
      (held → x % 32 = 0 → ∀ i ∈ all, exec i s = .next (State.taken { ctl with fc := { s.fc with late := s.fc.late ++
        [.diag op x ((List.range 8).map (fun k => leBytes 4 (s.reg (R.ECC_DIAG_DATA k)).toNat)).flatten (s.reg R.ECC_DIAG_CHK).toNat] } })) ∧
      (¬held → y.units = true → x % y.unit = 0 → (y = .dram → s.retired x = false) →
        (op = 0 ∨ op = 3 → Gives (.diagReadRaw m w) s fun t => t.fld F.ECC_DIAG_STAT_DONE = 1 ∧ t.mem = s.mem ∧ t.chk = s.chk ∧
          (t.reg R.ECC_DIAG_CHK).toNat = (y.check (s.bytes x y.unit) ^^^ s.delta x) % 2 ^ 32 ∧
          ∀ k, k < y.unit / 4 → t.reg (R.ECC_DIAG_DATA k) = word32 s.byte (x + 4 * k)) ∧
        (op = 1 ∨ op = 2 → s.permits 12 x = true → s.lineAt x = none →
          ∀ i ∈ [Instr.diagWriteRaw m w, .diagWriteData m w], Gives i s fun t => t.fld F.ECC_DIAG_STAT_DONE = 1 ∧
            t.delta x = (if op = 1 then chk ^^^ y.check d else 0) ∧ (∀ k, k < y.unit → t.byte (x + k) = d.getD k 0) ∧ s.SameMemBut t x y.unit) ∧
        (op = 1 ∨ op = 2 → s.permits 12 x = false →
          ∀ i ∈ [Instr.diagWriteRaw m w, .diagWriteData m w], Gives i s fun t => t.fld F.ECC_DIAG_STAT_REFUSED = 1 ∧ s.SameMemButLog t ∧ t.chk = s.chk)))

/-- R391, R392, R401, R402, R405 to R411: APPLY makes a unit's shadow regions live and adds one to its epoch; the write completes at once for a core
in reset, else when the unit's writes have left its port, and the Keeper waits for it. OPEN can be set only in STANDALONE with ALONE taken, and
ACTIVE follows. A CVU feeds bytes, low first, into its CRC, keeps the value to the polynomial's width, and compares it with EXPECT, through a queue
of eight entries: a write that finds it full waits, a read of the value or the result waits until it is empty, and CVU_STAT shows what has been
acted on and how many entries are left.
The model's readings in it: log entries 59 and 60. -/
def Obligations.ProtectionAndChecksums : Prop :=
  ∀ (s : State) (m : Mst) (w : Word), s.pwr.phase = .run →
    (∀ u : Fin 77, s.MayWrite m (R.MPU_EPOCH u) →
      let t := (s.goLive (unitRegs u)).setFld (F.MPU_EPOCH_EPOCH u) (s.fld (F.MPU_EPOCH_EPOCH u) + 1)
      let held := u.val < 8 ∧ (s.core u).run = .held
      let go := bits w.toNat (F.MPU_EPOCH_APPLY u).hi (F.MPU_EPOCH_APPLY u).lo
      (go = 0 → exec (.mpuApply m u w) s = .next s.taken) ∧
      (go = 1 → held → exec (.mpuApply m u w) s = .next t.taken) ∧
      (go = 1 → ¬held → exec (.mpuApply m u w) s = .next (
        let x : State := { t with applies := s.applies ++ [u.val], resp := .stalled }
        if m.toNat = 12 then x.setCore 12 { s.core 12 with run := .store } else x)) ∧
      (∀ o ∈ unitRegs u, t.lreg o = s.reg o) ∧ (∀ o, o ∉ unitRegs u → t.lreg o = s.lreg o)) ∧
    (∀ u : Fin 77, (u.val ∉ s.applies ∨ s.unitWaits u.val = true → exec (.mpuApplyComplete u) s = .next s) ∧
      (u.val ∈ s.applies → s.unitWaits u.val = false → exec (.mpuApplyComplete u) s = .next (
        let x : State := { s with applies := s.applies.erase u.val, resp := .ok }
        if (s.core 12).run = .store ∧ s.applies.erase u.val = [] then x.setCore 12 { s.core 12 with run := .running } else x))) ∧
    (s.MayWrite m R.MPU_MAINT →
      (w.getLsbD 0 = true → ¬(s.role = 0 ∧ s.pinsTaken = 3) → exec (.maintOpen m w) s = .next s.taken) ∧
      (w.getLsbD 0 = true → s.role = 0 → s.pinsTaken = 3 → Gives (.maintOpen m w) s fun t => t.fld F.MPU_MAINT_OPEN = 1 ∧ t.fld F.MPU_MAINT_ACTIVE = 1 ∧
        t = { s with regs := t.regs, mem := t.mem, log := t.log, resp := .ok }) ∧
      (w.getLsbD 0 = false → Gives (.maintOpen m w) s fun t => t.fld F.MPU_MAINT_OPEN = 0 ∧ t.fld F.MPU_MAINT_ACTIVE = 0 ∧
        t = { s with regs := t.regs, mem := t.mem, log := t.log, resp := .ok })) ∧
    (∀ n : Fin 16,
      let poly := s.fld (F.CVU_CTL_POLY n)
      let value := s.fld (F.CVU_VALUE_VALUE n)
      let width := crcWidth poly
      let result := if s.bit (F.CVU_CTL_INVERT n) then value ^^^ (2 ^ width - 1) else value
      let left := s.cvuLeft n
      let z := s.cvuSettle n
      let entry (off cost : Nat) (out : Option (Bool × Nat)) (t : State) : Prop :=
        t.cvuQueue n = left ++ [⟨off - R.CVU_CTL n, s.reg off, max (2 * s.time.clk) ((left.getLast?.map (·.done)).getD 0) + cost, out⟩] ∧
        (∀ k, k ≠ n.val → t.cvuQueue k = s.cvuQueue k) ∧ t = { s with regs := t.regs, cvus := t.cvus, resp := .ok }
      (left.length < 8 →
        (s.MayWrite m (R.CVU_CTL n) → Gives (.cvuCtlWrite m n w) s fun t =>
          let wide := crcWidth (bits w.toNat 1 0)
          entry (R.CVU_CTL n) 1 none t ∧ t.regs = ((z.written (R.CVU_CTL n) w.toNat).setFld (F.CVU_VALUE_VALUE n)
            (if w.getLsbD 31 then (if w.getLsbD 8 then 2 ^ wide - 1 else 0) else value % 2 ^ wide)).regs) ∧
        (∀ sz : Fin 3, s.MayWrite m (cvuFeedReg n sz) → Gives (.cvuFeed m n sz w) s fun t =>
          entry (cvuFeedReg n sz) (2 ^ sz.val) none t ∧ t.regs = (z.setFld (F.CVU_VALUE_VALUE n)
            ((leBytes (2 ^ sz.val) w.toNat).foldl (crcByte poly (s.bit (F.CVU_CTL_REFLECT n))) value)).regs) ∧
        (s.MayWrite m (R.CVU_VALUE n) → Gives (.cvuValueWrite m n w) s fun t =>
          entry (R.CVU_VALUE n) 1 none t ∧ t.regs = (z.setFld (F.CVU_VALUE_VALUE n) (w.toNat % 2 ^ width)).regs) ∧
        (s.MayWrite m (R.CVU_EXPECT n) → Gives (.cvuExpectWrite m n w) s fun t =>
          entry (R.CVU_EXPECT n) 1 none t ∧ t.regs = (z.written (R.CVU_EXPECT n) w.toNat).regs) ∧
        (s.MayWrite m (R.CVU_CMP n) → w.getLsbD 0 = true → Gives (.cvuCompare m n w) s fun t =>
          entry (R.CVU_CMP n) 1 (some (decide (result ≠ s.fld (F.CVU_EXPECT_EXPECT n) % 2 ^ width), result)) t ∧ t.regs = z.regs)) ∧
      (left.length = 8 → ∀ sz : Fin 3, s.MayWrite m (cvuFeedReg n sz) → Gives (.cvuFeed m n sz w) s fun t =>
        (∀ e, left.head? = some e → e.done ≤ 2 * t.time.clk) ∧ (t.cvuLeft n).length ≤ 8) ∧
      (∀ val, Gives (.cvuResultRead m n val) s fun t => t.resp = .value (if val then value else result) ∧
        (∀ e, left.getLast? = some e → e.done ≤ 2 * t.time.clk) ∧
        t = { s with regs := t.regs, time := t.time, tests := t.tests, cores := t.cores, resp := t.resp }) ∧
      (left.length ≤ 8 →
        let st := (s.cvuStat n).toNat
        bits st (F.CVU_STAT_LEVEL n).hi (F.CVU_STAT_LEVEL n).lo = left.length ∧
        (bits st (F.CVU_STAT_BUSY n).hi (F.CVU_STAT_BUSY n).lo = 1 ↔ left ≠ []) ∧
        (bits st (F.CVU_STAT_MATCH n).hi (F.CVU_STAT_MATCH n).lo = 1 ↔ s.bit (F.CVU_STAT_MATCH n) = true ∨ ∃ o ∈ s.cvuActed n, o.1 = false) ∧
        (bits st (F.CVU_STAT_MISMATCH n).hi (F.CVU_STAT_MISMATCH n).lo = 1 ↔
          s.bit (F.CVU_STAT_MISMATCH n) = true ∨ ∃ o ∈ s.cvuActed n, o.1 = true)))

/-! ### The Logbook and telemetry -/

/-- R414 to R418, R421, R423, R425, R427, R430: while no re-arm is in progress the oldest waiting event becomes the newest record, at the first free
offset of the area in use, with the next sequence number, and WCOUNT moves by two; a well-formed block submitted becomes an event of the master
that wrote; a re-arm discards both areas and opens the log with an ARMED record; the spill copies the oldest final record it has not copied, and
stops at a refused write.
The model's readings in it: log entry 60. -/
def Obligations.LogbookRecords : Prop :=
  ∀ (s : State) (m : Mst) (w : Word),
    let arming := s.bit F.LOG_STAT_ARMING
    let full := s.bit F.LOG_STAT_KEEP_FULL
    let seq := s.logSeq
    let off := s.log.free
    let newest (e : LogEv) (t : State) : Prop := t.log.newest = some e ∧ t.reg64 R.LOG_NEXT_SEQ_LO R.LOG_NEXT_SEQ_HI = (seq + 1) % 2 ^ 64 ∧
      t.fld F.LOG_TAIL_VALID = 1 ∧ (∀ o, t.log.free = o + e.size → t.fld F.LOG_TAIL_OFF = o / 16 % 2 ^ 17 ∧
        ∀ k, k < e.size → t.byte (0x4200000000 + o + k) = (e.record seq).getD k 0)
    (s.log.queue = [] → s.log.lostN = 0 → exec .logAppend s = .next s) ∧
    (s.log.queue ≠ [] → arming = true → exec .logAppend s = .next s) ∧
    (∀ e q, s.log.queue = e :: q → arming = false → s.log.lostN = 0 →
      ((full = false ∧ off + e.size ≤ s.log.keep * 0x10000) ∨ (full = true ∧ off + e.size ≤ 0x200000)) → Gives .logAppend s fun t =>
        newest e t ∧ t.log.queue = q ∧ t.log.free = off + e.size ∧ s.SameMemBut t (0x4200000000 + off) e.size ∧
        t.reg64 R.LOG_WCOUNT_LO R.LOG_WCOUNT_HI = (s.reg64 R.LOG_WCOUNT_LO R.LOG_WCOUNT_HI + 2) % 2 ^ 64 ∧
        (full = true → t.log.recs.getLast? = some ⟨off, e.size, seq⟩ ∧ t.fld F.LOG_OLD_VALID = 1) ∧
        (full = false → t.fld F.LOG_KEEP_END_OFF = (off + e.size) / 16 % 2 ^ 17) ∧
        t = { s with regs := t.regs, mem := t.mem, chk := t.chk, log := t.log }) ∧
    (∀ e q, s.log.queue = e :: q → arming = false → s.log.lostN = 0 → full = false → s.log.keep * 0x10000 < off + e.size →
      e.size + s.log.keep * 0x10000 ≤ 0x200000 → Gives .logAppend s fun t =>
        newest e t ∧ t.fld F.LOG_STAT_KEEP_FULL = 1 ∧ t.log.free = s.log.keep * 0x10000 + e.size ∧
        (off < s.log.keep * 0x10000 → off + 8 ≤ s.log.keep * 0x10000 → ∀ k, k < 8 → t.byte (0x4200000000 + off + k) = 0xFF)) ∧
    (s.pwr.phase = .run → s.MayWrite m R.LOG_CTL → exec (.logRearm m w) s = .next (State.taken (if w.getLsbD 0 then s.setFld F.LOG_STAT_ARMING 1 else s))) ∧
    ((arming = false ∨ (s.bit F.LOG_SPILL_CTL_EN = true ∧ s.spillNextRec ≠ none)) → exec .logRearmDone s = .next s) ∧
    (arming = true → (s.bit F.LOG_SPILL_CTL_EN = false ∨ s.spillNextRec = none) → Gives .logRearmDone s fun t =>
      newest { typ := 1, master := 0xFF, time := s.nowNs % 2 ^ 64, last := s.nowNs % 2 ^ 64, fold := false,
               payload := leBytes 8 s.log.oldestSeq ++ leBytes 1 (max 1 (s.fld F.LOG_CFG_KEEP)) ++ [1] ++ List.replicate 6 0 } t ∧
      t.fld F.LOG_STAT_ARMING = 0 ∧ t.fld F.LOG_STAT_KEEP_FULL = 0 ∧ t.log.free = 48 ∧ t.log.recs = [] ∧ t.log.keep = max 1 (s.fld F.LOG_CFG_KEEP) ∧
      t.log.queue = s.log.queue) ∧
    (s.pwr.phase = .run → s.MayWrite m R.LOG_SUBMIT →
      let island := w.getLsbD 31
      let base := if island then 0x4100000000 else 0x4000000000
      let size := if island then 0x100000 else 0xE00000
      let o := 16 * bits w.toNat 19 0
      let a := base + o
      let typ := leNat (s.bytes a 2)
      let len := leNat (s.bytes (a + 2) 1)
      let fl := leNat (s.bytes (a + 3) 1)
      let good := ((m.toNat = 12 ∧ 0x4000 ≤ typ ∧ typ ≤ 0x7FFF) ∨ 0x9000 ≤ typ) ∧ 1 ≤ len ∧ len ≤ 32 ∧ fl ≤ 1 ∧ leNat (s.bytes (a + 4) 12) = 0 ∧
        o + 16 + 16 * len ≤ size
      (size < o + 16 → exec (.logSubmit m w) s = .next (State.taken (s.orFld F.LOG_ERR_ERR 8))) ∧
      (o + 16 ≤ size → (unitsOf (s.region a) a 16).all (fun u => s.delta u == 0) = true → ¬good →
        exec (.logSubmit m w) s = .next (State.taken (s.orFld F.LOG_ERR_ERR 8))) ∧
      (o + 16 ≤ size → good → (unitsOf (s.region a) a (16 + 16 * len)).all (fun u => s.delta u == 0) = true →
        let now := s.nowNs % 2 ^ 64
        let e : LogEv := ⟨typ, m.toNat, s.bytes (a + 16) (16 * len), now, now, 1, fl == 0, []⟩
        exec (.logSubmit m w) s = .next (State.taken (s.logPut e true)))) ∧
    ((s.bit F.LOG_SPILL_CTL_EN = false ∨ s.spillNextRec = none) → exec .logSpill s = .next s) ∧
    (s.waits .dram = true → exec .logSpill s = .next s) ∧
    (∀ r, s.bit F.LOG_SPILL_CTL_EN = true → s.spillNextRec = some r → s.waits .dram = false → Gives .logSpill s fun t =>
      (t.log.spillNext = r.seq + 1 ∧ t.log.spillOff = (if s.spillSize < s.log.spillOff + r.size then 0 else s.log.spillOff) + r.size ∧
        t.reg64 R.LOG_SPILL_SEQ_LO R.LOG_SPILL_SEQ_HI = r.seq % 2 ^ 64) ∨
      (t.log.spillNext = s.log.spillNext ∧ t.fld F.LOG_SPILL_CTL_EN = 0 ∧ t.bitAt F.LOG_ERR_ERR 2 = true)) ∧
    (s.pwr.phase = .run → s.MayWrite m R.LOG_SPILL_CTL →
      let t := s.written R.LOG_SPILL_CTL w.toNat
      let ring (x : State) : State := if w.getLsbD 31 then
          { x with log := { s.log with spillOff := 0, spillBlk := [], spillNext := ((s.log.recs.head?).map (·.seq)).getD seq } } else x
      ((s.bit F.LOG_SPILL_CTL_EN = false ∨ bits w.toNat 10 0 = s.fld F.LOG_SPILL_CTL_SIZE) →
        exec (.logSpillEnable m w) s = .next (ring t).taken) ∧
      (s.bit F.LOG_SPILL_CTL_EN = true → bits w.toNat 10 0 ≠ s.fld F.LOG_SPILL_CTL_SIZE → exec (.logSpillEnable m w) s =
        .next (State.taken (ring ((t.setFld F.LOG_SPILL_CTL_SIZE (s.fld F.LOG_SPILL_CTL_SIZE)).orFld F.LOG_ERR_ERR 4)))))

/-- R431 to R434: a write of a selection zeroes what it counts; a dump that falls due, at a boundary with TICK and else every PERIOD µs, is taken
into its slot and counted in DSEQ, or, when a write of it is refused, ends the dumps; one that falls due while another runs is skipped.
The model's readings in it: log entry 60. -/
def Obligations.TelemetryDumps : Prop :=
  ∀ (s : State) (m : Mst) (w : Word), s.pwr.phase = .run →
    let en := s.bit F.TELE_DUMP_CTL_EN
    let n := s.reg64 R.TELE_DUMP_SEQ_LO R.TELE_DUMP_SEQ_HI
    let p := 500 * max 1 (s.fld F.TELE_DUMP_CTL_PERIOD)
    let due := max ((s.dump.clk / p + 1) * p) (ceilDiv s.time.clk p * p)
    let taken (t : State) : Prop := t.reg64 R.TELE_DUMP_SEQ_LO R.TELE_DUMP_SEQ_HI = (n + 1) % 2 ^ 64 ∨
      (t.reg64 R.TELE_DUMP_SEQ_LO R.TELE_DUMP_SEQ_HI = n ∧ t.fld F.TELE_DUMP_CTL_EN = 0 ∧ t.bitAt F.TELE_ERR_ERR 0 = true)
    let skipped (t : State) : Prop := t.fld F.TELE_DUMP_SKIP_COUNT = min (2 ^ 32 - 1) (s.fld F.TELE_DUMP_SKIP_COUNT + 1) ∧
      t.bitAt F.TELE_ERR_ERR 1 = true ∧ t.reg64 R.TELE_DUMP_SEQ_LO R.TELE_DUMP_SEQ_HI = n
    (∀ i : Fin 256, s.MayWrite m (R.TELE_SEL i) → exec (.teleSelWrite m i w) s = .next (State.taken
      ((s.written (R.TELE_SEL i) w.toNat).setFlds [(F.TELE_CNT_LO_VALUE i, 0), (F.TELE_CNT_HI_VALUE i, 0), (F.TELE_CNT_HI_OVF i, 0)]))) ∧
    (∀ k : Fin 16, s.MayWrite m (R.TELE_HSEL k) → Gives (.teleHselWrite m k w) s fun t =>
      t.reg (R.TELE_HSEL k) = (s.written (R.TELE_HSEL k) w.toNat).reg (R.TELE_HSEL k) ∧ t.reg (R.TELE_HMAX k) = 0 ∧
      (∀ b, b < 32 → t.reg (R.TELE_HBIN k b) = 0) ∧ t = { s with regs := t.regs, resp := .ok } ∧
      s.SameRegsBut t ([R.TELE_HSEL k, R.TELE_HMAX k] ++ (List.range 32).map (R.TELE_HBIN k))) ∧
    (en = false → ∀ busy, exec (.teleDump busy) s = .next s) ∧
    (en = true → s.bit F.TELE_DUMP_CTL_TICK = true →
      ((s.bit F.TICK_STATUS_RUNNING = false ∨ s.dump.tick = some s.tickNo) → ∀ busy, exec (.teleDump busy) s = .next s) ∧
      (s.bit F.TICK_STATUS_RUNNING = true → s.dump.tick ≠ some s.tickNo →
        Gives (.teleDump false) s (fun t => t.dump = { s.dump with tick := some s.tickNo } ∧ taken t ∧ t.time = s.time) ∧
        Gives (.teleDump true) s (fun t => t.dump = { s.dump with tick := some s.tickNo } ∧ skipped t ∧
          t = { s with regs := t.regs, dump := t.dump }))) ∧
    (en = true → s.bit F.TELE_DUMP_CTL_TICK = false →
      Gives (.teleDump false) s (fun t => t.dump = { s.dump with clk := due } ∧ due ≤ t.time.clk ∧ taken t) ∧
      Gives (.teleDump true) s (fun t => t.dump = { s.dump with clk := due } ∧ due ≤ t.time.clk ∧ skipped t))

/-! ### Active and standby pairs -/

/-- R402, R438, R439, R441, R445, R446, R447, R449, R453, R454, R456, R463, R466, R470, R471, R485: what arrives from the pins and the partner.
Pins that held a value are taken, and act at once while the tick stands still. An agreement message is complete where its end names the tick of
its header and the CRC of its payloads; a complete one of the current tick counts until B(n) + 38 µs, one of a later tick is held, and none
counts in STANDALONE; a message missed or a mismatch takes lock step or readiness away. A mark is kept and compared, once a frequency change has
ended where the index lies in DRAM; a snapshot and baselines are taken in the role they are meant for.
The model's readings in it: log entries 56, 61, 63 and 64. -/
def Obligations.PairMessages : Prop :=
  ∀ (s : State) (q : Fin 2) (seq : BitVec 12), s.pwr.phase = .run →
    let Q : Nat := 22 + q
    let ready := s.up Q = true ∧ (s.link Q).discard = false ∧ seq.toNat = (s.link Q).expect
    let n := s.tickNo
    let running := s.bit F.TICK_STATUS_RUNNING
    let err (t : State) (b : Nat) : Prop := t.bitAt F.STEP_ERR_ERR b = true
    (∀ v : BitVec 2,
      let new := roleOf v.toNat s.inStep
      let pins (t : State) : Prop := (v ≠ 3 → t.fld F.MPU_MAINT_OPEN = 0 ∧ t.fld F.MPU_MAINT_ACTIVE = 0) ∧ t.pwr = { s.pwr with rolePins := v.toNat } ∧
        t = { s with pwr := t.pwr, pair := t.pair, regs := t.regs, mem := t.mem, log := t.log, touch := t.touch, links := t.links }
      (running = true → Gives (.rolePinTake v) s fun t => pins t ∧ t.pair = { s.pair with taken := (v.toNat, s.nowNs) :: s.pair.taken } ∧ t.links = s.links ∧
        t.reg R.STEP_STATUS = s.reg R.STEP_STATUS ∧ (v = 0 ∨ v = 2 → t.touch.driving = false ∧ t.fld F.TOUCH_STATUS_TEST_BUSY = 0) ∧
        (v = 1 ∨ v = 3 → t.touch.driving = (s.touch.driving || (s.touchOwner && s.touch.ownAt.isNone)))) ∧
      (running = false → Gives (.rolePinTake v) s fun t => pins t ∧ t.pair.taken = [] ∧ t.fld F.STEP_STATUS_PINS = v.toNat ∧ t.role = new ∧
        t.inStep = (s.inStep && decide (new ≠ 0 ∧ new ≠ 4)) ∧
        (new ≠ 0 ∨ s.role = 0 → t.links = s.links) ∧
        (new = 0 → s.role ≠ 0 → ∀ b ∈ (t.link 22).waiting ++ (t.link 23).waiting, b.vc = 3) ∧
        (2 ≤ s.role → new ≤ 1 → t.fld F.TOUCH_STATUS_OWNER = 1 ∧ t.touch.driving = true ∧ t.touch.newOwner = true) ∧
        (s.role ≤ 1 → 2 ≤ new → t.fld F.TOUCH_STATUS_OWNER = 0 ∧ t.touch.driving = false ∧ t.touch.queued = none))) ∧
    (∀ g : AgreeMsg, ready →
      let lens := [64, 1024, 192] ++ (pieces 1024 (g.cmds.length + 1) 0 g.cmds).map (fun p => p.2.length) ++ [16]
      let u := s.rxAll Q seq.toNat lens id
      let x := exec (.agreementMessage q seq g) s
      let on (i : Nat) : Prop := g.flags / 2 ^ i % 2 = 1
      let good := g.endTick = g.tick ∧ g.crc = crc32c (((agreeParts g).map (fun p => p.2.2)).flatten)
      let cancels (t : State) : Prop := t.pair.readyAt = none ∧ t.pair.spoilt = some n ∧ (g.readyTick ≤ n + 2 → t.pair.partnerAt = none)
      ((s.role = 0 ∨ ¬good) → x = .next u) ∧
      (s.role ≠ 0 → good → running = true → g.tick < n → x = .next u) ∧
      (s.role ≠ 0 → good → (running = false ∨ n < g.tick) → x = .next (
        if (s.pair.msgs.all (fun y => y.tick != g.tick)) = true then { u with pair := { s.pair with msgs := (g :: s.pair.msgs).take 4 } } else u)) ∧
      (s.role ≠ 0 → good → running = true → g.tick = n →
        (s.pair.cur ≠ none ∨ s.pair.deadlineDue = false ∨ s.tickB n + 38000 < s.nowNs → x = .next u) ∧
        (s.pair.cur = none → s.pair.deadlineDue = true → s.nowNs ≤ s.tickB n + 38000 → Gives (.agreementMessage q seq g) s fun t =>
          t.pair.cur = some g ∧ t.fld F.STEP_STATUS_PARTNER_SEEN = 1 ∧ t.fld F.STEP_STATUS_PARTNER_ROLE = g.role % 8 ∧
          t.fld F.STEP_STATUS_PARTNER_HEALTH = g.health % 4 ∧ t.role = s.role ∧ t.pair.partner = g.digest ∧
          t = { s with regs := t.regs, links := t.links, pair := t.pair } ∧
          (s.role ≠ 4 →
            (¬on 0 → s.pair.joinedAt ≠ some n → t.inStep = false) ∧ (on 0 → t.inStep = s.inStep) ∧
            (s.role = 1 → g.role = 1 → err t 4 ∧ t.pair.differ = true) ∧
            (∀ tk c h, s.pair.dig = some (tk, c, h) → tk + 1 = n →
              t.fld F.STEP_DIG_LOCAL_DIGEST = c % 2 ^ 32 ∧ t.fld F.STEP_DIG_PARTNER_DIGEST = g.digest % 2 ^ 32 ∧
              t.reg64 R.STEP_DIG_TICK_LO R.STEP_DIG_TICK_HI = tk % 2 ^ 64 ∧
              (c = g.digest → h = g.heads → t.pair.alike = true ∧ t.fld F.STEP_CNT_MISMATCH_COUNT = s.fld F.STEP_CNT_MISMATCH_COUNT) ∧
              (¬(c = g.digest ∧ h = g.heads) → err t 1 ∧ t.pair.differ = true ∧ cancels t ∧
                t.fld F.STEP_CNT_MISMATCH_COUNT = min (2 ^ 32 - 1) (s.fld F.STEP_CNT_MISMATCH_COUNT + 1))) ∧
            (on 3 → t.fld F.STEP_STATE_PARTNER_CRC = g.stateCrc % 2 ^ 32 ∧ ∀ y, s.pair.states.find? (fun p => p.1 == g.stateTick) = some y →
              (y.2 = g.stateCrc → t.pair.stateOk = true) ∧
              (y.2 ≠ g.stateCrc → err t 2 ∧ t.pair.differ = true ∧ t.pair.stateOk = false ∧ cancels t)) ∧
            (on 2 → s.pair.spoilt = none → s.pair.partnerAt = none → n + 2 < g.readyTick → t.pair.partnerAt = some g.readyTick) ∧
            (¬on 2 → t.pair.partnerAt = none))))) ∧
    (s.pair.deadlineDue = false → exec .agreeDeadline s = .next s) ∧
    (s.pair.deadlineDue = true → Gives .agreeDeadline s fun t =>
      (s.tickB n + 38000) * 2 ^ 40 ≤ t.time.now ∧ t.pair.deadlineDue = false ∧
      t = { s with time := t.time, regs := t.regs, tests := t.tests, cores := t.cores, pair := t.pair } ∧
      ((s.role = 0 ∨ s.role = 4 ∨ s.pair.cur ≠ none) → t.pair = { s.pair with deadlineDue := false } ∧ t.inStep = s.inStep) ∧
      (s.role ≠ 0 → s.role ≠ 4 → s.pair.cur = none → err t 0 ∧ t.inStep = false ∧
        t.fld F.STEP_CNT_AGREE_MISS_COUNT = min (2 ^ 32 - 1) (s.fld F.STEP_CNT_AGREE_MISS_COUNT + 1) ∧
        t.pair = { s.pair with deadlineDue := false, miss := true, readyAt := none, partnerAt := none, eqRun := 0, spoilt := some n })) ∧
    (∀ (c : Fin 128) (num : DWord) (cap : BitVec 96) (len : Word) (noTime : Bool), ready →
      let u := s.rxBarge Q seq.toNat 1 32 id
      let k : Mark := ⟨num.toNat, leBytes 12 cap.toNat, noTime, len.toNat, s.fld F.STEP_STATUS_PARTNER_ROLE = 1⟩
      let d := s.dc c.val
      let r := s.read 0x5F (s.idxEntry c.val num.toNat) 32
      let e := r.data
      let late := s.region (s.idxEntry c.val num.toNat) = .dram ∧ s.fc.stage = .change
      let held := r.bus = false ∧ r.poisoned = false ∧ leNat (e.take 8) = num.toNat
      let same := slice e 16 12 = k.capture ∧ (leNat (slice e 28 1) / 32 % 2 = 1 ↔ noTime = true) ∧ leNat (slice e 12 4) = len.toNat
      ((s.role = 0 ∨ k ∈ d.marks) → exec (.rapMark q seq c num cap len noTime) s = .next u) ∧
      (s.role ≠ 0 → k ∉ d.marks → late → Gives (.rapMark q seq c num cap len noTime) s fun t =>
        (t.dc c.val).marks = (d.marks ++ [k]).drop (d.marks.length + 1 - 4) ∧ t.fc = { s.fc with late := s.fc.late ++ [.mark c.val k] }) ∧
      (s.role ≠ 0 → k ∉ d.marks → ¬late → Gives (.rapMark q seq c num cap len noTime) s fun t =>
        (t.dc c.val).marks = (d.marks ++ [k]).drop (d.marks.length + 1 - 4) ∧ (s.role ≠ 4 → held → ¬same → err t 3) ∧
        ((s.role = 4 ∨ ¬held ∨ same) → t.reg R.STEP_ERR = s.reg R.STEP_ERR) ∧
        (r.bad.all (· == false) = true → r.st.mem = s.mem → t.mem = s.mem) ∧
        t = { s with regs := t.regs, links := t.links, dctx := t.dctx, mem := t.mem, chk := t.chk, log := t.log, wq := t.wq, ddr := t.ddr })) ∧
    (ready → ∀ (tick total : DWord) (ranges crc count : Word),
      let u := s.rxBarge Q seq.toNat 0 32 id
      let v := s.rxBarge Q seq.toNat 0 16 id
      let done := { v with pair := { s.pair with snap := none } }
      let failed := (done.setFld F.STEP_SNAP_STAT_FAIL 1).orFld F.STEP_ERR_ERR 32
      let start := exec (.snapStart q seq tick ranges total) s
      let fin := exec (.snapEnd q seq tick crc count) s
      (s.role ≠ 3 → start = .next u ∧ fin = .next v) ∧
      (s.role = 3 → start = .next { u with pair := { s.pair with snap := some ⟨tick.toNat, 0, 0xFFFFFFFF, false⟩ } }) ∧
      (s.role = 3 → s.pair.snap = none → fin = .next failed) ∧
      (∀ y, s.role = 3 → s.pair.snap = some y →
        let whole := y.bad = false ∧ y.tick = tick.toNat ∧ y.count = count.toNat ∧ (y.crc ^^^ 0xFFFFFFFF) = crc.toNat
        (whole → fin = .next ((done.setFld F.STEP_SNAP_STAT_RECEIVED 1).setReg64 R.STEP_SNAP_RTICK_LO R.STEP_SNAP_RTICK_HI tick.toNat)) ∧
        (¬whole → fin = .next failed))) ∧
    (ready → ∀ (addr : BitVec 48) (d : List Byte),
      let u := s.rxBarge Q seq.toNat 0 (8 + d.length) id
      let w := u.writeEach (0x46 + q) (d.length + 1) addr.toNat d
      (s.role ≠ 3 → exec (.snapData q seq addr d) s = .next u) ∧
      (s.role = 3 → exec (.snapData q seq addr d) s = .next (
        let t := if w.2 then w.1 else (w.1.setFld F.STEP_SNAP_STAT_FAIL 1).orFld F.STEP_ERR_ERR 32
        { t with pair := { s.pair with snap := s.pair.snap.map (fun y => ⟨y.tick, y.count + 1, crc32cFrom y.crc d, y.bad || !w.2⟩) } }))) ∧
    (ready → ∀ (ix : BitVec 16) (mode : Byte) (vals : List (BitVec 16)),
      let u := s.rxBarge Q seq.toNat 0 (8 + 2 * vals.length) id
      let fits := mode.toNat = s.tMutual.toNat ∧ ix.toNat + vals.length ≤ s.tN
      let x := exec (.touchBase q seq ix mode vals) s
      (s.role ≤ 1 → x = .next u) ∧
      (2 ≤ s.role → ¬fits → x = .next (u.orFld F.TOUCH_ERR_ERR 32)) ∧
      (2 ≤ s.role → fits → Gives (.touchBase q seq ix mode vals) s fun t =>
        (∀ i, i < vals.length → t.fld (F.TOUCH_BASE_BASE (ix.toNat + i)) = (vals.getD i 0).toNat) ∧
        (∀ i, i < 576 → ¬(ix.toNat ≤ i ∧ i < ix.toNat + vals.length) → t.fld (F.TOUCH_BASE_BASE i) = s.fld (F.TOUCH_BASE_BASE i)) ∧
        t.touch = { s.touch with loaded := (s.touch.loaded ++ span ix.toNat vals.length).eraseDups } ∧
        ((s.tNodes.all (t.touch.loaded.contains ·)) = true → t.fld F.TOUCH_STATUS_BASE_VALID = 1) ∧
        t = { s with regs := t.regs, links := t.links, touch := t.touch }))

/-- R441, R454, R456 to R458, R466, R468, R470, R473: LEAVE ends lock step; FULL_REQ asks for a compare of the state; READY arms readiness on a
SYNCING chip alone; KICK shows the chip alive; a snapshot that the role, the count or the list forbids is REFUSED, else its barges are formed in
order on Q23, or on Q22 while Q23 is down, at once or, where a range in DRAM waits for a frequency change, when that ends; the join registers cannot be written while one is sent. The arbiter's port answers READ_HEALTH,
READ_ID, and 0xFF to anything else.
The model's readings in it: log entries 56, 61 and 63. -/
def Obligations.StepRegistersAndArbiter : Prop :=
  ∀ (s : State) (m : Mst) (w : Word), s.pwr.phase = .run →
    let busy := s.bit F.STEP_SNAP_STAT_BUSY
    let pending (t : State) : Nat := ((List.range 4).any (fun k => t.fld (F.STEP_JOIN_ARM k) ≠ 0)).toNat
    (s.MayWrite m R.STEP_CTL → ∀ i ∈ [Instr.stepFullReq m w, .stepLeave m w, .stepReady m w], Gives i s fun t =>
      t = { s with regs := t.regs, pair := t.pair, resp := .ok } ∧ s.SameRegsBut t [R.STEP_CTL, R.STEP_STATUS] ∧
      t.inStep = (s.inStep && !w.getLsbD 2) ∧ t.bit F.STEP_CTL_FULL_REQ = (s.bit F.STEP_CTL_FULL_REQ || w.getLsbD 3) ∧
      t.role = s.role ∧ t.fld F.STEP_CTL_READY = t.fld F.STEP_STATUS_READY_PENDING ∧
      (w.getLsbD 1 = true → s.role = 3 → t.ready = true ∧ t.pair = { s.pair with stateOk := s.ready && s.pair.stateOk }) ∧
      (w.getLsbD 1 = true → s.role ≠ 3 → t.ready = s.ready ∧ t.pair = s.pair) ∧
      (w.getLsbD 1 = false → t.ready = false ∧ t.pair = { s.pair with readyAt := none })) ∧
    (s.MayWrite m R.STEP_HB → exec (.stepHbKick m w) s = .next
      { s with pair := { s.pair with kicked := s.pair.kicked || w.getLsbD 0 }, resp := .ok }) ∧
    (s.MayWrite m R.STEP_SNAP_CTL →
      let x := exec (.snapSend m w) s
      let n := bits w.toNat 7 0
      let t0 := (s.written R.STEP_SNAP_CTL w.toNat).setFld F.STEP_SNAP_CTL_GO 0
      let read := State.snapRanges n (s.fld F.STEP_SNAP_LIST_LO_ADDR * 16 + s.fld F.STEP_SNAP_LIST_HI_ADDR * 2 ^ 32) t0
      let list := read.2
      let allowed := s.role = 1 ∧ s.fld F.STEP_STATUS_PARTNER_ROLE = 3 ∧ 1 ≤ n ∧ n ≤ 64
      let tick := s.reg64 R.STEP_SNAP_TICK_LO R.STEP_SNAP_TICK_HI
      (busy = true → x = .next (State.taken (s.orFld F.STEP_ERR_ERR 1024))) ∧
      (busy = false → w.getLsbD 31 = false → s.bit F.STEP_SNAP_CTL_GO = false →
        x = .next (State.taken (s.written R.STEP_SNAP_CTL w.toNat))) ∧
      (busy = false → w.getLsbD 31 = true → ¬allowed →
        x = .next (State.taken ((t0.setFld F.STEP_SNAP_STAT_REFUSED 1).orFld F.STEP_ERR_ERR 32))) ∧
      (busy = false → w.getLsbD 31 = true → allowed → list = none →
        x = .next (State.taken ((read.1.setFld F.STEP_SNAP_STAT_REFUSED 1).orFld F.STEP_ERR_ERR 32))) ∧
      (∀ rs, busy = false → w.getLsbD 31 = true → allowed → list = some rs → s.up 23 = false →
        (s.up 22 = false → x = .next (State.taken ((read.1.setFld F.STEP_SNAP_STAT_FAIL 1).orFld F.STEP_ERR_ERR 32)))) ∧
      (∀ rs q, busy = false → w.getLsbD 31 = true → allowed → list = some rs →
        ((q = 23 ∧ s.up 23 = true) ∨ (q = 22 ∧ s.up 23 = false ∧ s.up 22 = true)) → rs.any (fun r => s.waits (s.region r.1)) = true →
        Gives (.snapSend m w) s fun t => t.fld F.STEP_SNAP_STAT_BUSY = 1 ∧ t.fld F.STEP_SNAP_CTL_GO = 0 ∧ t.links = s.links ∧
          t.fc = { s.fc with late := s.fc.late ++ [.snap q tick rs] }) ∧
      (∀ rs q, busy = false → w.getLsbD 31 = true → allowed → list = some rs →
        ((q = 23 ∧ s.up 23 = true) ∨ (q = 22 ∧ s.up 23 = false ∧ s.up 22 = true)) → rs.any (fun r => s.waits (s.region r.1)) = false →
        let cuts := rs.flatMap (fun r => (List.range (ceilDiv r.2 992)).map (fun i => (r.1 + 992 * i, min 992 (r.2 - 992 * i))))
        let total := (rs.map (·.2)).foldl (· + ·) 0
        let start : Barge := ⟨0x65, 0, 0, leBytes 8 tick ++ leBytes 4 rs.length ++ leBytes 4 0 ++ leBytes 8 total ++ leBytes 8 0, none⟩
        Gives (.snapSend m w) s fun t => t.fld F.STEP_SNAP_STAT_BUSY = 1 ∧ t.fld F.STEP_SNAP_CTL_GO = 0 ∧
          t = { s with regs := t.regs, mem := t.mem, chk := t.chk, log := t.log, wq := t.wq, ddr := t.ddr, links := t.links, resp := .ok } ∧
          (∀ p, p ≠ q → t.link p = s.link p) ∧
          ∃ l e, (t.link q).waiting = (s.link q).waiting ++ start :: (l ++ [e]) ∧ e.typ = 0x67 ∧ e.vc = 0 ∧
            e.data.take 8 = leBytes 8 tick ∧ e.data.drop 12 = leBytes 4 cuts.length ∧
            l.map (fun b => (b.typ, b.vc, b.data.take 8, b.data.length)) = cuts.map (fun c => (0x66, 0, leBytes 8 c.1, 8 + c.2)))) ∧
    (∀ k : Fin 4, s.MayWrite m (R.STEP_JOIN k) →
      (busy = true → exec (.joinArm m k w) s = .next (State.taken ((s.orFld F.STEP_ERR_ERR 1024).setFld F.STEP_STATUS_JOIN_PENDING (pending s)))) ∧
      (busy = false → Gives (.joinArm m k w) s fun t => t.reg (R.STEP_JOIN k) = w ∧ t.fld F.STEP_STATUS_JOIN_PENDING = pending t ∧
        s.SameRegsBut t [R.STEP_JOIN k, R.STEP_STATUS] ∧ t = { s with regs := t.regs, dctx := t.dctx, resp := .ok } ∧
        ∀ i, t.dc i = if i / 32 = k.val ∧ w.getLsbD (i % 32) = true ∧ (s.reg (R.STEP_JOIN k)).getLsbD (i % 32) = false then
          { s.dc i with joinJ := 0, joinKept := [] } else s.dc i)) ∧
    (∀ n, exec (.arbHealthRead n) s = .next { s with resp := .bytes (slice s.pair.health 0 n) } ∧
      exec (.arbIdRead n) s = .next { s with resp := .bytes (slice (leBytes 4 (s.reg R.SYS_DEVICE_ID).toNat ++ leBytes 1 (s.fld F.SYS_STRAP_PAIR_POS)) 0 n) } ∧
      ∀ b, exec (.arbOtherCmd b n) s = .next { s with resp := .bytes (List.replicate n 0xFF) })

/-! ### Capacitive desk sensing -/

/-- R475 to R479, R483 to R486: EN begins scanning afresh, and any write of 1 to it makes the table invalid; a test runs in place of the next scan,
or, with EN 0, at once while the electrodes are driven, and needs their ownership; a baseline written counts for the table's validity; scans start at the step's interval; a scan takes every node through fault, touch, stuck and
recalibration; a test reports open, shorted and bridged pins; a new owner drives the electrodes when its time comes and scans at once, and sends
its table each second.
The model's readings in it: log entry 66. -/
def Obligations.DeskSensing : Prop :=
  ∀ (s : State) (m : Mst) (w : Word), s.pwr.phase = .run →
    let busy := s.bit F.TOUCH_STATUS_TEST_BUSY
    let timed (t : State) : Prop := t = { s with time := t.time, tests := t.tests, cores := t.cores, regs := t.regs, touch := t.touch, links := t.links }
    let shows (t : State) : Prop := t.fld F.TOUCH_STATUS_SCANNING = (t.bit F.TOUCH_CTL_EN && t.touchOwner && t.touch.driving).toNat
    (s.MayWrite m R.TOUCH_CTL → ∀ i ∈ [Instr.touchEnable m w, .touchTest m w],
      let was := s.bit F.TOUCH_CTL_EN
      let now := w.getLsbD 0
      let asked := s.bit F.TOUCH_CTL_TEST || w.getLsbD 4
      Gives i s fun t => t = { s with regs := t.regs, touch := t.touch, resp := .ok } ∧
        s.SameRegsBut t [R.TOUCH_CTL, R.TOUCH_STATUS, R.TOUCH_ERR] ∧ t.bit F.TOUCH_CTL_EN = now ∧ shows t ∧
        t.fld F.TOUCH_CTL_INIT = (w.getLsbD 1).toNat ∧ t.fld F.TOUCH_CTL_DELTAS = (w.getLsbD 8).toNat ∧
        (now = true → t.fld F.TOUCH_STATUS_BASE_VALID = 0 ∧ t.touch.written = [] ∧ t.touch.loaded = []) ∧
        (now = true → was = false → t.fld F.TOUCH_STATUS_STEP = 0 ∧ t.touch.first = true ∧ t.touch.scan = false ∧ t.touch.idle = s.time.clk ∧
          t.touch.drift = 0 ∧ t.touch.start = none) ∧
        (now = false → was = true → t.touch.scan = false ∧ t.touch.first = s.touch.first ∧ t.touch.written = s.touch.written) ∧
        (now = was → asked = false → t.touch = if now then { s.touch with written := [], loaded := [] } else s.touch) ∧
        (asked = false → t.reg R.TOUCH_ERR = s.reg R.TOUCH_ERR ∧ t.fld F.TOUCH_STATUS_TEST_BUSY = busy.toNat) ∧
        (asked = true → s.touchOwner = false → t.bit F.TOUCH_CTL_TEST = false ∧ t.bitAt F.TOUCH_ERR_ERR 4 = true) ∧
        (asked = true → s.touchOwner = true → (busy = true ∨ now = true ∨ s.touch.driving = false) →
          t.bit F.TOUCH_CTL_TEST = true ∧ t.fld F.TOUCH_STATUS_TEST_BUSY = busy.toNat) ∧
        (asked = true → s.touchOwner = true → busy = false → now = false → s.touch.driving = true →
          t.bit F.TOUCH_CTL_TEST = false ∧ t.fld F.TOUCH_STATUS_TEST_BUSY = 1 ∧ t.touch.start = some s.time.clk ∧ t.touch.testAt = s.time.clk)) ∧
    (∀ i : Fin 576, s.MayWrite m (R.TOUCH_BASE i) → Gives (.touchBaseWrite m i w) s fun t =>
      t.fld (F.TOUCH_BASE_BASE i) = bits w.toNat 15 0 ∧ s.SameRegsBut t [R.TOUCH_BASE i, R.TOUCH_STATUS] ∧
      t.touch = { s.touch with written := (s.touch.written ++ [i.val]).eraseDups, unstick := (s.touch.unstick ++ [i.val]).eraseDups } ∧
      t.fld F.TOUCH_STATUS_BASE_VALID = (s.bit F.TOUCH_STATUS_BASE_VALID || s.tNodes.all (t.touch.written.contains ·) ||
        s.tNodes.all (s.touch.loaded.contains ·)).toNat ∧ t = { s with regs := t.regs, touch := t.touch, resp := .ok }) ∧
    ((s.scanning' = false ∨ s.touch.scan = true ∨ busy = true) → exec .touchScanStart s = .next s) ∧
    (s.scanning' = true → s.touch.scan = false → busy = false → Gives .touchScanStart s fun t => timed t ∧ t.links = s.links ∧
      t.time.clk = max s.time.clk (match s.touch.start with | none => s.time.clk | some c => c + s.stepClk) ∧
      (s.bit F.TOUCH_CTL_TEST = false → t.touch = { s.touch with start := some t.time.clk, scan := true }) ∧
      (s.bit F.TOUCH_CTL_TEST = true → t.touch = { s.touch with start := some t.time.clk, testAt := t.time.clk } ∧ t.fld F.TOUCH_STATUS_TEST_BUSY = 1 ∧
        t.bit F.TOUCH_CTL_TEST = false) ∧
      (s.touch.start.isSome = true → s.stepClk < s.scanClk → t.bitAt F.TOUCH_ERR_ERR 0 = true)) ∧
    (∀ caps, (s.touch.start = none ∨ s.touch.scan = false) → exec (.touchScanEnd caps) s = .next s) ∧
    (∀ (caps : List Nat) c, s.touch.start = some c → s.touch.scan = true →
      let top := 2 ^ s.tRes - 1
      let raw (i : Nat) : Nat := min top (2 ^ s.tRes * caps.getD i 0 / s.tFull)
      let r (i : Nat) : Nat := raw i * 2 ^ (16 - s.tRes)
      let th : Int := s.fld F.TOUCH_DET_TH
      let rel : Int := min (s.fld F.TOUCH_DET2_REL_TH : Int) (th - 1)
      let deb := max 1 (s.fld F.TOUCH_DET2_DEBOUNCE)
      let neg : Int := s.fld F.TOUCH_BASECFG_NEG_TH
      let on := s.fld F.TOUCH_STUCK_MAX_ON
      let capture := s.touch.first && !s.bit F.TOUCH_STATUS_BASE_VALID && !s.bit F.TOUCH_CTL_INIT
      Gives (.touchScanEnd caps) s fun t => timed t ∧ t.links = s.links ∧ t.time.clk = max s.time.clk (c + s.scanClk) ∧
        t.fld F.TOUCH_SCAN_COUNT = (s.fld F.TOUCH_SCAN_COUNT + 1) % 2 ^ 32 ∧ t.touch.scan = false ∧ t.touch.first = false ∧ t.touch.fresh = true ∧ t.touch.unstick = [] ∧
        (capture = true → ∀ i ∈ s.touch.unstick, t.fld (F.TOUCH_NODE_STUCK i) = 0) ∧
        (∀ i ∈ s.tNodes, t.fld (F.TOUCH_NODE_RAW16 i) = r i) ∧
        (capture = true → t.fld F.TOUCH_STATUS_BASE_VALID = 1 ∧ ∀ i ∈ s.tNodes, t.fld (F.TOUCH_BASE_BASE i) = r i ∧
          t.fld (F.TOUCH_NODE_TOUCHED i) = s.fld (F.TOUCH_NODE_TOUCHED i)) ∧
        (capture = false →
          ((∃ i ∈ s.tNodes, th ≤ s.tDelta i (r i)) → t.fld F.TOUCH_STATUS_STEP = 0) ∧
          ∀ i ∈ s.tNodes,
            let x := s.tNode i
            let d := s.tDelta i (r i)
            let touched := t.fld (F.TOUCH_NODE_TOUCHED i)
            let base := t.fld (F.TOUCH_BASE_BASE i)
            let fault := s.tMutual = false ∧ (r i < s.fld F.TOUCH_TESTCFG_OPEN_TH ∨ raw i = top)
            let long := on ≠ 0 ∧ x.since + on * 500000000 ≤ t.time.clk
            (fault → t.fld (F.TOUCH_NODE_FAULT i) = 1 ∧ touched = 0 ∧ base = s.fld (F.TOUCH_BASE_BASE i)) ∧
            (¬fault → t.fld (F.TOUCH_NODE_FAULT i) = 0 ∧
              (s.bit (F.TOUCH_NODE_TOUCHED i) = false → touched = if th ≤ d ∧ deb ≤ x.above + 1 then 1 else 0) ∧
              (s.bit (F.TOUCH_NODE_TOUCHED i) = true →
                ((d < rel ∧ deb ≤ x.under + 1) → touched = 0) ∧
                (¬(d < rel ∧ deb ≤ x.under + 1) → ¬long → touched = 1) ∧
                (¬(d < rel ∧ deb ≤ x.under + 1) → long → touched = 0 ∧ base = r i ∧ t.bitAt F.TOUCH_ERR_ERR 2 = true)) ∧
              (touched = 0 → d ≤ -neg → max 1 (s.fld F.TOUCH_BASECFG_NEG_SCANS) ≤ x.neg + 1 → base = r i) ∧
              (-neg < d → on = 0 → s.fld F.TOUCH_BASECFG_DRIFT = 0 → base = s.fld (F.TOUCH_BASE_BASE i))))) ∧
    (∀ pins pairs, busy = false → exec (.touchTestDone pins pairs) s = .next s) ∧
    (∀ pins pairs : List Nat, busy = true → Gives (.touchTestDone pins pairs) s fun t => timed t ∧ t.links = s.links ∧
      t.time.clk = max s.time.clk (s.touch.testAt + 8 * groupClk 12) ∧ t.bitAt F.TOUCH_ERR_ERR 3 = true ∧
      (∀ i, i < 48 →
        let at' (lo hi : Fld) : Bool := if i < 32 then t.bitAt lo i else t.bitAt hi (i - 32)
        let pin := min 4095 (4096 * pins.getD i 0 / ((s.fld F.TOUCH_CFG_RANGE + 1) * 10000000))
        at' F.TOUCH_OPEN_LO_PINS F.TOUCH_OPEN_HI_PINS = (s.tPin i && decide (pin * 16 < s.fld F.TOUCH_TESTCFG_OPEN_TH)) ∧
        at' F.TOUCH_SHORT_LO_PINS F.TOUCH_SHORT_HI_PINS = (s.tPin i && decide (pin = 4095)) ∧
        (i < 47 → at' F.TOUCH_BRIDGE_LO_PAIRS F.TOUCH_BRIDGE_HI_PAIRS = 
          decide (s.fld F.TOUCH_TESTCFG_BRIDGE_TH ≤ min 4095 (4096 * pairs.getD i 0 / 8000000) * 16))) ∧
      ((s.bit F.TOUCH_CTL_TEST = false ∨ s.bit F.TOUCH_CTL_EN = true ∨ s.touch.driving = false) → t.fld F.TOUCH_STATUS_TEST_BUSY = 0 ∧ t.touch = s.touch) ∧
      (s.bit F.TOUCH_CTL_TEST = true → s.bit F.TOUCH_CTL_EN = false → s.touch.driving = true → t.fld F.TOUCH_STATUS_TEST_BUSY = 1 ∧ t.touch.start = some t.time.clk)) ∧
    (s.touch.ownAt = none → exec .touchOwnerStart s = .next s) ∧
    (∀ c, s.touch.ownAt = some c → Gives .touchOwnerStart s fun t => timed t ∧ t.links = s.links ∧ shows t ∧ t.time.clk = max s.time.clk c ∧
      (s.bit F.TOUCH_CTL_EN = true → s.bit F.TOUCH_CTL_TEST = false →
        t.touch = { s.touch with driving := true, ownAt := none, start := some t.time.clk, scan := true }) ∧
      (s.bit F.TOUCH_CTL_TEST = true → (s.bit F.TOUCH_CTL_EN = true ∨ busy = false) → t.fld F.TOUCH_STATUS_TEST_BUSY = 1 ∧
        t.touch = { s.touch with driving := true, ownAt := none, start := some t.time.clk, testAt := t.time.clk }) ∧
      (s.bit F.TOUCH_CTL_EN = false → s.bit F.TOUCH_CTL_TEST = false → t.touch = { s.touch with driving := true, ownAt := none })) ∧
    (s.touchOwner = false → exec .touchBaseSend s = .next s) ∧
    (s.touchOwner = true → Gives .touchBaseSend s fun t => timed t ∧ t.time.clk = max s.time.clk (s.touch.sent + 500000000) ∧
      t.touch = { s.touch with sent := t.time.clk } ∧
      (s.role = 0 → t.links = s.links) ∧
      (∀ q, s.role = 1 → ((q = 23 ∧ s.up 23 = true) ∨ (q = 22 ∧ s.up 23 = false ∧ s.up 22 = true)) →
        (∀ p, p ≠ q → t.link p = s.link p) ∧ (t.link q).waiting = (s.link q).waiting ++ (List.range (ceilDiv s.tN 508)).map (fun j =>
          let n := min 508 (s.tN - 508 * j)
          ⟨0x68, 0, 0, leBytes 2 (508 * j) ++ leBytes 2 n ++ leBytes 1 s.tMutual.toNat ++ leBytes 3 0 ++
            (span (508 * j) n).flatMap (fun i => leBytes 2 (s.fld (F.TOUCH_BASE_BASE i))), none⟩)))

/-! ### Resets and power -/

/-- R6, R54, R489, R498, R505 to R509, R512, R514 to R516, R519, R520, R526: a reset restores each register whose row lists its kind and keeps
the others, loses DRAM, general and sequencer SRAM too where it ends RETAIN, and a POR all memory; one being taken absorbs kinds that are not higher; KEEP_CAUSE takes its cause. APP, HEAD and
ENGINE resets restore their own registers and write a RESET record. At the release the pins are taken, the record is written, and the Keeper
starts from the first slot that is accepted; with none the boot halts. A DEEP state ends for WAKE_N, the timer or the reset pin alone.
The model's readings in it: log entries 12, 67 and 68. -/
def Obligations.ResetsAndBoot : Prop :=
  ∀ (s : State),
    let phase := s.pwr.phase
    let took (k : ResetKind) (sub code : Nat) : State :=
      if phase = .run ∨ phase = .retain ∨ (phase = .reset ∧ k.num < s.pwr.kind) then s.coreReset k sub code else s
    let woken (cause : Nat) : State :=
      let t := (s.coreReset .por 2 0).setFld F.PWR_WAKE_CAUSE cause
      { t with pwr := { t.pwr with railEn := true } }
    (∀ (k : ResetKind) (sub code : Nat),
      let t := s.coreReset k sub code
      t.reg R.KEEP_CAUSE = BitVec.ofNat 32 (causeWord k.num sub code) ∧ t.pwr.phase = (if k.num = 0 then .rails else .reset) ∧ t.pwr.kind = k.num ∧
      (∀ o r, rowAt o = some r → o ≠ R.KEEP_CAUSE → t.reg o = if r.restored k then rstOf o else s.reg o) ∧
      (∀ a, t.byte a = if k.num ≠ 0 ∧ (if phase = .retain then 0x4100000000 ≤ a ∧ a < 0x4300000000 else 0x1000000000 ≤ a) then s.byte a else 0) ∧
      t.gpio = s.gpio ∧ t.pwr.railEn = s.pwr.railEn ∧ t.pwr.vid = s.pwr.vid ∧ t.pwr.thermN = s.pwr.thermN ∧ (∀ c, t.core c = CoreSt.reset c) ∧ t.flash = s.flash ∧
      (k.num ≠ 0 → t.log = s.log ∧ t.pwr.warm = s.pwr.warm) ∧ t.links = [] ∧ t.heads = [] ∧ t.pair = {} ∧ t.time.now = 0 ∧ t.time.clk = s.time.clk) ∧
    (exec (.resetPor .aon) s = .next (let t := s.coreReset .aonPor 0 0; { t with pwr := { t.pwr with railEn := true, vid := 1 } })) ∧
    (exec (.resetPor .coreLow) s = .next (if phase = .deep then s else s.coreReset .por (if s.pwr.thermN then 1 else 3) 0)) ∧
    (∀ c : Fin 5, exec (.resetPor (.deepWake c)) s = .next (if phase = .deep ∧ ((c = 1 ∧ s.bitAt F.PWR_WAKE_EN 0 = true) ∨
      (c = 2 ∧ s.bitAt F.PWR_WAKE_EN 1 = true ∧ s.fld F.PWR_WAKE_TIMER_SEC ≠ 0) ∨ c = 4) then woken c.val else s)) ∧
    exec .resetPin s = .next (if phase = .deep then woken 4 else took .pin 0 0) ∧
    exec .resetDip s = .next (took .dip 0 0) ∧
    exec .refclkLoss s = .next (took .wdt 3 0) ∧
    exec .keeperMismatch s = .next (if phase = .run then s.coreReset .wdt 1 0 else s) ∧
    exec .keeperWdogExpire s = .next (if phase = .run ∧ s.bit F.KEEP_BOOT_HALT = false then
      (s.advance (s.pwr.kwLoad + 500 * max 1 (s.fld F.KEEP_WDOG_CTL_TIMEOUT) - s.time.clk)).coreReset .wdt 0 0 else s) ∧
    (∀ (m : Mst) (i : BitVec 5) (code : Byte), phase = .run → s.MayWrite m R.KEEP_RESET →
      let n := i.toNat
      let record (t : State) (kind inst : Nat) : Out := .next (t.resetRec kind inst (causeWord kind 0 code.toNat)).taken
      exec (.resetSys m i code) s = .next (s.coreReset .sys 0 code.toNat).taken ∧
      exec (.resetApp m i code) s = record s.appReset 5 0 ∧
      exec (.resetHead m i code) s = record (s.headReset n) 6 n ∧
      (n < 16 → exec (.resetEngine m i code) s = record (s.decReset n) 7 n) ∧
      (16 ≤ n → n < 24 → exec (.resetEngine m i code) s = record (s.encReset (n - 16)) 7 n) ∧
      (24 ≤ n → exec (.resetEngine m i code) s = .next s.taken)) ∧
    (let t := s.appReset;
      (∀ c, c < 12 → t.core c = { CoreSt.reset c with wdRun := decide (c < 8) && s.bit (F.ICTL_WDOG_CTL_EN c) }) ∧ t.core 12 = s.core 12 ∧ t.fld F.STEP_CTL_READY = 0 ∧ t.inStep = false ∧ t.lines = [] ∧
      t.chambers = [] ∧ t.dctx = [] ∧ t.ectx = [] ∧ t.mem = s.mem ∧ t.heads = s.heads ∧ t.log = s.log ∧ t.time = s.time ∧
      (∀ o r, rowAt o = some r → r.kinds = .app → t.reg o = rstOf o) ∧
      (∀ c : Fin 8, t.reg (R.ICTL_WDOG_STAT c) =
        if s.bit (F.ICTL_WDOG_CTL_EN c) = true then s.reg (R.ICTL_WDOG_STAT c) &&& ~~~(1#32) else s.reg (R.ICTL_WDOG_STAT c)) ∧
      (∀ o r, rowAt o = some r → r.kinds ≠ .app → o ≠ R.STEP_CTL → o ≠ R.STEP_STATUS → (∀ n : Fin 16, o ≠ R.DEC_ENG_STATUS n) →
        (∀ n : Fin 8, o ≠ R.ENC_ENG_STATUS n) → (∀ c : Fin 8, o ≠ R.ICTL_WDOG_STAT c) → t.reg o = s.reg o)) ∧
    (∀ h : Fin 32, let t := s.headReset h;
      t.bitAt F.TICK_LOCK_LOCK h = false ∧ t.mem = s.mem ∧ t.cores = s.cores ∧ Tbl.get (fun _ => ({} : HeadSt)) t.heads h.val = {} ∧
      ∀ o, (R.HEAD_CTL h ≤ o ∧ o < R.HEAD_CTL h + 0x10000) ∨ o = R.FG_HEAD_AMAP h ∨ o = R.FG_HEAD_STAT h ∨ o = R.FG_HEAD_MAXAGE h ∨ o = R.COMP_HFETCH h →
        t.reg o = rstOf o ∧ t.lreg o = rstOf o) ∧
    (∀ n : Fin 16, let t := s.decReset n;
      Tbl.get (fun _ => ({} : DecEng)) t.deng n.val = {} ∧ t.cores = s.cores ∧ ∀ o ∈ [R.DEC_ENG_CTL n, R.DEC_ENG_STATUS n, R.DEC_ENG_ERR n,
        R.DEC_ENG_IRQ_EN n, R.DEC_ENG_WDOG n, R.DEC_ENG_PICS n, R.DEC_ENG_BUSY n], t.reg o = rstOf o) ∧
    (∀ n : Fin 8, let t := s.encReset n;
      Tbl.get (fun _ => ({} : EncEng)) t.eeng n.val = {} ∧ t.cores = s.cores ∧ ∀ o ∈ [R.ENC_ENG_CTL n, R.ENC_ENG_STATUS n, R.ENC_ENG_ERR n,
        R.ENC_ENG_IRQ_EN n, R.ENC_ENG_WDOG n, R.ENC_ENG_FRAMES n, R.ENC_ENG_BUSY n], t.reg o = rstOf o) ∧
    (∀ (role : BitVec 2) (pair ok0 ok1 : Bool),
      let x := exec (.resetRelease role pair ok0 ok1) s
      let r := roleOf role.toNat false
      let kind := s.pwr.kind
      let cause := (s.reg R.KEEP_CAUSE).toNat
      let tail := if s.log.queue.isEmpty then s.log.newest else s.log.queue.getLast?
      let header (slot : Nat) : List Byte := s.flashBytes (slot * 0x100000) 256
      let booted (slot : Nat) (t : State) : Prop :=
        let len := leNat (slice (header slot) 12 4)
        let entry := leNat (slice (header slot) 16 4)
        let code := s.flashBytes (slot * 0x100000 + 256) len
        t.core 12 = { CoreSt.reset 12 with pc := BitVec.ofNat 64 (0x4100000000 + entry) } ∧ t.fld F.KEEP_BOOT_SLOT = slot ∧
          t.fld F.KEEP_BOOT_FALLBACK = slot ∧ t.fld F.KEEP_BOOT_VER_VERSION = leNat (slice (header slot) 8 4) ∧
          t.pwr.warm = some (len, entry, sha256 code) ∧ ∀ i, i < len → t.byte (0x4100000000 + i) = code.getD i 0
      (phase ≠ .reset → x = .next s) ∧
      (phase = .reset → Gives (.resetRelease role pair ok0 ok1) s fun t =>
        t.pwr.phase = .run ∧ t.pwr.thermN = (s.pwr.thermN || decide (kind = 0)) ∧ t.reg R.MGMT_GPIO_IN = s.gpio ∧ t.fld F.STEP_STATUS_PINS = role.toNat ∧ t.role = r ∧ t.fld F.TOUCH_STATUS_OWNER = (decide (r ≤ 1)).toNat ∧
        (kind = 0 ∨ kind = 2 → t.fld F.SYS_STRAP_PAIR_POS = pair.toNat) ∧ t.reg R.KEEP_CAUSE = s.reg R.KEEP_CAUSE ∧
        (kind = 0 → t.log.free = 96 ∧ t.reg64 R.LOG_NEXT_SEQ_LO R.LOG_NEXT_SEQ_HI = 3 ∧ ∃ e, t.log.newest = some e ∧ e.typ = 2 ∧
          e.payload = leBytes 4 0 ++ leBytes 4 cause ++ leBytes 8 0) ∧
        (kind ≠ 0 → (∀ y, tail = some y → y.typ ≠ 2) → s.log.queue.length < 64 → ∃ e ∈ t.log.queue, e.typ = 2 ∧
          e.payload = leBytes 1 kind ++ leBytes 1 0 ++ leBytes 2 0 ++ leBytes 4 cause ++ leBytes 8 0) ∧
        (s.slotCheck 0 ok0 = 0 → booted 0 t) ∧
        (s.slotCheck 0 ok0 ≠ 0 → s.slotCheck 1 ok1 = 0 → booted 1 t) ∧
        (s.slotCheck 0 ok0 ≠ 0 → s.slotCheck 1 ok1 ≠ 0 → t.fld F.KEEP_BOOT_HALT = 1 ∧ t.core 12 = s.core 12)))

/-- R488, R491, R495 to R497, R499, R502, R504, R510 to R513, R521, R522, R526: rails that become good go on, a failed start is counted; a dip
episode and its end are recorded and flagged, another rail's fall is flagged; temperatures raise the alarm and the trip; a DVFS change waits for
its end; RETAIN and DEEP are entered only when the wall stands still, and RETAIN ends at the warm path; DRAM resumes at P3; the watchdog is
kicked, cores are released after the policy is locked, and a version fuse is blown.
The model's readings in it: log entries 67 and 69. -/
def Obligations.RailsAndPower : Prop :=
  ∀ (s : State),
    exec .railGood s = .next (if s.pwr.phase = .rails then { s with pwr := { s.pwr with phase := .reset } } else s) ∧
    exec .railBringupFail s = .next (if s.pwr.phase = .rails then s.setFld F.PWR_AON_STAT_FAILS (min 255 (s.fld F.PWR_AON_STAT_FAILS + 1)) else s) ∧
    (s.pwr.phase = .run →
      let dip := s.bit F.PWR_STATUS_DIP_ACTIVE
      let err (t : State) (b : Nat) : Prop := t.bitAt F.PWR_ERR_ERR b = true
      (∀ mv, dip = true → exec (.dipBegin mv) s = .next { s.setFld F.PWR_VCORE_MV mv.toNat with
        pwr := { s.pwr with vSlot := some (s.time.clk / 50) } }) ∧
      (s.pwr.vSlot = some (s.time.clk / 50) → s.vcoreMv = s.fld F.PWR_VCORE_MV) ∧
      (∀ mv : BitVec 16, dip = false → Gives (.dipBegin mv) s fun t => t.fld F.PWR_VCORE_MV = mv.toNat ∧ t.fld F.PWR_STATUS_DIP_ACTIVE = 1 ∧
        t.bitAt F.PWR_STATUS_RAIL_LOW 0 = true ∧ err t 0 ∧ t.fld F.PWR_DIP_CNT_COUNT = min (2 ^ 32 - 1) (s.fld F.PWR_DIP_CNT_COUNT + 1) ∧
        (s.log.queue.length < 64 → ∃ e, t.log.queue = s.log.queue ++ [e] ∧ e.typ = 0x10 ∧ e.payload = leBytes 2 s.nominalMv ++ leBytes 2 mv.toNat ++
          leBytes 4 0 ++ leBytes 8 s.tickNo) ∧
        (∀ h, h < 32 → (Tbl.get (fun _ => ({} : HeadSt)) t.heads h).dip =
          ((Tbl.get (fun _ => ({} : HeadSt)) s.heads h).dip || decide (2 ≤ s.fld (F.HEAD_STATUS_STATE h)))) ∧
        t = { s with regs := t.regs, mem := t.mem, log := t.log, heads := t.heads, pwr := { s.pwr with vSlot := some (s.time.clk / 50) } }) ∧
      (∀ ns mv, dip = false → exec (.dipEnd ns mv) s = .next s) ∧
      (∀ ns (mv : BitVec 16), dip = true → Gives (.dipEnd ns mv) s fun t => t.fld F.PWR_STATUS_DIP_ACTIVE = 0 ∧
        t.bitAt F.PWR_STATUS_RAIL_LOW 0 = false ∧ t.fld F.PWR_DIP_DUR_NS = min ns (2 ^ 32 - 1) ∧ t.fld F.PWR_DIP_MIN_MV = mv.toNat ∧
        t.pair = { s.pair with fullDue := true } ∧
        (2000000 < ns → err t 1 ∧ t.bitAt F.STEP_ERR_ERR 9 = true ∧ t.fld F.STEP_HEALTH_DEG_FLOOR = 1) ∧
        (ns ≤ 2000000 → t.reg R.PWR_ERR = s.reg R.PWR_ERR ∧ t.reg R.STEP_ERR = s.reg R.STEP_ERR ∧ t.reg R.STEP_HEALTH = s.reg R.STEP_HEALTH) ∧
        (s.log.queue.length < 64 → ∃ e, t.log.queue = s.log.queue ++ [e] ∧ e.typ = 0x11 ∧ e.payload = leBytes 4 (min ns (2 ^ 32 - 1)) ++
          leBytes 2 mv.toNat ++ leBytes 1 (decide (2000000 < ns)).toNat ++ List.replicate 9 0) ∧
        t = { s with regs := t.regs, mem := t.mem, log := t.log, pair := t.pair }) ∧
      (∀ r : Fin 7, exec (.railLowClear r) s = .next (s.setFld F.PWR_STATUS_RAIL_LOW (putBits (s.fld F.PWR_STATUS_RAIL_LOW) r r 0)) ∧
        exec (.railWarn r) s = .next (if r.val = 0 then s else
          let t := if r.val = 1 then s else s.orFld F.PWR_ERR_ERR 4
          t.setFld F.PWR_STATUS_RAIL_LOW (putBits (t.fld F.PWR_STATUS_RAIL_LOW) r r 1))) ∧
      (∀ (k : Fin 8) (d : BitVec 16), Gives (.tempSample k d) s fun t => t.fld (F.PWR_TEMP_TEMP k) = d.toNat ∧
        (sext 16 (s.fld F.PWR_TEMP_ALARM_TEMP) ≤ d.toInt → err t 3) ∧
        (d.toInt < sext 16 (s.fld F.PWR_TEMP_ALARM_TEMP) → t.reg R.PWR_ERR = s.reg R.PWR_ERR) ∧
        (500 ≤ d.toInt → t.fld F.PWR_AON_STAT_TRIPPED = 1 ∧ t.pwr = { s.pwr with thermN := false }) ∧
        (d.toInt < 500 → t.reg R.PWR_AON_STAT = s.reg R.PWR_AON_STAT ∧ t.pwr = s.pwr) ∧
        t = { s with regs := t.regs, pwr := t.pwr } ∧ s.SameRegsBut t [R.PWR_TEMP k, R.PWR_ERR, R.PWR_AON_STAT]) ∧
      (∀ (m : Mst) (w : Word), s.MayWrite m R.PWR_DVFS →
        let p := s.written R.PWR_DVFS w.toNat
        let goal := bits w.toNat 1 0
        let cur := s.fld F.PWR_DVFS_CURRENT
        let busy := s.bit F.PWR_STATUS_DVFS_BUSY
        let wrong := s.bit F.DDR_FC_STAT_BUSY = true ∨ s.fld (F.DDR_STATUS_POINT 0) < goal
        ((w.getLsbD 31 = false ∨ busy = true) → exec (.dvfsGo m w) s = .next p.taken) ∧
        (w.getLsbD 31 = true → busy = false → wrong → exec (.dvfsGo m w) s = .next ((p.orFld F.PWR_ERR_ERR 0x10).setFld F.PWR_DVFS_GO 0).taken) ∧
        (w.getLsbD 31 = true → busy = false → ¬wrong → exec (.dvfsGo m w) s = .next (State.taken { p.setFld F.PWR_STATUS_DVFS_BUSY 1 with
          pwr := { s.pwr with dvfsTo := goal, vid := goal, clkPoint := if cur < goal then goal else s.pwr.clkPoint } }))) ∧
      exec .dvfsDone s = .next (if s.bit F.PWR_STATUS_DVFS_BUSY then
        { (s.setFlds [(F.PWR_DVFS_CURRENT, s.pwr.dvfsTo), (F.PWR_DVFS_GO, 0), (F.PWR_STATUS_DVFS_BUSY, 0)]).orFld F.PWR_ERR_ERR 0x40 with
          pwr := { s.pwr with clkPoint := s.pwr.dvfsTo } } else s) ∧
      (∀ (m : Mst) (w : Word), s.MayWrite m R.PWR_STATE →
        let p := s.written R.PWR_STATE w.toNat
        let q := p.setFld F.PWR_STATE_GO 0
        let goal := bits w.toNat 1 0
        let still := (s.pwr.rolePins = 3 ∨ s.pwr.rolePins = 0) ∧ s.bit F.TICK_STATUS_RUNNING = false ∧
          (∀ h, h < 32 → s.fld (F.HEAD_STATUS_STATE h) = 0) ∧ s.bit F.PWR_STATUS_DVFS_BUSY = false ∧ s.bit F.DDR_FC_STAT_BUSY = false
        let cold := s.bit F.DDR_GCTL_READY = false ∨ s.fld (F.DDR_STATUS_POINT 0) = 3
        let ok := still ∧ (goal = 2 ∨ (goal = 1 ∧ cold))
        (∀ i ∈ [Instr.retainEnter m w, .deepEnter m w],
          (w.getLsbD 31 = false → exec i s = .next p.taken) ∧
          (w.getLsbD 31 = true → ¬ok → exec i s = .next (q.orFld F.PWR_ERR_ERR 0x20).taken)) ∧
        (w.getLsbD 31 = true → ok → goal = 2 → exec (.deepEnter m w) s = .next (State.taken { q with pwr := { s.pwr with phase := .deep, railEn := false } })) ∧
        (w.getLsbD 31 = true → ok → goal = 1 → Gives (.retainEnter m w) s fun t => t.pwr = { s.pwr with phase := .retain, vid := 3 } ∧
          t.fld F.DDR_GCTL_READY = 0 ∧ t.fld F.DDR_TOP_GIB = 0 ∧ (∀ c, c < 8 → t.fld (F.DDR_STATUS_STATE c) = 4) ∧
          t = { s with regs := t.regs, pwr := t.pwr, resp := .ok } ∧
          s.SameRegsBut t ([R.PWR_STATE, R.DDR_GCTL, R.DDR_TOP] ++ (List.range 8).map R.DDR_STATUS))) ∧
      (∀ (m : Mst) (w : Word), s.MayWrite m R.PWR_DDR_RESUME →
        let p := s.written R.PWR_DDR_RESUME w.toNat
        let x := exec (.pwrDdrResume m w) s
        (w.getLsbD 0 = false → x = .next p.taken) ∧
        (w.getLsbD 0 = true → s.pwr.woke = false → x = .next (p.setFld F.PWR_DDR_RESUME_GO 0).taken) ∧
        (w.getLsbD 0 = true → s.pwr.woke = true → Gives (.pwrDdrResume m w) s fun t => t.pwr = { s.pwr with woke := false } ∧
          t.fld F.DDR_GCTL_READY = 1 ∧ t.fld F.DDR_TOP_GIB = usableGib (s.fld (F.DDR_CFG_DENSITY 0)) ∧ t.fld F.PWR_DDR_RESUME_DONE = 1 ∧
          t.fld F.PWR_DDR_RESUME_GO = 0 ∧ (∀ c, c < 8 → t.fld (F.DDR_STATUS_STATE c) = 3 ∧ t.fld (F.DDR_STATUS_POINT c) = 3) ∧
          t = { s with regs := t.regs, pwr := t.pwr, ddr := t.ddr, resp := .ok })) ∧
      (∀ (m : Mst) (w : Word), s.MayWrite m R.KEEP_WDOG_KICK → exec (.keepWdogKick m w) s = .next
        { s with pwr := { s.pwr with kwLoad := if w.getLsbD 0 then s.time.clk else s.pwr.kwLoad }, resp := .ok }) ∧
      (∀ (m : Mst) (w : Word), s.MayWrite m R.KEEP_FUSE_BURN →
        let more := s.pwr.fuses < s.fld F.KEEP_BOOT_VER_VERSION ∧ s.pwr.fuses < 32
        (w.getLsbD 0 = false → exec (.keepFuseBurn m w) s = .next s.taken) ∧
        (w.getLsbD 0 = true → more → exec (.keepFuseBurn m w) s = .next { s with pwr := { s.pwr with fuses := s.pwr.fuses + 1 }, resp := .ok }) ∧
        (w.getLsbD 0 = true → ¬more → exec (.keepFuseBurn m w) s = .next (s.orFld F.KEEP_ERR_ERR 2).taken)) ∧
      (∀ (m : Mst) (w : Word), s.MayWrite m R.KEEP_APP_RELEASE →
        let set := bits w.toNat 7 0
        let free := s.bit F.FG_LOCK_LOCK = true ∧ s.bit F.DDR_GCTL_READY = true
        let entry := BitVec.ofNat 64 (s.fld F.KEEP_APP_ENTRY_LO_ADDR * 4 + s.fld F.KEEP_APP_ENTRY_HI_ADDR * 2 ^ 32)
        (set = 0 → exec (.keepAppRelease m w) s = .next s.taken) ∧
        (set ≠ 0 → ¬free → exec (.keepAppRelease m w) s = .next (s.orFld F.KEEP_ERR_ERR 1).taken) ∧
        (set ≠ 0 → free → Gives (.keepAppRelease m w) s fun t => t.regs = (s.written R.KEEP_APP_RELEASE w.toNat).regs ∧
          (∀ c, t.core c = if c < 8 ∧ w.getLsbD c = true ∧ (s.core c).run = .held then
            { s.core c with run := .running, pc := entry, wdLoad := s.time.clk } else s.core c) ∧
          t = { s with regs := t.regs, cores := t.cores, resp := .ok }))) ∧
    (∀ (src : Fin 3) (role : BitVec 2) (ok0 ok1 : Bool),
      let pins := if src = 2 then role.toNat else s.pwr.rolePins
      let wakes := s.pwr.phase = .retain ∧ s.bitAt F.PWR_WAKE_EN src = true ∧ (src = 2 → pins ≠ 3 ∧ pins ≠ 0) ∧
        (src = 1 → s.fld F.PWR_WAKE_TIMER_SEC ≠ 0)
      let kept (a : Nat) : Prop := a < 0x1000000000 ∨ (0x4100000000 ≤ a ∧ a < 0x4200000000)
      (¬wakes → exec (.retainWake src role ok0 ok1) s = .next s) ∧
      (wakes → Gives (.retainWake src role ok0 ok1) s fun t => t.pwr.phase = .run ∧ t.pwr.woke = true ∧ t.pwr.vid = 3 ∧ t.fld F.PWR_DVFS_CURRENT = 3 ∧
        t.fld F.PWR_DVFS_TARGET = 3 ∧ t.fld F.PWR_WAKE_CAUSE = src.val + 1 ∧ t.reg R.KEEP_CAUSE = BitVec.ofNat 32 (causeWord 4 1 0) ∧
        t.fld F.STEP_STATUS_PINS = pins % 4 ∧ t.time.now = 0 ∧ t.gpio = s.gpio ∧ t.reg R.MGMT_GPIO_IN = s.gpio ∧
        (∀ c, c < 8 → t.fld (F.DDR_STATUS_STATE c) = 0) ∧
        (∀ len entry dig, s.pwr.warm = some (len, entry, dig) → len ≤ 0x100000 → sha256 (s.bytes 0x4100000000 len) = dig →
          t.core 12 = { CoreSt.reset 12 with pc := BitVec.ofNat 64 (0x4100000000 + entry) } ∧
          (∀ a, kept a → t.byte a = s.byte a) ∧ (∀ a, ¬kept a → ¬(0x4200000000 ≤ a ∧ a < 0x4300000000) → t.byte a = 0))))

/-! ### Management: boot flash, test access port, I²C, UARTs and GPIOs -/

/-- R527: GO starts a program or an erase unless it would touch protected offsets, reach beyond the window, or cross a page; at its end the flash
holds what the operation makes of it, and nothing else of the flash changes; 500 ms after its start it has failed. A read of the
execute-in-place window that waited is then performed.
The model's readings in it: log entry 22. -/
def Obligations.BootFlash : Prop :=
  ∀ (s : State), s.pwr.phase = .run →
    let ends (t : State) : Prop := t.pwr = { s.pwr with xop := none } ∧ t.fld F.MGMT_XSPI_CMD_GO = 0 ∧ t.fld F.MGMT_XSPI_STAT_BUSY = 0
    let at' (t : State) (x : Nat) : Byte := Tbl.get (fun _ => 0xFF) t.flash x
    (∀ (m : Mst) (w : Word), s.MayWrite m R.MGMT_XSPI_CMD → ∀ i ∈ [Instr.xspiProgram m w, .xspiErase4k m w, .xspiErase64k m w],
      let p := s.written R.MGMT_XSPI_CMD w.toNat
      let op := bits w.toNat 17 16
      let len := bits w.toNat 8 0
      let off := s.fld F.MGMT_XSPI_ADDR_OFF
      let kind := if op = 3 then 0 else op
      let data := ((List.range 64).flatMap (fun k => leBytes 4 (s.reg (R.MGMT_XSPI_BUF k)).toNat)).take (if len ≤ 256 then len else 0)
      let lo := if kind = 1 then off / 4096 * 4096 else if kind = 2 then off / 65536 * 65536 else off
      let n := if kind = 1 then 4096 else if kind = 2 then 65536 else data.length
      let wrong := lo < s.fld F.MGMT_XSPI_PROT_TOP * 4096 ∨ s.xspiSize < lo + n ∨ (kind = 0 ∧ 256 < off % 256 + n)
      ((w.getLsbD 31 = false ∨ s.pwr.xop.isSome = true) → exec i s = .next p.taken) ∧
      (w.getLsbD 31 = true → s.pwr.xop = none → wrong →
        exec i s = .next (p.setFlds [(F.MGMT_XSPI_CMD_GO, 0), (F.MGMT_XSPI_STAT_REFUSED, 1)]).taken) ∧
      (w.getLsbD 31 = true → s.pwr.xop = none → ¬wrong → exec i s = .next (State.taken
        { p.setFld F.MGMT_XSPI_STAT_BUSY 1 with pwr := { s.pwr with xop := some ⟨kind, off, data, s.time.clk⟩ } }))) ∧
    (s.pwr.xop = none → exec .xspiTimeout s = .next s ∧ ∀ e, exec (.xspiOpDone e) s = .next s) ∧
    (∀ o, s.pwr.xop = some o →
      let lo := o.area.1
      let n := o.area.2
      let outside (t : State) : Prop := ∀ x, ¬(lo ≤ x ∧ x < lo + n) → at' t x = at' s x
      Gives (.xspiOpDone false) s (fun t => ends t ∧ t.fld F.MGMT_XSPI_STAT_DONE = 1 ∧ outside t ∧ t = { s with regs := t.regs, flash := t.flash, pwr := t.pwr } ∧
        (o.kind = 0 → ∀ k, k < o.data.length → at' t (lo + k) = at' s (lo + k) &&& o.data.getD k 0) ∧
        (o.kind ≠ 0 → ∀ k, k < n → (o.kind = 1 ∨ o.kind = 2) → at' t (lo + k) = 0xFF)) ∧
      Gives (.xspiOpDone true) s (fun t => ends t ∧ t.fld F.MGMT_XSPI_STAT_ERR = 1 ∧ outside t ∧ t = { s with regs := t.regs, flash := t.flash, pwr := t.pwr }) ∧
      Gives .xspiTimeout s (fun t => ends t ∧ t.fld F.MGMT_XSPI_STAT_ERR = 1 ∧ outside t ∧ t.time.clk = max s.time.clk (o.clk + 250000000) ∧
        t = { s with regs := t.regs, flash := t.flash, pwr := t.pwr, time := t.time, tests := t.tests, cores := t.cores })) ∧
    (∀ (m : Mst), m.toNat < 13 →
      let c := m.toNat
      let x := s.core c
      let y : CoreSt := { x with xip := none, run := if x.run = .xip then .running else x.run }
      let stopped := isT c = false ∧ x.run = .held
      ((x.xip = none ∨ s.pwr.xop.isSome = true) → exec (.xipReadResume m) s = .next s) ∧
      (∀ l, x.xip = some l → s.region l.addr = .xspi → s.pwr.xop = none → stopped → exec (.xipReadResume m) s = .next (s.setCore c { x with xip := none })) ∧
      (∀ l, x.xip = some l → l.data = none → s.pwr.xop = none → ¬stopped → l.width ∈ [1, 2, 4, 8, 32] → l.addr % l.width = 0 → s.regionN l.addr l.width = .xspi →
        s.NoneWaits c l.addr l.width →
        let z := y.loaded l.rd l.width l.signed (Tbl.getN (fun _ => 0xFF) s.flash (l.addr - 0x6000000000) l.width)
        exec (.xipReadResume m) s = .next (if l.moved then s.jumped c z x.pc else s.ran c z)))

/-- R15, R543 to R545, R549: scans of the boundary register shift out what its 312 cells sample and keep what was shifted in, which drives the
balls in EXTEST; a GPIO's cells show what the device drives and whether it does, and the level on the ball; IDCODE reads the
identification word; DEBUG selects the access register, whose update starts one access as master 0x7F and whose capture gives its outcome;
an access of size 3, a misaligned one, and one while the core domain does not run, report an error; TRST_N resets the port and the debug
master, five clocks with TMS high the port alone. Before the rails are good and in DEEP the port is dead.
The model's readings in it: log entries 38, 39 and 73. -/
def Obligations.TestAccessPort : Prop :=
  ∀ (s : State),
    let live := s.pwr.phase ≠ .rails ∧ s.pwr.phase ≠ .deep
    let acts (i : Instr) (t : State) : Prop := exec i s = .next t
    (¬live → ∀ (l b : BitVec 312) (code : Byte) (r : Bool),
      ∀ i ∈ [Instr.extest l b, .samplePreload l b, .idcode, .debug, .bypass code, .tapReset r, .debugAccess l, .debugAccessDone], acts i s) ∧
    (live →
      (∀ l b : BitVec 312,
        let v := s.boundaryCapture l.toNat
        acts (.extest l b) { s with tap := { s.tap with ir := 0, bsr := b.toNat }, resp := .bytes (leBytes 39 v) } ∧
        acts (.samplePreload l b) { s with tap := { s.tap with ir := 1, bsr := b.toNat }, resp := .bytes (leBytes 39 v) } ∧
        ∀ k c, boundaryCells[k]? = some c → v.testBit k = s.sampled c (l.getLsbD k)) ∧
      boundaryCells.length = 312 ∧
      (∀ (g : Fin 32) (x : Bool),
        let oe := (s.reg R.MGMT_GPIO_OE).getLsbD g
        let ball := Ball.gpio g.val
        (s.pwr.phase = .run → s.sampled (ball, .control) x = oe ∧ (oe = true → s.sampled (ball, .output) x = (s.reg R.MGMT_GPIO_OUT).getLsbD g)) ∧
        (s.tap.ir = 0 → s.onBall ball = some (if cellBit s.tap.bsr (ball, .control) then levelOf (cellBit s.tap.bsr (ball, .output)) else .open)) ∧
        (s.tap.ir ≠ 0 → s.pwr.phase = .run → s.sampled (ball, .input) x = if oe then (s.reg R.MGMT_GPIO_OUT).getLsbD g else s.gpio.getLsbD g)) ∧
      acts .idcode { s with tap := { s.tap with ir := 2 }, resp := .value ((4 * (s.fld F.SYS_DEVICE_ID_MAJOR - 1) + s.fld F.SYS_DEVICE_ID_MINOR) % 16 *
        2 ^ 28 + 0x3296 * 2 ^ 12 + 0x2B7 * 2 + 1) } ∧
      acts .debug { s with tap := { s.tap with ir := 0x20 }, resp := .bytes (leBytes 39 s.tap.out) } ∧
      (∀ code : Byte, code ∉ [0x00, 0x01, 0x02, 0x20] → acts (.bypass code) { s with tap := { s.tap with ir := code.toNat, bypass := false } }) ∧
      acts (.tapReset false) { s with tap := { s.tap with ir := 2 } } ∧
      acts (.tapReset true) { s with tap := ⟨2, 0, false, none, 0⟩ } ∧
      (∀ dr : BitVec 312, (s.tap.ir ≠ 0x20 ∨ s.tap.req.isSome = true → acts (.debugAccess dr) s) ∧
        (s.tap.ir = 0x20 → s.tap.req = none →
          acts (.debugAccess dr) { s with tap := { s.tap with req := some (dr.toNat % 2 ^ 308), out := 0 } })) ∧
      (s.tap.req = none → acts .debugAccessDone s) ∧
      (∀ r, s.tap.req = some r →
        let a := r / 2 ^ 256 % 2 ^ 48
        let size := r / 2 ^ 304 % 4
        let n := if size = 0 then 4 else if size = 1 then 8 else 32
        let d := leBytes n (r % 2 ^ 256)
        let write := r / 2 ^ 306 % 2 = 1
        let waits := s.waits (s.region a) = true ∧ ¬write
        let answers (u : State) (out : Nat) : Prop :=
          acts .debugAccessDone { u with tap := { s.tap with req := none, out := 2 ^ 308 + out }, resp := .bytes (leBytes 39 (2 ^ 308 + out)) }
        (s.pwr.phase ≠ .run → answers s (2 ^ 309)) ∧
        (s.pwr.phase = .run → waits → acts .debugAccessDone s) ∧
        (s.pwr.phase = .run → ¬waits → (size = 3 ∨ a % n ≠ 0) → answers s (2 ^ 309)) ∧
        (s.pwr.phase = .run → ¬waits → size ≠ 3 → a % n = 0 →
          (s.region a = .reg → size ≠ 0 → answers s (2 ^ 309)) ∧
          (s.region a ≠ .reg → write →
            let w := s.write 0x7F a d false false
            answers w.1 (match w.2 with | .done => 0 | .bus => 2 ^ 309 | .refused => 2 ^ 311)) ∧
          (s.region a ≠ .reg → ¬write → s.regionN a n = .none → answers s (2 ^ 309)) ∧
          ((s.regionN a n).sram = true → ¬write → (unitsOf (s.region a) a n).all (fun u => s.delta u == 0) = true → answers s (leNat (s.bytes a n))) ∧
          (s.regionN a n = .xspi → ¬write → answers s (leNat (Tbl.getN (fun _ => 0xFF) s.flash (a - 0x6000000000) n)))))) ∧
    (∀ dr : BitVec 312, live → s.pwr.phase = .run → s.tap.req = none → s.tap.ir = 0x20 → s.region (dr.toNat / 2 ^ 256 % 2 ^ 48) = .reg →
      dr.toNat / 2 ^ 304 % 4 = 0 → dr.toNat / 2 ^ 256 % 4 = 0 → dr.toNat / 2 ^ 306 % 2 = 1 →
      ∃ t, exec (.debugAccess dr) s = .next t ∧
        let w := t.regWrite 0x7F (dr.toNat / 2 ^ 256 % 2 ^ 48 - 0x5000000000) (dr.toNat % 2 ^ 32)
        Gives .debugAccessDone t fun u => u = { w.1 with tap := u.tap, resp := u.resp } ∧ u.tap.req = none ∧
          u.tap.out = (match w.2 with | .done => 2 ^ 308 | .bus => 2 ^ 308 + 2 ^ 309 | .refused => 2 ^ 308 + 2 ^ 311))

/-- R546, R548: an I²C GO makes the controller busy with a write, a write and a read behind a repeated START, a read alone or a probe, until the
transfer ends, acknowledged with the bytes read, not acknowledged, lost in arbitration or timed out; a write meanwhile is discarded; a UART queues at most 64 bytes each way, sends one in its bit times, and flags overruns, parity and framing errors;
a GPIO edge shows in MGMT_GPIO_IN where the device does not drive the ball, and is kept where it is selected.
The model's readings in it: log entry 70. -/
def Obligations.ManagementPorts : Prop :=
  ∀ (s : State) (m : Mst) (w : Word), s.pwr.phase = .run →
    (∀ k : Fin 4,
      let busy := s.bit (F.MGMT_I2C_STAT_BUSY k)
      let rlen := s.fld (F.MGMT_I2C_CTL_RLEN k)
      let p := s.written (R.MGMT_I2C_CTL k) w.toNat
      let len (v : Nat) : Nat := if v ≤ 8 then v else 0
      let wl := len (p.fld (F.MGMT_I2C_CTL_WLEN k))
      let rl := len (p.fld (F.MGMT_I2C_CTL_RLEN k))
      let dst := p.fld (F.MGMT_I2C_CTL_ADDR k)
      let sends := (leBytes 4 (s.reg (R.MGMT_I2C_WDATA_LO k)).toNat ++ leBytes 4 (s.reg (R.MGMT_I2C_WDATA_HI k)).toNat).take wl
      let items : List BusItem := (if wl = 0 ∧ rl ≠ 0 then [] else [.start, .addr dst false] ++ sends.map .write) ++
        (if rl = 0 then [] else [.start, .addr dst true] ++ List.replicate rl .read) ++ [.stop]
      let khz := if p.fld (F.MGMT_I2C_CTL_SPEED k) = 1 then 400 else if p.fld (F.MGMT_I2C_CTL_SPEED k) = 2 then 1000 else 100
      let ended (t : State) (e : Nat) : Out :=
        .next ((t.setFlds [(F.MGMT_I2C_CTL_GO k, 0), (F.MGMT_I2C_STAT_BUSY k, 0)]).orFld (F.MGMT_I2C_STAT_END k) e)
      (s.MayWrite m (R.MGMT_I2C_CTL k) → exec (.i2cTransfer m k w) s = .next
        (if busy then s else if w.getLsbD 31 then { p.setFld (F.MGMT_I2C_STAT_BUSY k) 1 with i2cs := Tbl.set (fun _ => {}) s.i2cs k.val ⟨items, khz⟩ }
          else p).taken) ∧
      (busy = false → exec (.i2cArbLost k) s = .next s ∧ exec (.i2cTimeout k) s = .next s ∧ ∀ a d, exec (.i2cTransferEnd k a d) s = .next s) ∧
      (busy = true → exec (.i2cArbLost k) s = ended s 4 ∧ exec (.i2cTimeout k) s = ended s 8 ∧ ∀ d : DWord,
        exec (.i2cTransferEnd k false d) s = ended (s.setI2c k { s.i2c k with bus := (s.i2c k).bus.take 2 ++ [.stop] }) 2 ∧
        Gives (.i2cTransferEnd k true d) s fun t => t.fld (F.MGMT_I2C_STAT_BUSY k) = 0 ∧ t.fld (F.MGMT_I2C_CTL_GO k) = 0 ∧
          t.bitAt (F.MGMT_I2C_STAT_END k) 0 = true ∧ t = { s with regs := t.regs } ∧
          s.SameRegsBut t [R.MGMT_I2C_CTL k, R.MGMT_I2C_STAT k, R.MGMT_I2C_RDATA_LO k, R.MGMT_I2C_RDATA_HI k] ∧
          let old : DWord := s.reg (R.MGMT_I2C_RDATA_HI k) ++ s.reg (R.MGMT_I2C_RDATA_LO k)
          let new : DWord := t.reg (R.MGMT_I2C_RDATA_HI k) ++ t.reg (R.MGMT_I2C_RDATA_LO k)
          ∀ b, b < 8 → new.extractLsb' (8 * b) 8 = if rlen ≤ 8 ∧ b < rlen then d.extractLsb' (8 * b) 8 else old.extractLsb' (8 * b) 8)) ∧
    (∀ u : Fin 2,
      let x := s.uart u
      let on := s.bit (F.MGMT_UART_CFG_EN u)
      let par := s.fld (F.MGMT_UART_CFG_PARITY u)
      let time := (if par = 1 ∨ par = 2 then 11 else 10) * 16 * max 1 (s.fld (F.MGMT_UART_CFG_DIV u)) * 5
      let now (t : State) (y : UartSt) : Prop := t.uart u = y ∧ t.fld (F.MGMT_UART_STAT_TXLEVEL u) = y.tx.length ∧
        t.fld (F.MGMT_UART_STAT_RXLEVEL u) = y.rx.length ∧ t.fld (F.MGMT_UART_STAT_RXREADY u) = (!y.rx.isEmpty).toNat
      (s.MayWrite m (R.MGMT_UART_TX u) →
        (64 ≤ x.tx.length → exec (.uartTxWrite m u w) s = .next (s.orFld (F.MGMT_UART_STAT_ERR u) 8).taken) ∧
        (x.tx.length < 64 → x.rx.length ≤ 64 → Gives (.uartTxWrite m u w) s fun t => t = { s with regs := t.regs, uarts := t.uarts, resp := .ok } ∧
          now t ⟨x.tx ++ [w.truncate 8], x.rx, if x.tx.isEmpty then s.time.clk else x.since⟩)) ∧
      ((x.tx = [] ∨ on = false) → exec (.uartTxByteSent u) s = .next s) ∧
      (∀ b l, x.tx = b :: l → on = true → l.length < 64 → x.rx.length ≤ 64 → Gives (.uartTxByteSent u) s fun t =>
        t.resp = .bytes [b] ∧ t.time.clk = max s.time.clk (x.since + time) ∧ now t ⟨l, x.rx, t.time.clk⟩ ∧
        t = { s with time := t.time, regs := t.regs, tests := t.tests, cores := t.cores, uarts := t.uarts, resp := t.resp }) ∧
      (∀ (b : Byte) (pe fe : Bool),
        (on = false → exec (.uartRxByte u b pe fe) s = .next s) ∧
        (on = true → 64 ≤ x.rx.length → exec (.uartRxByte u b pe fe) s = .next (s.orFld (F.MGMT_UART_STAT_ERR u) 4)) ∧
        (on = true → x.rx.length < 64 → x.tx.length ≤ 64 → Gives (.uartRxByte u b pe fe) s fun t => t = { s with regs := t.regs, uarts := t.uarts } ∧
          now t { x with rx := x.rx ++ [b] } ∧ (pe = true → par = 1 ∨ par = 2 → t.bitAt (F.MGMT_UART_STAT_ERR u) 0 = true) ∧
          (pe = false ∨ ¬(par = 1 ∨ par = 2) → t.bitAt (F.MGMT_UART_STAT_ERR u) 0 = s.bitAt (F.MGMT_UART_STAT_ERR u) 0) ∧
          (fe = true → t.bitAt (F.MGMT_UART_STAT_ERR u) 1 = true))) ∧
      (x.rx = [] → exec (.uartRxRead m u) s = .next { s with resp := .value 0 }) ∧
      (∀ b l, x.rx = b :: l → l.length < 64 → x.tx.length ≤ 64 → Gives (.uartRxRead m u) s fun t => t.resp = .value (0x100 + b.toNat) ∧
        now t { x with rx := l } ∧ t = { s with regs := t.regs, uarts := t.uarts, resp := t.resp })) ∧
    (∀ (g : Fin 32) (level : Bool),
      let oe := s.reg R.MGMT_GPIO_OE
      let out := s.reg R.MGMT_GPIO_OUT
      let cfg := (s.reg R.MGMT_GPIO_IRQ_CFG_HI ++ s.reg R.MGMT_GPIO_IRQ_CFG_LO : DWord)
      Gives (.gpioEdge g level) s fun t => t = { s with regs := t.regs, gpio := t.gpio } ∧ s.SameRegsBut t [R.MGMT_GPIO_IN, R.MGMT_GPIO_IRQ_STAT] ∧
        ∀ i, i < 32 →
          let was := (s.reg R.MGMT_GPIO_IN).getLsbD i
          let is := (t.reg R.MGMT_GPIO_IN).getLsbD i
          t.gpio.getLsbD i = (if i = g.val then level else s.gpio.getLsbD i) ∧
          is = (if oe.getLsbD i then out.getLsbD i else t.gpio.getLsbD i) ∧
          (t.reg R.MGMT_GPIO_IRQ_STAT).getLsbD i = ((s.reg R.MGMT_GPIO_IRQ_STAT).getLsbD i || (is && !was && cfg.getLsbD (2 * i)) ||
            (!is && was && cfg.getLsbD (2 * i + 1))))

/-! ### The machine as a whole -/

/-- A step runs the command at the front of the queue on the state with the rest of the queue. Every command of every constructor of Instr, in
every state and with every operand, answers a next state: none faults and none is refused. -/
def Obligations.StepRunsFrontCommand : Prop :=
  (∀ (s : State) (c : Instr) (rest : List Instr), step { s with pending := c :: rest } = exec c { s with pending := rest }) ∧
  ∀ (i : Instr) (s : State), ∃ t, exec i s = .next t

/-- R1, R6, R54, R80, R81, R416, R516: after reset the Keeper core runs the boot ROM from 0x5F_0000_0000 in the mode its status gives, every
other core is held, the general registers and predicates are zero, memory reads zero but for the ARMED and RESET records, which stand at the
start of the Logbook with SEQ 1 and 2, and every register but the six that the Logbook and the pins have changed holds its reset value. The
time, 0, the pins, which read ALONE, and the release just passed are the model's (DESIGN CHOICE, log entry 2).
The model's readings in it: log entry 8. -/
def Obligations.ResetState : Prop :=
  let s := State.reset
  s.pending = [] ∧ s.pwr.phase = .run ∧ s.time.now = 0 ∧ (∀ c, c < 12 → (s.core c).run = .held ∧ (s.core c).status = 8) ∧
    (s.core 12).run = .running ∧ (s.core 12).status = 0x18 ∧ (s.core 12).pc = 0x5F00000000 ∧ s.Executes 12 0 ∧
    (∀ c i, (s.core c).rg i = 0 ∧ (s.core c).estatus = 0 ∧ (s.core c).evec = 0) ∧ (∀ c i, 1 ≤ i → i < 8 → (s.core c).pr i = false) ∧
    (∀ o, o ∉ [R.LOG_WCOUNT_LO, R.LOG_NEXT_SEQ_LO, R.LOG_TAIL, R.LOG_KEEP_END, R.STEP_STATUS, R.TOUCH_STATUS] → s.reg o = rstOf o) ∧
    (∀ o, s.lreg o = rstOf o) ∧ s.role = 0 ∧ s.fld F.STEP_STATUS_PINS = 3 ∧ s.fld F.STEP_STATUS_HEALTH = 1 ∧
    s.reg64 R.LOG_NEXT_SEQ_LO R.LOG_NEXT_SEQ_HI = 3 ∧ s.fld F.LOG_TAIL_VALID = 1 ∧ 16 * s.fld F.LOG_TAIL_OFF = 48 ∧ 16 * s.fld F.LOG_KEEP_END_OFF = 96 ∧
    s.bytes 0x4200000000 48 = leBytes 8 1 ++ leBytes 16 0 ++ leBytes 2 1 ++ [1, 0xFF] ++ leBytes 4 1 ++ leBytes 8 0 ++ [8] ++ leBytes 7 0 ∧
    s.bytes 0x4200000030 48 = leBytes 8 2 ++ leBytes 16 0 ++ leBytes 2 2 ++ [1, 0xFF] ++ leBytes 4 1 ++ leBytes 16 0 ∧
    (∀ a, ¬(0x4200000000 ≤ a ∧ a < 0x4200000060) → s.byte a = 0) ∧ (∀ u, s.delta u = 0) ∧ Memory.wf s.mem = true

/-- The memory keeps its canonical form: addresses rise strictly and no listed byte is zero, before and after every step.
The model's readings in it: log entry 8. -/
def Obligations.MemoryStaysCanonical : Prop :=
  ∀ (s t : State), Memory.wf s.mem = true → step s = .next t → Memory.wf t.mem = true

/-- R2, R3, R399, R549: a register write to an address with no register is a bus error; each field that its guard turns away keeps its value, the
write counts as refused exactly when one of them would have changed or started, and raises one notice; what is accepted goes to the register's
function, and a write of APPLY completes later. For the freshness guard's registers, whose writes start nothing, the whole effect is stated:
the other fields take the value their access type gives; FG_LOCK cannot be cleared by a write.
The model's readings in it: log entries 34 and 35. -/
def Obligations.RegWriteAccessTypes : Prop :=
  ∀ (s : State) (m : Mst) (off : BitVec 24) (w : Word), s.pwr.phase = .run →
    let o := off.toNat
    let old := (s.reg o).toNat
    let new := w.toNat
    let repairs := m.toNat = 0x7F ∧ s.bit F.MPU_MAINT_ACTIVE = true
    let away (f : RegField) : Prop := s.turnsAway m.toNat o f = true ∧ ¬repairs
    let x := exec (.regWrite m off w) s
    ((s.inboxAt o ≠ none ∨ rowAt o = none) → x = .next { s with resp := .busError }) ∧
    (∀ r, s.inboxAt o = none → rowAt o = some r →
      let a := s.accept m.toNat o new (writeFn m.toNat o)
      let u := writeFn m.toNat o a
      x = .next { u with resp := if s.applies.length < u.applies.length then .stalled else if a.refused then .refused else .ok } ∧
      (a.refused = true ↔ ∃ f ∈ r.fields, away f ∧ wouldAct (writeFn m.toNat o) s o f new = true)) ∧
    (∀ r, o / 0x10000 = 0x70 → o ≠ R.FG_LOCK → rowAt o = some r →
      let refused := ∃ f ∈ r.fields, away f ∧ bits old f.hi f.lo ≠ bits new f.hi f.lo
      Gives (.regWrite m off w) s fun t =>
        (∀ f ∈ r.fields,
          let was := bits old f.hi f.lo
          let given := bits new f.hi f.lo
          let is := bits (t.reg o).toNat f.hi f.lo
          (away f → is = was) ∧
          (¬away f → match f.acc with
            | .ro => is = was
            | .rw | .rws => is = given
            | .wo => is = 0
            | .w1c => is = was - (was &&& given)
            | .w1s => is = (was ||| given))) ∧
        (∀ f ∈ r.fields, f.guard = .lock → (s.turnsAway m.toNat o f = true ↔ s.bit F.FG_LOCK_LOCK = true ∧ f.acc ≠ .ro)) ∧
        (¬refused → ¬repairs → t = { s with regs := t.regs, resp := .ok } ∧ s.SameRegsBut t [o]) ∧
        (refused → (∀ p, p / 0x10000 ≠ 6 → p / 0x10000 ≠ 7 → p / 0x10000 ≠ 9 → p ≠ o → t.reg p = s.reg p) ∧
          t.fld F.MPU_NOTICE_CNT_COUNT = min (2 ^ 32 - 1) (s.fld F.MPU_NOTICE_CNT_COUNT + 1) ∧ t.bitAt F.MPU_ERR_KIND 4 = true ∧
          (s.bit F.MPU_NOTICE_HI_VALID = false → t.fld F.MPU_NOTICE_HI_VALID = 1 ∧ t.fld F.MPU_NOTICE_HI_KIND = 4 ∧
            t.fld F.MPU_NOTICE_HI_MASTER = m.toNat ∧ t.fld F.MPU_NOTICE_LO_ADDR = o ∧ t.fld F.MPU_NOTICE_HI_ADDR = 0x50) ∧
          t = { s with regs := t.regs, mem := t.mem, log := t.log, resp := .refused })) ∧
    (o = R.FG_LOCK →
      let lock := s.bit F.FG_LOCK_LOCK
      Gives (.regWrite m off w) s fun t =>
        ((m.toNat = 12 ∨ repairs) → t.bit F.FG_LOCK_LOCK = (lock || w.getLsbD 0) ∧ t.resp = .ok) ∧
        (m.toNat ≠ 12 → ¬repairs → t.bit F.FG_LOCK_LOCK = lock ∧ t.resp = if w.getLsbD 0 && !lock then .refused else .ok))

/-- R362 to R364: syndromes of an error of value v in one symbol are answered as that error corrected, whatever the symbol; no error reads as
clean, and check bytes that differ by 0xA5 each as poison, whose S0 is zero.
The model's readings in it: log entry 9. -/
def Obligations.EccCorrectsOneSymbol : Prop :=
  (∀ (delta e v : Nat), e < 36 → 0 < v → v < 256 → (∀ j, j < 4 → synd delta j = gfMul v (gfPow (e * j))) →
    dramEcc delta = .corrected (35 - e) v) ∧
  (∀ v, 0 < v → v < 256 → ∀ k, k < 4 → dramEcc (v * 256 ^ k) = .corrected (32 + k) v) ∧
  dramEcc 0 = .clean ∧ (∀ j, synd 0 j = 0) ∧ dramEcc 0xA5A5A5A5 = .poison ∧ synd 0xA5A5A5A5 0 = 0 ∧
  (∀ j, 1 ≤ j → j < 4 → synd 0xA5A5A5A5 j = gfMul 0xA5 (1 ^^^ gfPow j ^^^ gfPow (2 * j) ^^^ gfPow (3 * j))) ∧
  (∀ (s : State) (m : Mst) (a : Nat), a % 32 = 0 → s.regionN a 32 = .dram → s.retired a = false → s.fc.stage ≠ .change →
    let r := s.read m.toNat a 32
    let seen := s.bytes a 32
    (∀ i v, dramEcc (s.delta a) = .corrected i v → r.bad = List.replicate 32 false ∧ r.bus = false ∧ r.st.bitAt F.ECC_ERR_ERR 0 = true ∧
      r.data = if i < 32 then seen.set i (seen.getD i 0 ^^^ BitVec.ofNat 8 v) else seen) ∧
    ((dramEcc (s.delta a) = .poison ∨ dramEcc (s.delta a) = .bad) → r.bad = List.replicate 32 true ∧ r.bus = false ∧
      r.st.bitAt F.ECC_ERR_ERR 1 = true) ∧
    r.st.mem = s.mem ∧ r.st.chk = s.chk)
end

