-- ==== Sys2Proof/Laws/Bits.lean ====
section
/-!
SUPPORT. Laws of bit fields and of little-endian bytes.
-/
namespace Sys2Proof.Machine

theorem bits_lt (v hi lo : Nat) : bits v hi lo < 2 ^ (hi + 1 - lo) := Nat.mod_lt _ (Nat.two_pow_pos _)

theorem bits_testBit (v hi lo i : Nat) : (bits v hi lo).testBit i = (decide (i < hi + 1 - lo) && v.testBit (lo + i)) := by
  rw [bits, Nat.testBit_mod_two_pow, Nat.testBit_div_two_pow, Nat.add_comm lo i]

/-- The bits of a word with a field replaced: those of the new value inside the field, the old ones outside. -/
theorem putBits_testBit (v hi lo x i : Nat) (h : lo ≤ hi) :
    (putBits v hi lo x).testBit i = if lo ≤ i ∧ i ≤ hi then x.testBit (i - lo) else v.testBit i := by
  have e : putBits v hi lo x = 2 ^ (hi + 1) * (v / 2 ^ (hi + 1)) + (2 ^ lo * (x % 2 ^ (hi + 1 - lo)) + v % 2 ^ lo) := by
    rw [putBits, Nat.mul_comm (v / 2 ^ (hi + 1)), Nat.mul_comm (x % _), Nat.add_assoc]
  have hlo : v % 2 ^ lo < 2 ^ lo := Nat.mod_lt _ (Nat.two_pow_pos _)
  have hx : x % 2 ^ (hi + 1 - lo) < 2 ^ (hi + 1 - lo) := Nat.mod_lt _ (Nat.two_pow_pos _)
  have hmid : 2 ^ lo * (x % 2 ^ (hi + 1 - lo)) + v % 2 ^ lo < 2 ^ (hi + 1) := by
    have : 2 ^ (hi + 1) = 2 ^ lo * 2 ^ (hi + 1 - lo) := by rw [← Nat.pow_add]; congr 1; omega
    rw [this]
    calc _ < 2 ^ lo * (x % 2 ^ (hi + 1 - lo)) + 2 ^ lo := by omega
      _ = 2 ^ lo * (x % 2 ^ (hi + 1 - lo) + 1) := by ring
      _ ≤ _ := Nat.mul_le_mul_left _ hx
  rw [e, Nat.testBit_two_pow_mul_add _ hmid, Nat.testBit_two_pow_mul_add _ hlo, Nat.testBit_mod_two_pow, Nat.testBit_mod_two_pow,
    Nat.testBit_div_two_pow]
  by_cases h1 : i < hi + 1
  · by_cases h2 : i < lo
    · have h3 : ¬ (lo ≤ i ∧ i ≤ hi) := by omega
      rw [if_pos h1, if_pos h2, if_neg h3]
      simp [h2]
    · have h3 : i - lo < hi + 1 - lo := by omega
      have h4 : lo ≤ i := by omega
      have h5 : i ≤ hi := by omega
      simp [h1, h2, h3, h4, h5]
  · have h5 : ¬ i ≤ hi := by omega
    simp [h1, h5]
    congr 1
    omega

/-- A field just written reads as what was written, cut to the field's width. -/
theorem bits_putBits_same (v hi lo x : Nat) (h : lo ≤ hi) : bits (putBits v hi lo x) hi lo = x % 2 ^ (hi + 1 - lo) := by
  apply Nat.eq_of_testBit_eq
  intro i
  rw [bits_testBit, putBits_testBit _ _ _ _ _ h, Nat.testBit_mod_two_pow]
  by_cases hi' : i < hi + 1 - lo
  · have : lo ≤ lo + i ∧ lo + i ≤ hi := by omega
    simp [hi', this]
  · simp [hi']

/-- A field apart from the one written keeps its value. -/
theorem bits_putBits_apart (v hi lo x a b : Nat) (h : lo ≤ hi) (hab : b ≤ a) (hd : hi < b ∨ a < lo) :
    bits (putBits v hi lo x) a b = bits v a b := by
  apply Nat.eq_of_testBit_eq
  intro i
  rw [bits_testBit, bits_testBit, putBits_testBit _ _ _ _ _ h]
  by_cases hi' : i < a + 1 - b
  · have : ¬ (lo ≤ b + i ∧ b + i ≤ hi) := by omega
    simp [this]
  · simp [hi']

/-- A word with a field replaced stays a word. -/
theorem putBits_lt (v hi lo x n : Nat) (h : lo ≤ hi) (hn : hi < n) (hv : v < 2 ^ n) : putBits v hi lo x < 2 ^ n := by
  apply Nat.lt_pow_two_of_testBit
  intro i hi'
  rw [putBits_testBit _ _ _ _ _ h, if_neg (by omega)]
  exact Nat.testBit_lt_two_pow (Nat.lt_of_lt_of_le hv (Nat.pow_le_pow_right (by omega) hi'))

theorem bits_mod (v n hi lo : Nat) (h : hi < n) : bits (v % 2 ^ n) hi lo = bits v hi lo := by
  apply Nat.eq_of_testBit_eq
  intro i
  rw [bits_testBit, bits_testBit, Nat.testBit_mod_two_pow]
  by_cases hi' : i < hi + 1 - lo
  · have : lo + i < n := by omega
    simp [this]
  · simp [hi']

/-- A field of full width is the word. -/
theorem bits_full (v n : Nat) (h : v < 2 ^ (n + 1)) : bits v n 0 = v := by
  simp [bits, Nat.mod_eq_of_lt h]

@[simp] theorem leBytes_length (n v : Nat) : (leBytes n v).length = n := by
  induction n generalizing v with
  | zero => rfl
  | succ n ih => simp [leBytes, ih]

/-- The bytes of a number, read back, are the number cut to their width. -/
theorem leNat_leBytes (n v : Nat) : leNat (leBytes n v) = v % 256 ^ n := by
  induction n generalizing v with
  | zero => simp [leBytes, leNat, Nat.mod_one]
  | succ n ih =>
    rw [leBytes, leNat, ih, BitVec.toNat_ofNat, show (2 : Nat) ^ 8 = 256 from rfl, Nat.pow_succ, Nat.mul_comm (256 ^ n),
      Nat.mod_mul]

theorem leNat_lt (d : List Byte) : leNat d < 256 ^ d.length := by
  induction d with
  | nil => simp [leNat]
  | cons b d ih =>
    have := b.isLt
    simp only [leNat, List.length_cons, Nat.pow_succ]
    omega

@[simp] theorem span_length (a n : Nat) : (span a n).length = n := by simp [span]

@[simp] theorem slice_length (d : List Byte) (o n : Nat) : (slice d o n).length = n := by
  simp only [slice, List.length_append, List.length_take, List.length_drop, List.length_replicate]
  omega

theorem overlay_length (d : List Byte) (o : Nat) (x : List Byte) (h : o + x.length ≤ d.length) : (overlay d o x).length = d.length := by
  simp only [overlay, List.length_append, slice_length, List.length_drop]
  omega

end Sys2Proof.Machine
end

