-- ==== Sys2Proof/Laws/Tables.lean ====
section
/-!
SUPPORT. Laws of the sparse tables: reading after writing, and the canonical form every write keeps.
-/
namespace Sys2Proof.Machine

variable {α : Type}

theorem Tbl.get_del (d : Nat → α) (t : Tbl α) (k j : Nat) :
    Tbl.get d (Tbl.del t k) j = if j = k then d j else Tbl.get d t j := by
  induction t with
  | nil => simp [Tbl.del, Tbl.get]
  | cons e t ih =>
    obtain ⟨a, v⟩ := e
    by_cases h : a = k
    · subst h
      have : Tbl.del ((a, v) :: t) a = Tbl.del t a := by simp [Tbl.del]
      rw [this, ih]
      by_cases hj : j = a
      · simp [hj]
      · simp [hj, Tbl.get, Ne.symm hj]
    · have : Tbl.del ((a, v) :: t) k = (a, v) :: Tbl.del t k := by simp [Tbl.del, h]
      rw [this]
      by_cases hj : a = j
      · subst hj; simp [Tbl.get, h]
      · simp [Tbl.get, hj, ih]

theorem Tbl.mem_del {t : Tbl α} {k : Nat} {e : Nat × α} : e ∈ Tbl.del t k ↔ e ∈ t ∧ e.1 ≠ k := by
  simp [Tbl.del]

theorem Tbl.get_ins (d : Nat → α) (t : Tbl α) (k j : Nat) (v : α) (hk : ∀ e ∈ t, e.1 ≠ k) :
    Tbl.get d (Tbl.ins t k v) j = if j = k then v else Tbl.get d t j := by
  induction t with
  | nil =>
    by_cases h : j = k
    · simp [Tbl.ins, Tbl.get, h]
    · simp [Tbl.ins, Tbl.get, h, Ne.symm h]
  | cons e t ih =>
    obtain ⟨a, w⟩ := e
    have ha : a ≠ k := hk (a, w) (by simp)
    have ht : ∀ e ∈ t, e.1 ≠ k := fun e he => hk e (by simp [he])
    by_cases hlt : k < a
    · by_cases h : j = k
      · simp [Tbl.ins, hlt, Tbl.get, h]
      · simp [Tbl.ins, hlt, Tbl.get, h, Ne.symm h]
    · by_cases haj : a = j
      · subst haj; simp [Tbl.ins, hlt, Tbl.get, ha]
      · simp [Tbl.ins, hlt, Tbl.get, haj, ih ht]

/-- What a table holds after a write. -/
theorem Tbl.get_set [DecidableEq α] (d : Nat → α) (t : Tbl α) (k j : Nat) (v : α) :
    Tbl.get d (Tbl.set d t k v) j = if j = k then v else Tbl.get d t j := by
  unfold Tbl.set
  split
  · rename_i h
    rw [Tbl.get_del]
    by_cases hj : j = k
    · simp [hj, h]
    · simp [hj]
  · rw [Tbl.get_ins _ _ _ _ _ (fun e he => (Tbl.mem_del.mp he).2), Tbl.get_del]
    by_cases hj : j = k <;> simp [hj]

@[simp] theorem Tbl.get_set_same [DecidableEq α] (d : Nat → α) (t : Tbl α) (k : Nat) (v : α) :
    Tbl.get d (Tbl.set d t k v) k = v := by simp [Tbl.get_set]

theorem Tbl.get_set_ne [DecidableEq α] (d : Nat → α) (t : Tbl α) {k j : Nat} (v : α) (h : j ≠ k) :
    Tbl.get d (Tbl.set d t k v) j = Tbl.get d t j := by simp [Tbl.get_set, h]

theorem Tbl.del_del (t : Tbl α) (k : Nat) : Tbl.del (Tbl.del t k) k = Tbl.del t k := by
  simp [Tbl.del, List.filter_filter]

theorem Tbl.del_ins (t : Tbl α) (k : Nat) (v : α) (hk : ∀ e ∈ t, e.1 ≠ k) : Tbl.del (Tbl.ins t k v) k = t := by
  induction t with
  | nil => simp [Tbl.ins, Tbl.del]
  | cons e t ih =>
    obtain ⟨a, w⟩ := e
    have ha : a ≠ k := hk (a, w) (by simp)
    have ht : ∀ e ∈ t, e.1 ≠ k := fun e he => hk e (by simp [he])
    have hd : Tbl.del t k = t := by
      simp only [Tbl.del, List.filter_eq_self]
      intro e he
      simpa using ht e he
    by_cases hlt : k < a
    · simp only [Tbl.ins, hlt, if_true]
      simp only [Tbl.del, List.filter_cons] at hd ⊢
      simp [ha, hd]
    · have := ih ht
      simp only [Tbl.ins, hlt, if_false]
      simp only [Tbl.del, List.filter_cons] at this ⊢
      simp [ha, this]

/-- A second write to the same key replaces the first. -/
theorem Tbl.set_set [DecidableEq α] (d : Nat → α) (t : Tbl α) (k : Nat) (v w : α) :
    Tbl.set d (Tbl.set d t k v) k w = Tbl.set d t k w := by
  have h : Tbl.del (Tbl.set d t k v) k = Tbl.del t k := by
    unfold Tbl.set
    split
    · exact Tbl.del_del t k
    · exact Tbl.del_ins _ _ _ (fun e he => (Tbl.mem_del.mp he).2)
  show (if w = d k then _ else _) = _
  rw [h]
  rfl

/-! ### The canonical form -/

/-- The canonical form, said without recursion: keys strictly rising and no entry equal to the default. -/
theorem Tbl.wf_iff [DecidableEq α] (d : Nat → α) (t : Tbl α) :
    Tbl.wf d t = true ↔ t.Pairwise (fun e f => e.1 < f.1) ∧ ∀ e ∈ t, e.2 ≠ d e.1 := by
  induction t with
  | nil => simp [Tbl.wf]
  | cons e t ih =>
    obtain ⟨a, v⟩ := e
    cases t with
    | nil => simp [Tbl.wf]
    | cons f t =>
      obtain ⟨b, w⟩ := f
      simp only [Tbl.wf, Bool.and_eq_true, decide_eq_true_eq, ih, List.pairwise_cons, List.forall_mem_cons]
      constructor
      · rintro ⟨⟨hv, hab⟩, ⟨hb, hp⟩, hw, hd⟩
        refine ⟨⟨⟨hab, fun e he => ?_⟩, hb, hp⟩, hv, hw, hd⟩
        exact Nat.lt_trans hab (hb e he)
      · rintro ⟨⟨⟨hab, -⟩, hb, hp⟩, hv, hw, hd⟩
        exact ⟨⟨hv, hab⟩, ⟨hb, hp⟩, hw, hd⟩

theorem Tbl.wf_filter [DecidableEq α] (d : Nat → α) (t : Tbl α) (p : Nat × α → Bool) (h : Tbl.wf d t = true) :
    Tbl.wf d (t.filter p) = true := by
  rw [Tbl.wf_iff] at h ⊢
  exact ⟨h.1.filter p, fun e he => h.2 e (List.mem_of_mem_filter he)⟩

theorem Tbl.wf_del [DecidableEq α] (d : Nat → α) (t : Tbl α) (k : Nat) (h : Tbl.wf d t = true) : Tbl.wf d (Tbl.del t k) = true :=
  Tbl.wf_filter d t _ h

theorem Tbl.mem_ins {t : Tbl α} {k : Nat} {v : α} {e : Nat × α} : e ∈ Tbl.ins t k v ↔ e = (k, v) ∨ e ∈ t := by
  induction t with
  | nil => simp [Tbl.ins]
  | cons f t ih =>
    obtain ⟨a, w⟩ := f
    by_cases h : k < a
    · simp [Tbl.ins, h]
    · simp only [Tbl.ins, h, if_false, List.mem_cons, ih]
      tauto

theorem Tbl.wf_ins [DecidableEq α] (d : Nat → α) (t : Tbl α) (k : Nat) (v : α) (hv : v ≠ d k) (hk : ∀ e ∈ t, e.1 ≠ k)
    (h : Tbl.wf d t = true) : Tbl.wf d (Tbl.ins t k v) = true := by
  rw [Tbl.wf_iff] at h ⊢
  obtain ⟨hp, hd⟩ := h
  refine ⟨?_, fun e he => ?_⟩
  · induction t with
    | nil => simp [Tbl.ins]
    | cons f t ih =>
      obtain ⟨a, w⟩ := f
      have ha : a ≠ k := hk (a, w) (by simp)
      rw [List.pairwise_cons] at hp
      by_cases hlt : k < a
      · rw [Tbl.ins, if_pos hlt, List.pairwise_cons, List.pairwise_cons]
        refine ⟨fun e he => ?_, hp⟩
        rcases List.mem_cons.mp he with rfl | he
        · exact hlt
        · exact Nat.lt_trans hlt (hp.1 e he)
      · rw [Tbl.ins, if_neg hlt, List.pairwise_cons]
        refine ⟨fun e he => ?_, ih (fun e he => hk e (by simp [he])) hp.2 (fun e he => hd e (by simp [he]))⟩
        rcases Tbl.mem_ins.mp he with rfl | he
        · show a < k
          omega
        · exact hp.1 e he
  · rcases Tbl.mem_ins.mp he with rfl | he
    · exact hv
    · exact hd e he

/-- A write keeps the canonical form. -/
theorem Tbl.wf_set [DecidableEq α] (d : Nat → α) (t : Tbl α) (k : Nat) (v : α) (h : Tbl.wf d t = true) :
    Tbl.wf d (Tbl.set d t k v) = true := by
  unfold Tbl.set
  split
  · exact Tbl.wf_del d t k h
  · rename_i hv
    exact Tbl.wf_ins d _ k v hv (fun e he => (Tbl.mem_del.mp he).2) (Tbl.wf_del d t k h)

theorem Tbl.wf_setN [DecidableEq α] (d : Nat → α) (vs : List α) : ∀ (t : Tbl α) (k : Nat), Tbl.wf d t = true →
    Tbl.wf d (Tbl.setN d t k vs) = true := by
  induction vs with
  | nil => intro t k h; exact h
  | cons v vs ih => intro t k h; exact ih _ _ (Tbl.wf_set d t k v h)

/-- An entry of a canonical table is what its key reads as. -/
theorem Tbl.get_eq_of_mem [DecidableEq α] (d : Nat → α) (t : Tbl α) (h : Tbl.wf d t = true) {e : Nat × α} (he : e ∈ t) :
    Tbl.get d t e.1 = e.2 := by
  rw [Tbl.wf_iff] at h
  obtain ⟨hp, -⟩ := h
  induction t with
  | nil => simp at he
  | cons f t ih =>
    obtain ⟨a, v⟩ := f
    rw [List.pairwise_cons] at hp
    rcases List.mem_cons.mp he with rfl | he
    · simp [Tbl.get]
    · have : a ≠ e.1 := Nat.ne_of_lt (hp.1 e he)
      simp [Tbl.get, this, ih he hp.2]

/-- A read of several keys, and a write of several values. -/
theorem Tbl.get_setN [DecidableEq α] (d : Nat → α) (vs : List α) : ∀ (t : Tbl α) (k j : Nat),
    Tbl.get d (Tbl.setN d t k vs) j = if k ≤ j ∧ j < k + vs.length then (vs[j - k]?).getD (d j) else Tbl.get d t j := by
  induction vs with
  | nil =>
    intro t k j
    rw [Tbl.setN, if_neg]
    simp only [List.length_nil]
    omega
  | cons v vs ih =>
    intro t k j
    simp only [Tbl.setN, ih, Tbl.get_set, List.length_cons]
    by_cases h1 : j = k
    · subst h1; simp
    · by_cases h2 : k + 1 ≤ j ∧ j < k + 1 + vs.length
      · have h3 : k ≤ j ∧ j < k + (vs.length + 1) := by omega
        have h4 : j - k = (j - (k + 1)) + 1 := by omega
        rw [if_pos h2, if_pos h3, h4, List.getElem?_cons_succ]
      · have h3 : ¬ (k ≤ j ∧ j < k + (vs.length + 1)) := by omega
        rw [if_neg h2, if_neg h3, if_neg h1]

/-- Bytes outside those written keep their values. -/
theorem Tbl.get_setN_outside [DecidableEq α] (d : Nat → α) (vs : List α) (t : Tbl α) (k j : Nat) (h : j < k ∨ k + vs.length ≤ j) :
    Tbl.get d (Tbl.setN d t k vs) j = Tbl.get d t j := by
  rw [Tbl.get_setN, if_neg (by omega)]

end Sys2Proof.Machine
end

