-- ==== Sys2Proof/Laws/State.lean ====
section
/-!
SUPPORT. What each primitive update of State leaves alone, field by field, and what a register, a field, a core or a byte reads as
after a write.
-/
namespace Sys2Proof.Machine

variable (s : State)

/-! ### Fields an update leaves alone -/

@[simp] theorem setReg_live (o : Nat) (v : Word) : (s.setReg o v).live = s.live := rfl
@[simp] theorem setReg_mem (o : Nat) (v : Word) : (s.setReg o v).mem = s.mem := rfl
@[simp] theorem setReg_chk (o : Nat) (v : Word) : (s.setReg o v).chk = s.chk := rfl
@[simp] theorem setReg_flash (o : Nat) (v : Word) : (s.setReg o v).flash = s.flash := rfl
@[simp] theorem setReg_latch (o : Nat) (v : Word) : (s.setReg o v).latch = s.latch := rfl
@[simp] theorem setReg_time (o : Nat) (v : Word) : (s.setReg o v).time = s.time := rfl
@[simp] theorem setReg_cores (o : Nat) (v : Word) : (s.setReg o v).cores = s.cores := rfl
@[simp] theorem setReg_lines (o : Nat) (v : Word) : (s.setReg o v).lines = s.lines := rfl
@[simp] theorem setReg_serv (o : Nat) (v : Word) : (s.setReg o v).serv = s.serv := rfl
@[simp] theorem setReg_log (o : Nat) (v : Word) : (s.setReg o v).log = s.log := rfl
@[simp] theorem setReg_sqWait (o : Nat) (v : Word) : (s.setReg o v).sqWait = s.sqWait := rfl
@[simp] theorem setReg_sqReached (o : Nat) (v : Word) : (s.setReg o v).sqReached = s.sqReached := rfl
@[simp] theorem setReg_chambers (o : Nat) (v : Word) : (s.setReg o v).chambers = s.chambers := rfl
@[simp] theorem setReg_flips (o : Nat) (v : Word) : (s.setReg o v).flips = s.flips := rfl
@[simp] theorem setReg_desc (o : Nat) (v : Word) : (s.setReg o v).desc = s.desc := rfl
@[simp] theorem setReg_inboxCur (o : Nat) (v : Word) : (s.setReg o v).inboxCur = s.inboxCur := rfl
@[simp] theorem setReg_inboxPrev (o : Nat) (v : Word) : (s.setReg o v).inboxPrev = s.inboxPrev := rfl
@[simp] theorem setReg_wq (o : Nat) (v : Word) : (s.setReg o v).wq = s.wq := rfl
@[simp] theorem setReg_ddr (o : Nat) (v : Word) : (s.setReg o v).ddr = s.ddr := rfl
@[simp] theorem setReg_fc (o : Nat) (v : Word) : (s.setReg o v).fc = s.fc := rfl
@[simp] theorem setReg_churn (o : Nat) (v : Word) : (s.setReg o v).churn = s.churn := rfl
@[simp] theorem setReg_dump (o : Nat) (v : Word) : (s.setReg o v).dump = s.dump := rfl
@[simp] theorem setReg_links (o : Nat) (v : Word) : (s.setReg o v).links = s.links := rfl
@[simp] theorem setReg_tests (o : Nat) (v : Word) : (s.setReg o v).tests = s.tests := rfl
@[simp] theorem setReg_dctx (o : Nat) (v : Word) : (s.setReg o v).dctx = s.dctx := rfl
@[simp] theorem setReg_deng (o : Nat) (v : Word) : (s.setReg o v).deng = s.deng := rfl
@[simp] theorem setReg_ectx (o : Nat) (v : Word) : (s.setReg o v).ectx = s.ectx := rfl
@[simp] theorem setReg_eeng (o : Nat) (v : Word) : (s.setReg o v).eeng = s.eeng := rfl
@[simp] theorem setReg_layers (o : Nat) (v : Word) : (s.setReg o v).layers = s.layers := rfl
@[simp] theorem setReg_heads (o : Nat) (v : Word) : (s.setReg o v).heads = s.heads := rfl
@[simp] theorem setReg_wbs (o : Nat) (v : Word) : (s.setReg o v).wbs = s.wbs := rfl
@[simp] theorem setReg_ins (o : Nat) (v : Word) : (s.setReg o v).ins = s.ins := rfl
@[simp] theorem setReg_seen (o : Nat) (v : Word) : (s.setReg o v).seen = s.seen := rfl
@[simp] theorem setReg_pair (o : Nat) (v : Word) : (s.setReg o v).pair = s.pair := rfl
@[simp] theorem setReg_touch (o : Nat) (v : Word) : (s.setReg o v).touch = s.touch := rfl
@[simp] theorem setReg_pwr (o : Nat) (v : Word) : (s.setReg o v).pwr = s.pwr := rfl
@[simp] theorem setReg_applies (o : Nat) (v : Word) : (s.setReg o v).applies = s.applies := rfl
@[simp] theorem setReg_uarts (o : Nat) (v : Word) : (s.setReg o v).uarts = s.uarts := rfl
@[simp] theorem setReg_cvus (o : Nat) (v : Word) : (s.setReg o v).cvus = s.cvus := rfl
@[simp] theorem setReg_i2cs (o : Nat) (v : Word) : (s.setReg o v).i2cs = s.i2cs := rfl
@[simp] theorem setReg_gpio (o : Nat) (v : Word) : (s.setReg o v).gpio = s.gpio := rfl
@[simp] theorem setReg_tap (o : Nat) (v : Word) : (s.setReg o v).tap = s.tap := rfl
@[simp] theorem setReg_resp (o : Nat) (v : Word) : (s.setReg o v).resp = s.resp := rfl
@[simp] theorem setReg_pending (o : Nat) (v : Word) : (s.setReg o v).pending = s.pending := rfl

@[simp] theorem setLreg_regs (o : Nat) (v : Word) : (s.setLreg o v).regs = s.regs := rfl
@[simp] theorem setLreg_mem (o : Nat) (v : Word) : (s.setLreg o v).mem = s.mem := rfl
@[simp] theorem setLreg_chk (o : Nat) (v : Word) : (s.setLreg o v).chk = s.chk := rfl
@[simp] theorem setLreg_flash (o : Nat) (v : Word) : (s.setLreg o v).flash = s.flash := rfl
@[simp] theorem setLreg_latch (o : Nat) (v : Word) : (s.setLreg o v).latch = s.latch := rfl
@[simp] theorem setLreg_time (o : Nat) (v : Word) : (s.setLreg o v).time = s.time := rfl
@[simp] theorem setLreg_cores (o : Nat) (v : Word) : (s.setLreg o v).cores = s.cores := rfl
@[simp] theorem setLreg_lines (o : Nat) (v : Word) : (s.setLreg o v).lines = s.lines := rfl
@[simp] theorem setLreg_serv (o : Nat) (v : Word) : (s.setLreg o v).serv = s.serv := rfl
@[simp] theorem setLreg_log (o : Nat) (v : Word) : (s.setLreg o v).log = s.log := rfl
@[simp] theorem setLreg_sqWait (o : Nat) (v : Word) : (s.setLreg o v).sqWait = s.sqWait := rfl
@[simp] theorem setLreg_sqReached (o : Nat) (v : Word) : (s.setLreg o v).sqReached = s.sqReached := rfl
@[simp] theorem setLreg_chambers (o : Nat) (v : Word) : (s.setLreg o v).chambers = s.chambers := rfl
@[simp] theorem setLreg_flips (o : Nat) (v : Word) : (s.setLreg o v).flips = s.flips := rfl
@[simp] theorem setLreg_desc (o : Nat) (v : Word) : (s.setLreg o v).desc = s.desc := rfl
@[simp] theorem setLreg_inboxCur (o : Nat) (v : Word) : (s.setLreg o v).inboxCur = s.inboxCur := rfl
@[simp] theorem setLreg_inboxPrev (o : Nat) (v : Word) : (s.setLreg o v).inboxPrev = s.inboxPrev := rfl
@[simp] theorem setLreg_wq (o : Nat) (v : Word) : (s.setLreg o v).wq = s.wq := rfl
@[simp] theorem setLreg_ddr (o : Nat) (v : Word) : (s.setLreg o v).ddr = s.ddr := rfl
@[simp] theorem setLreg_fc (o : Nat) (v : Word) : (s.setLreg o v).fc = s.fc := rfl
@[simp] theorem setLreg_churn (o : Nat) (v : Word) : (s.setLreg o v).churn = s.churn := rfl
@[simp] theorem setLreg_dump (o : Nat) (v : Word) : (s.setLreg o v).dump = s.dump := rfl
@[simp] theorem setLreg_links (o : Nat) (v : Word) : (s.setLreg o v).links = s.links := rfl
@[simp] theorem setLreg_tests (o : Nat) (v : Word) : (s.setLreg o v).tests = s.tests := rfl
@[simp] theorem setLreg_dctx (o : Nat) (v : Word) : (s.setLreg o v).dctx = s.dctx := rfl
@[simp] theorem setLreg_deng (o : Nat) (v : Word) : (s.setLreg o v).deng = s.deng := rfl
@[simp] theorem setLreg_ectx (o : Nat) (v : Word) : (s.setLreg o v).ectx = s.ectx := rfl
@[simp] theorem setLreg_eeng (o : Nat) (v : Word) : (s.setLreg o v).eeng = s.eeng := rfl
@[simp] theorem setLreg_layers (o : Nat) (v : Word) : (s.setLreg o v).layers = s.layers := rfl
@[simp] theorem setLreg_heads (o : Nat) (v : Word) : (s.setLreg o v).heads = s.heads := rfl
@[simp] theorem setLreg_wbs (o : Nat) (v : Word) : (s.setLreg o v).wbs = s.wbs := rfl
@[simp] theorem setLreg_ins (o : Nat) (v : Word) : (s.setLreg o v).ins = s.ins := rfl
@[simp] theorem setLreg_seen (o : Nat) (v : Word) : (s.setLreg o v).seen = s.seen := rfl
@[simp] theorem setLreg_pair (o : Nat) (v : Word) : (s.setLreg o v).pair = s.pair := rfl
@[simp] theorem setLreg_touch (o : Nat) (v : Word) : (s.setLreg o v).touch = s.touch := rfl
@[simp] theorem setLreg_pwr (o : Nat) (v : Word) : (s.setLreg o v).pwr = s.pwr := rfl
@[simp] theorem setLreg_applies (o : Nat) (v : Word) : (s.setLreg o v).applies = s.applies := rfl
@[simp] theorem setLreg_uarts (o : Nat) (v : Word) : (s.setLreg o v).uarts = s.uarts := rfl
@[simp] theorem setLreg_cvus (o : Nat) (v : Word) : (s.setLreg o v).cvus = s.cvus := rfl
@[simp] theorem setLreg_i2cs (o : Nat) (v : Word) : (s.setLreg o v).i2cs = s.i2cs := rfl
@[simp] theorem setLreg_gpio (o : Nat) (v : Word) : (s.setLreg o v).gpio = s.gpio := rfl
@[simp] theorem setLreg_tap (o : Nat) (v : Word) : (s.setLreg o v).tap = s.tap := rfl
@[simp] theorem setLreg_resp (o : Nat) (v : Word) : (s.setLreg o v).resp = s.resp := rfl
@[simp] theorem setLreg_pending (o : Nat) (v : Word) : (s.setLreg o v).pending = s.pending := rfl

@[simp] theorem setFld_live (f : Fld) (v : Nat) : (s.setFld f v).live = s.live := rfl
@[simp] theorem setFld_mem (f : Fld) (v : Nat) : (s.setFld f v).mem = s.mem := rfl
@[simp] theorem setFld_chk (f : Fld) (v : Nat) : (s.setFld f v).chk = s.chk := rfl
@[simp] theorem setFld_flash (f : Fld) (v : Nat) : (s.setFld f v).flash = s.flash := rfl
@[simp] theorem setFld_latch (f : Fld) (v : Nat) : (s.setFld f v).latch = s.latch := rfl
@[simp] theorem setFld_time (f : Fld) (v : Nat) : (s.setFld f v).time = s.time := rfl
@[simp] theorem setFld_cores (f : Fld) (v : Nat) : (s.setFld f v).cores = s.cores := rfl
@[simp] theorem setFld_lines (f : Fld) (v : Nat) : (s.setFld f v).lines = s.lines := rfl
@[simp] theorem setFld_serv (f : Fld) (v : Nat) : (s.setFld f v).serv = s.serv := rfl
@[simp] theorem setFld_log (f : Fld) (v : Nat) : (s.setFld f v).log = s.log := rfl
@[simp] theorem setFld_sqWait (f : Fld) (v : Nat) : (s.setFld f v).sqWait = s.sqWait := rfl
@[simp] theorem setFld_sqReached (f : Fld) (v : Nat) : (s.setFld f v).sqReached = s.sqReached := rfl
@[simp] theorem setFld_chambers (f : Fld) (v : Nat) : (s.setFld f v).chambers = s.chambers := rfl
@[simp] theorem setFld_flips (f : Fld) (v : Nat) : (s.setFld f v).flips = s.flips := rfl
@[simp] theorem setFld_desc (f : Fld) (v : Nat) : (s.setFld f v).desc = s.desc := rfl
@[simp] theorem setFld_inboxCur (f : Fld) (v : Nat) : (s.setFld f v).inboxCur = s.inboxCur := rfl
@[simp] theorem setFld_inboxPrev (f : Fld) (v : Nat) : (s.setFld f v).inboxPrev = s.inboxPrev := rfl
@[simp] theorem setFld_wq (f : Fld) (v : Nat) : (s.setFld f v).wq = s.wq := rfl
@[simp] theorem setFld_ddr (f : Fld) (v : Nat) : (s.setFld f v).ddr = s.ddr := rfl
@[simp] theorem setFld_fc (f : Fld) (v : Nat) : (s.setFld f v).fc = s.fc := rfl
@[simp] theorem setFld_churn (f : Fld) (v : Nat) : (s.setFld f v).churn = s.churn := rfl
@[simp] theorem setFld_dump (f : Fld) (v : Nat) : (s.setFld f v).dump = s.dump := rfl
@[simp] theorem setFld_links (f : Fld) (v : Nat) : (s.setFld f v).links = s.links := rfl
@[simp] theorem setFld_tests (f : Fld) (v : Nat) : (s.setFld f v).tests = s.tests := rfl
@[simp] theorem setFld_dctx (f : Fld) (v : Nat) : (s.setFld f v).dctx = s.dctx := rfl
@[simp] theorem setFld_deng (f : Fld) (v : Nat) : (s.setFld f v).deng = s.deng := rfl
@[simp] theorem setFld_ectx (f : Fld) (v : Nat) : (s.setFld f v).ectx = s.ectx := rfl
@[simp] theorem setFld_eeng (f : Fld) (v : Nat) : (s.setFld f v).eeng = s.eeng := rfl
@[simp] theorem setFld_layers (f : Fld) (v : Nat) : (s.setFld f v).layers = s.layers := rfl
@[simp] theorem setFld_heads (f : Fld) (v : Nat) : (s.setFld f v).heads = s.heads := rfl
@[simp] theorem setFld_wbs (f : Fld) (v : Nat) : (s.setFld f v).wbs = s.wbs := rfl
@[simp] theorem setFld_ins (f : Fld) (v : Nat) : (s.setFld f v).ins = s.ins := rfl
@[simp] theorem setFld_seen (f : Fld) (v : Nat) : (s.setFld f v).seen = s.seen := rfl
@[simp] theorem setFld_pair (f : Fld) (v : Nat) : (s.setFld f v).pair = s.pair := rfl
@[simp] theorem setFld_touch (f : Fld) (v : Nat) : (s.setFld f v).touch = s.touch := rfl
@[simp] theorem setFld_pwr (f : Fld) (v : Nat) : (s.setFld f v).pwr = s.pwr := rfl
@[simp] theorem setFld_applies (f : Fld) (v : Nat) : (s.setFld f v).applies = s.applies := rfl
@[simp] theorem setFld_uarts (f : Fld) (v : Nat) : (s.setFld f v).uarts = s.uarts := rfl
@[simp] theorem setFld_cvus (f : Fld) (v : Nat) : (s.setFld f v).cvus = s.cvus := rfl
@[simp] theorem setFld_i2cs (f : Fld) (v : Nat) : (s.setFld f v).i2cs = s.i2cs := rfl
@[simp] theorem setFld_gpio (f : Fld) (v : Nat) : (s.setFld f v).gpio = s.gpio := rfl
@[simp] theorem setFld_tap (f : Fld) (v : Nat) : (s.setFld f v).tap = s.tap := rfl
@[simp] theorem setFld_resp (f : Fld) (v : Nat) : (s.setFld f v).resp = s.resp := rfl
@[simp] theorem setFld_pending (f : Fld) (v : Nat) : (s.setFld f v).pending = s.pending := rfl

@[simp] theorem setLfld_regs (f : Fld) (v : Nat) : (s.setLfld f v).regs = s.regs := rfl
@[simp] theorem setLfld_mem (f : Fld) (v : Nat) : (s.setLfld f v).mem = s.mem := rfl
@[simp] theorem setLfld_chk (f : Fld) (v : Nat) : (s.setLfld f v).chk = s.chk := rfl
@[simp] theorem setLfld_flash (f : Fld) (v : Nat) : (s.setLfld f v).flash = s.flash := rfl
@[simp] theorem setLfld_latch (f : Fld) (v : Nat) : (s.setLfld f v).latch = s.latch := rfl
@[simp] theorem setLfld_time (f : Fld) (v : Nat) : (s.setLfld f v).time = s.time := rfl
@[simp] theorem setLfld_cores (f : Fld) (v : Nat) : (s.setLfld f v).cores = s.cores := rfl
@[simp] theorem setLfld_lines (f : Fld) (v : Nat) : (s.setLfld f v).lines = s.lines := rfl
@[simp] theorem setLfld_serv (f : Fld) (v : Nat) : (s.setLfld f v).serv = s.serv := rfl
@[simp] theorem setLfld_log (f : Fld) (v : Nat) : (s.setLfld f v).log = s.log := rfl
@[simp] theorem setLfld_sqWait (f : Fld) (v : Nat) : (s.setLfld f v).sqWait = s.sqWait := rfl
@[simp] theorem setLfld_sqReached (f : Fld) (v : Nat) : (s.setLfld f v).sqReached = s.sqReached := rfl
@[simp] theorem setLfld_chambers (f : Fld) (v : Nat) : (s.setLfld f v).chambers = s.chambers := rfl
@[simp] theorem setLfld_flips (f : Fld) (v : Nat) : (s.setLfld f v).flips = s.flips := rfl
@[simp] theorem setLfld_desc (f : Fld) (v : Nat) : (s.setLfld f v).desc = s.desc := rfl
@[simp] theorem setLfld_inboxCur (f : Fld) (v : Nat) : (s.setLfld f v).inboxCur = s.inboxCur := rfl
@[simp] theorem setLfld_inboxPrev (f : Fld) (v : Nat) : (s.setLfld f v).inboxPrev = s.inboxPrev := rfl
@[simp] theorem setLfld_wq (f : Fld) (v : Nat) : (s.setLfld f v).wq = s.wq := rfl
@[simp] theorem setLfld_ddr (f : Fld) (v : Nat) : (s.setLfld f v).ddr = s.ddr := rfl
@[simp] theorem setLfld_fc (f : Fld) (v : Nat) : (s.setLfld f v).fc = s.fc := rfl
@[simp] theorem setLfld_churn (f : Fld) (v : Nat) : (s.setLfld f v).churn = s.churn := rfl
@[simp] theorem setLfld_dump (f : Fld) (v : Nat) : (s.setLfld f v).dump = s.dump := rfl
@[simp] theorem setLfld_links (f : Fld) (v : Nat) : (s.setLfld f v).links = s.links := rfl
@[simp] theorem setLfld_tests (f : Fld) (v : Nat) : (s.setLfld f v).tests = s.tests := rfl
@[simp] theorem setLfld_dctx (f : Fld) (v : Nat) : (s.setLfld f v).dctx = s.dctx := rfl
@[simp] theorem setLfld_deng (f : Fld) (v : Nat) : (s.setLfld f v).deng = s.deng := rfl
@[simp] theorem setLfld_ectx (f : Fld) (v : Nat) : (s.setLfld f v).ectx = s.ectx := rfl
@[simp] theorem setLfld_eeng (f : Fld) (v : Nat) : (s.setLfld f v).eeng = s.eeng := rfl
@[simp] theorem setLfld_layers (f : Fld) (v : Nat) : (s.setLfld f v).layers = s.layers := rfl
@[simp] theorem setLfld_heads (f : Fld) (v : Nat) : (s.setLfld f v).heads = s.heads := rfl
@[simp] theorem setLfld_wbs (f : Fld) (v : Nat) : (s.setLfld f v).wbs = s.wbs := rfl
@[simp] theorem setLfld_ins (f : Fld) (v : Nat) : (s.setLfld f v).ins = s.ins := rfl
@[simp] theorem setLfld_seen (f : Fld) (v : Nat) : (s.setLfld f v).seen = s.seen := rfl
@[simp] theorem setLfld_pair (f : Fld) (v : Nat) : (s.setLfld f v).pair = s.pair := rfl
@[simp] theorem setLfld_touch (f : Fld) (v : Nat) : (s.setLfld f v).touch = s.touch := rfl
@[simp] theorem setLfld_pwr (f : Fld) (v : Nat) : (s.setLfld f v).pwr = s.pwr := rfl
@[simp] theorem setLfld_applies (f : Fld) (v : Nat) : (s.setLfld f v).applies = s.applies := rfl
@[simp] theorem setLfld_uarts (f : Fld) (v : Nat) : (s.setLfld f v).uarts = s.uarts := rfl
@[simp] theorem setLfld_cvus (f : Fld) (v : Nat) : (s.setLfld f v).cvus = s.cvus := rfl
@[simp] theorem setLfld_i2cs (f : Fld) (v : Nat) : (s.setLfld f v).i2cs = s.i2cs := rfl
@[simp] theorem setLfld_gpio (f : Fld) (v : Nat) : (s.setLfld f v).gpio = s.gpio := rfl
@[simp] theorem setLfld_tap (f : Fld) (v : Nat) : (s.setLfld f v).tap = s.tap := rfl
@[simp] theorem setLfld_resp (f : Fld) (v : Nat) : (s.setLfld f v).resp = s.resp := rfl
@[simp] theorem setLfld_pending (f : Fld) (v : Nat) : (s.setLfld f v).pending = s.pending := rfl

@[simp] theorem setBit_live (f : Fld) (b : Bool) : (s.setBit f b).live = s.live := rfl
@[simp] theorem setBit_mem (f : Fld) (b : Bool) : (s.setBit f b).mem = s.mem := rfl
@[simp] theorem setBit_chk (f : Fld) (b : Bool) : (s.setBit f b).chk = s.chk := rfl
@[simp] theorem setBit_flash (f : Fld) (b : Bool) : (s.setBit f b).flash = s.flash := rfl
@[simp] theorem setBit_latch (f : Fld) (b : Bool) : (s.setBit f b).latch = s.latch := rfl
@[simp] theorem setBit_time (f : Fld) (b : Bool) : (s.setBit f b).time = s.time := rfl
@[simp] theorem setBit_cores (f : Fld) (b : Bool) : (s.setBit f b).cores = s.cores := rfl
@[simp] theorem setBit_lines (f : Fld) (b : Bool) : (s.setBit f b).lines = s.lines := rfl
@[simp] theorem setBit_serv (f : Fld) (b : Bool) : (s.setBit f b).serv = s.serv := rfl
@[simp] theorem setBit_log (f : Fld) (b : Bool) : (s.setBit f b).log = s.log := rfl
@[simp] theorem setBit_sqWait (f : Fld) (b : Bool) : (s.setBit f b).sqWait = s.sqWait := rfl
@[simp] theorem setBit_sqReached (f : Fld) (b : Bool) : (s.setBit f b).sqReached = s.sqReached := rfl
@[simp] theorem setBit_chambers (f : Fld) (b : Bool) : (s.setBit f b).chambers = s.chambers := rfl
@[simp] theorem setBit_flips (f : Fld) (b : Bool) : (s.setBit f b).flips = s.flips := rfl
@[simp] theorem setBit_desc (f : Fld) (b : Bool) : (s.setBit f b).desc = s.desc := rfl
@[simp] theorem setBit_inboxCur (f : Fld) (b : Bool) : (s.setBit f b).inboxCur = s.inboxCur := rfl
@[simp] theorem setBit_inboxPrev (f : Fld) (b : Bool) : (s.setBit f b).inboxPrev = s.inboxPrev := rfl
@[simp] theorem setBit_wq (f : Fld) (b : Bool) : (s.setBit f b).wq = s.wq := rfl
@[simp] theorem setBit_ddr (f : Fld) (b : Bool) : (s.setBit f b).ddr = s.ddr := rfl
@[simp] theorem setBit_fc (f : Fld) (b : Bool) : (s.setBit f b).fc = s.fc := rfl
@[simp] theorem setBit_churn (f : Fld) (b : Bool) : (s.setBit f b).churn = s.churn := rfl
@[simp] theorem setBit_dump (f : Fld) (b : Bool) : (s.setBit f b).dump = s.dump := rfl
@[simp] theorem setBit_links (f : Fld) (b : Bool) : (s.setBit f b).links = s.links := rfl
@[simp] theorem setBit_tests (f : Fld) (b : Bool) : (s.setBit f b).tests = s.tests := rfl
@[simp] theorem setBit_dctx (f : Fld) (b : Bool) : (s.setBit f b).dctx = s.dctx := rfl
@[simp] theorem setBit_deng (f : Fld) (b : Bool) : (s.setBit f b).deng = s.deng := rfl
@[simp] theorem setBit_ectx (f : Fld) (b : Bool) : (s.setBit f b).ectx = s.ectx := rfl
@[simp] theorem setBit_eeng (f : Fld) (b : Bool) : (s.setBit f b).eeng = s.eeng := rfl
@[simp] theorem setBit_layers (f : Fld) (b : Bool) : (s.setBit f b).layers = s.layers := rfl
@[simp] theorem setBit_heads (f : Fld) (b : Bool) : (s.setBit f b).heads = s.heads := rfl
@[simp] theorem setBit_wbs (f : Fld) (b : Bool) : (s.setBit f b).wbs = s.wbs := rfl
@[simp] theorem setBit_ins (f : Fld) (b : Bool) : (s.setBit f b).ins = s.ins := rfl
@[simp] theorem setBit_seen (f : Fld) (b : Bool) : (s.setBit f b).seen = s.seen := rfl
@[simp] theorem setBit_pair (f : Fld) (b : Bool) : (s.setBit f b).pair = s.pair := rfl
@[simp] theorem setBit_touch (f : Fld) (b : Bool) : (s.setBit f b).touch = s.touch := rfl
@[simp] theorem setBit_pwr (f : Fld) (b : Bool) : (s.setBit f b).pwr = s.pwr := rfl
@[simp] theorem setBit_applies (f : Fld) (b : Bool) : (s.setBit f b).applies = s.applies := rfl
@[simp] theorem setBit_uarts (f : Fld) (b : Bool) : (s.setBit f b).uarts = s.uarts := rfl
@[simp] theorem setBit_cvus (f : Fld) (b : Bool) : (s.setBit f b).cvus = s.cvus := rfl
@[simp] theorem setBit_i2cs (f : Fld) (b : Bool) : (s.setBit f b).i2cs = s.i2cs := rfl
@[simp] theorem setBit_gpio (f : Fld) (b : Bool) : (s.setBit f b).gpio = s.gpio := rfl
@[simp] theorem setBit_tap (f : Fld) (b : Bool) : (s.setBit f b).tap = s.tap := rfl
@[simp] theorem setBit_resp (f : Fld) (b : Bool) : (s.setBit f b).resp = s.resp := rfl
@[simp] theorem setBit_pending (f : Fld) (b : Bool) : (s.setBit f b).pending = s.pending := rfl

@[simp] theorem orFld_live (f : Fld) (v : Nat) : (s.orFld f v).live = s.live := rfl
@[simp] theorem orFld_mem (f : Fld) (v : Nat) : (s.orFld f v).mem = s.mem := rfl
@[simp] theorem orFld_chk (f : Fld) (v : Nat) : (s.orFld f v).chk = s.chk := rfl
@[simp] theorem orFld_flash (f : Fld) (v : Nat) : (s.orFld f v).flash = s.flash := rfl
@[simp] theorem orFld_latch (f : Fld) (v : Nat) : (s.orFld f v).latch = s.latch := rfl
@[simp] theorem orFld_time (f : Fld) (v : Nat) : (s.orFld f v).time = s.time := rfl
@[simp] theorem orFld_cores (f : Fld) (v : Nat) : (s.orFld f v).cores = s.cores := rfl
@[simp] theorem orFld_lines (f : Fld) (v : Nat) : (s.orFld f v).lines = s.lines := rfl
@[simp] theorem orFld_serv (f : Fld) (v : Nat) : (s.orFld f v).serv = s.serv := rfl
@[simp] theorem orFld_log (f : Fld) (v : Nat) : (s.orFld f v).log = s.log := rfl
@[simp] theorem orFld_sqWait (f : Fld) (v : Nat) : (s.orFld f v).sqWait = s.sqWait := rfl
@[simp] theorem orFld_sqReached (f : Fld) (v : Nat) : (s.orFld f v).sqReached = s.sqReached := rfl
@[simp] theorem orFld_chambers (f : Fld) (v : Nat) : (s.orFld f v).chambers = s.chambers := rfl
@[simp] theorem orFld_flips (f : Fld) (v : Nat) : (s.orFld f v).flips = s.flips := rfl
@[simp] theorem orFld_desc (f : Fld) (v : Nat) : (s.orFld f v).desc = s.desc := rfl
@[simp] theorem orFld_inboxCur (f : Fld) (v : Nat) : (s.orFld f v).inboxCur = s.inboxCur := rfl
@[simp] theorem orFld_inboxPrev (f : Fld) (v : Nat) : (s.orFld f v).inboxPrev = s.inboxPrev := rfl
@[simp] theorem orFld_wq (f : Fld) (v : Nat) : (s.orFld f v).wq = s.wq := rfl
@[simp] theorem orFld_ddr (f : Fld) (v : Nat) : (s.orFld f v).ddr = s.ddr := rfl
@[simp] theorem orFld_fc (f : Fld) (v : Nat) : (s.orFld f v).fc = s.fc := rfl
@[simp] theorem orFld_churn (f : Fld) (v : Nat) : (s.orFld f v).churn = s.churn := rfl
@[simp] theorem orFld_dump (f : Fld) (v : Nat) : (s.orFld f v).dump = s.dump := rfl
@[simp] theorem orFld_links (f : Fld) (v : Nat) : (s.orFld f v).links = s.links := rfl
@[simp] theorem orFld_tests (f : Fld) (v : Nat) : (s.orFld f v).tests = s.tests := rfl
@[simp] theorem orFld_dctx (f : Fld) (v : Nat) : (s.orFld f v).dctx = s.dctx := rfl
@[simp] theorem orFld_deng (f : Fld) (v : Nat) : (s.orFld f v).deng = s.deng := rfl
@[simp] theorem orFld_ectx (f : Fld) (v : Nat) : (s.orFld f v).ectx = s.ectx := rfl
@[simp] theorem orFld_eeng (f : Fld) (v : Nat) : (s.orFld f v).eeng = s.eeng := rfl
@[simp] theorem orFld_layers (f : Fld) (v : Nat) : (s.orFld f v).layers = s.layers := rfl
@[simp] theorem orFld_heads (f : Fld) (v : Nat) : (s.orFld f v).heads = s.heads := rfl
@[simp] theorem orFld_wbs (f : Fld) (v : Nat) : (s.orFld f v).wbs = s.wbs := rfl
@[simp] theorem orFld_ins (f : Fld) (v : Nat) : (s.orFld f v).ins = s.ins := rfl
@[simp] theorem orFld_seen (f : Fld) (v : Nat) : (s.orFld f v).seen = s.seen := rfl
@[simp] theorem orFld_pair (f : Fld) (v : Nat) : (s.orFld f v).pair = s.pair := rfl
@[simp] theorem orFld_touch (f : Fld) (v : Nat) : (s.orFld f v).touch = s.touch := rfl
@[simp] theorem orFld_pwr (f : Fld) (v : Nat) : (s.orFld f v).pwr = s.pwr := rfl
@[simp] theorem orFld_applies (f : Fld) (v : Nat) : (s.orFld f v).applies = s.applies := rfl
@[simp] theorem orFld_uarts (f : Fld) (v : Nat) : (s.orFld f v).uarts = s.uarts := rfl
@[simp] theorem orFld_cvus (f : Fld) (v : Nat) : (s.orFld f v).cvus = s.cvus := rfl
@[simp] theorem orFld_i2cs (f : Fld) (v : Nat) : (s.orFld f v).i2cs = s.i2cs := rfl
@[simp] theorem orFld_gpio (f : Fld) (v : Nat) : (s.orFld f v).gpio = s.gpio := rfl
@[simp] theorem orFld_tap (f : Fld) (v : Nat) : (s.orFld f v).tap = s.tap := rfl
@[simp] theorem orFld_resp (f : Fld) (v : Nat) : (s.orFld f v).resp = s.resp := rfl
@[simp] theorem orFld_pending (f : Fld) (v : Nat) : (s.orFld f v).pending = s.pending := rfl

@[simp] theorem putBitAt_live (f : Fld) (i : Nat) (b : Bool) : (s.putBitAt f i b).live = s.live := rfl
@[simp] theorem putBitAt_mem (f : Fld) (i : Nat) (b : Bool) : (s.putBitAt f i b).mem = s.mem := rfl
@[simp] theorem putBitAt_chk (f : Fld) (i : Nat) (b : Bool) : (s.putBitAt f i b).chk = s.chk := rfl
@[simp] theorem putBitAt_flash (f : Fld) (i : Nat) (b : Bool) : (s.putBitAt f i b).flash = s.flash := rfl
@[simp] theorem putBitAt_latch (f : Fld) (i : Nat) (b : Bool) : (s.putBitAt f i b).latch = s.latch := rfl
@[simp] theorem putBitAt_time (f : Fld) (i : Nat) (b : Bool) : (s.putBitAt f i b).time = s.time := rfl
@[simp] theorem putBitAt_cores (f : Fld) (i : Nat) (b : Bool) : (s.putBitAt f i b).cores = s.cores := rfl
@[simp] theorem putBitAt_lines (f : Fld) (i : Nat) (b : Bool) : (s.putBitAt f i b).lines = s.lines := rfl
@[simp] theorem putBitAt_serv (f : Fld) (i : Nat) (b : Bool) : (s.putBitAt f i b).serv = s.serv := rfl
@[simp] theorem putBitAt_log (f : Fld) (i : Nat) (b : Bool) : (s.putBitAt f i b).log = s.log := rfl
@[simp] theorem putBitAt_sqWait (f : Fld) (i : Nat) (b : Bool) : (s.putBitAt f i b).sqWait = s.sqWait := rfl
@[simp] theorem putBitAt_sqReached (f : Fld) (i : Nat) (b : Bool) : (s.putBitAt f i b).sqReached = s.sqReached := rfl
@[simp] theorem putBitAt_chambers (f : Fld) (i : Nat) (b : Bool) : (s.putBitAt f i b).chambers = s.chambers := rfl
@[simp] theorem putBitAt_flips (f : Fld) (i : Nat) (b : Bool) : (s.putBitAt f i b).flips = s.flips := rfl
@[simp] theorem putBitAt_desc (f : Fld) (i : Nat) (b : Bool) : (s.putBitAt f i b).desc = s.desc := rfl
@[simp] theorem putBitAt_inboxCur (f : Fld) (i : Nat) (b : Bool) : (s.putBitAt f i b).inboxCur = s.inboxCur := rfl
@[simp] theorem putBitAt_inboxPrev (f : Fld) (i : Nat) (b : Bool) : (s.putBitAt f i b).inboxPrev = s.inboxPrev := rfl
@[simp] theorem putBitAt_wq (f : Fld) (i : Nat) (b : Bool) : (s.putBitAt f i b).wq = s.wq := rfl
@[simp] theorem putBitAt_ddr (f : Fld) (i : Nat) (b : Bool) : (s.putBitAt f i b).ddr = s.ddr := rfl
@[simp] theorem putBitAt_fc (f : Fld) (i : Nat) (b : Bool) : (s.putBitAt f i b).fc = s.fc := rfl
@[simp] theorem putBitAt_churn (f : Fld) (i : Nat) (b : Bool) : (s.putBitAt f i b).churn = s.churn := rfl
@[simp] theorem putBitAt_dump (f : Fld) (i : Nat) (b : Bool) : (s.putBitAt f i b).dump = s.dump := rfl
@[simp] theorem putBitAt_links (f : Fld) (i : Nat) (b : Bool) : (s.putBitAt f i b).links = s.links := rfl
@[simp] theorem putBitAt_tests (f : Fld) (i : Nat) (b : Bool) : (s.putBitAt f i b).tests = s.tests := rfl
@[simp] theorem putBitAt_dctx (f : Fld) (i : Nat) (b : Bool) : (s.putBitAt f i b).dctx = s.dctx := rfl
@[simp] theorem putBitAt_deng (f : Fld) (i : Nat) (b : Bool) : (s.putBitAt f i b).deng = s.deng := rfl
@[simp] theorem putBitAt_ectx (f : Fld) (i : Nat) (b : Bool) : (s.putBitAt f i b).ectx = s.ectx := rfl
@[simp] theorem putBitAt_eeng (f : Fld) (i : Nat) (b : Bool) : (s.putBitAt f i b).eeng = s.eeng := rfl
@[simp] theorem putBitAt_layers (f : Fld) (i : Nat) (b : Bool) : (s.putBitAt f i b).layers = s.layers := rfl
@[simp] theorem putBitAt_heads (f : Fld) (i : Nat) (b : Bool) : (s.putBitAt f i b).heads = s.heads := rfl
@[simp] theorem putBitAt_wbs (f : Fld) (i : Nat) (b : Bool) : (s.putBitAt f i b).wbs = s.wbs := rfl
@[simp] theorem putBitAt_ins (f : Fld) (i : Nat) (b : Bool) : (s.putBitAt f i b).ins = s.ins := rfl
@[simp] theorem putBitAt_seen (f : Fld) (i : Nat) (b : Bool) : (s.putBitAt f i b).seen = s.seen := rfl
@[simp] theorem putBitAt_pair (f : Fld) (i : Nat) (b : Bool) : (s.putBitAt f i b).pair = s.pair := rfl
@[simp] theorem putBitAt_touch (f : Fld) (i : Nat) (b : Bool) : (s.putBitAt f i b).touch = s.touch := rfl
@[simp] theorem putBitAt_pwr (f : Fld) (i : Nat) (b : Bool) : (s.putBitAt f i b).pwr = s.pwr := rfl
@[simp] theorem putBitAt_applies (f : Fld) (i : Nat) (b : Bool) : (s.putBitAt f i b).applies = s.applies := rfl
@[simp] theorem putBitAt_uarts (f : Fld) (i : Nat) (b : Bool) : (s.putBitAt f i b).uarts = s.uarts := rfl
@[simp] theorem putBitAt_cvus (f : Fld) (i : Nat) (b : Bool) : (s.putBitAt f i b).cvus = s.cvus := rfl
@[simp] theorem putBitAt_i2cs (f : Fld) (i : Nat) (b : Bool) : (s.putBitAt f i b).i2cs = s.i2cs := rfl
@[simp] theorem putBitAt_gpio (f : Fld) (i : Nat) (b : Bool) : (s.putBitAt f i b).gpio = s.gpio := rfl
@[simp] theorem putBitAt_tap (f : Fld) (i : Nat) (b : Bool) : (s.putBitAt f i b).tap = s.tap := rfl
@[simp] theorem putBitAt_resp (f : Fld) (i : Nat) (b : Bool) : (s.putBitAt f i b).resp = s.resp := rfl
@[simp] theorem putBitAt_pending (f : Fld) (i : Nat) (b : Bool) : (s.putBitAt f i b).pending = s.pending := rfl

@[simp] theorem bump_live (f : Fld) (n : Nat) : (s.bump f n).live = s.live := rfl
@[simp] theorem bump_mem (f : Fld) (n : Nat) : (s.bump f n).mem = s.mem := rfl
@[simp] theorem bump_chk (f : Fld) (n : Nat) : (s.bump f n).chk = s.chk := rfl
@[simp] theorem bump_flash (f : Fld) (n : Nat) : (s.bump f n).flash = s.flash := rfl
@[simp] theorem bump_latch (f : Fld) (n : Nat) : (s.bump f n).latch = s.latch := rfl
@[simp] theorem bump_time (f : Fld) (n : Nat) : (s.bump f n).time = s.time := rfl
@[simp] theorem bump_cores (f : Fld) (n : Nat) : (s.bump f n).cores = s.cores := rfl
@[simp] theorem bump_lines (f : Fld) (n : Nat) : (s.bump f n).lines = s.lines := rfl
@[simp] theorem bump_serv (f : Fld) (n : Nat) : (s.bump f n).serv = s.serv := rfl
@[simp] theorem bump_log (f : Fld) (n : Nat) : (s.bump f n).log = s.log := rfl
@[simp] theorem bump_sqWait (f : Fld) (n : Nat) : (s.bump f n).sqWait = s.sqWait := rfl
@[simp] theorem bump_sqReached (f : Fld) (n : Nat) : (s.bump f n).sqReached = s.sqReached := rfl
@[simp] theorem bump_chambers (f : Fld) (n : Nat) : (s.bump f n).chambers = s.chambers := rfl
@[simp] theorem bump_flips (f : Fld) (n : Nat) : (s.bump f n).flips = s.flips := rfl
@[simp] theorem bump_desc (f : Fld) (n : Nat) : (s.bump f n).desc = s.desc := rfl
@[simp] theorem bump_inboxCur (f : Fld) (n : Nat) : (s.bump f n).inboxCur = s.inboxCur := rfl
@[simp] theorem bump_inboxPrev (f : Fld) (n : Nat) : (s.bump f n).inboxPrev = s.inboxPrev := rfl
@[simp] theorem bump_wq (f : Fld) (n : Nat) : (s.bump f n).wq = s.wq := rfl
@[simp] theorem bump_ddr (f : Fld) (n : Nat) : (s.bump f n).ddr = s.ddr := rfl
@[simp] theorem bump_fc (f : Fld) (n : Nat) : (s.bump f n).fc = s.fc := rfl
@[simp] theorem bump_churn (f : Fld) (n : Nat) : (s.bump f n).churn = s.churn := rfl
@[simp] theorem bump_dump (f : Fld) (n : Nat) : (s.bump f n).dump = s.dump := rfl
@[simp] theorem bump_links (f : Fld) (n : Nat) : (s.bump f n).links = s.links := rfl
@[simp] theorem bump_tests (f : Fld) (n : Nat) : (s.bump f n).tests = s.tests := rfl
@[simp] theorem bump_dctx (f : Fld) (n : Nat) : (s.bump f n).dctx = s.dctx := rfl
@[simp] theorem bump_deng (f : Fld) (n : Nat) : (s.bump f n).deng = s.deng := rfl
@[simp] theorem bump_ectx (f : Fld) (n : Nat) : (s.bump f n).ectx = s.ectx := rfl
@[simp] theorem bump_eeng (f : Fld) (n : Nat) : (s.bump f n).eeng = s.eeng := rfl
@[simp] theorem bump_layers (f : Fld) (n : Nat) : (s.bump f n).layers = s.layers := rfl
@[simp] theorem bump_heads (f : Fld) (n : Nat) : (s.bump f n).heads = s.heads := rfl
@[simp] theorem bump_wbs (f : Fld) (n : Nat) : (s.bump f n).wbs = s.wbs := rfl
@[simp] theorem bump_ins (f : Fld) (n : Nat) : (s.bump f n).ins = s.ins := rfl
@[simp] theorem bump_seen (f : Fld) (n : Nat) : (s.bump f n).seen = s.seen := rfl
@[simp] theorem bump_pair (f : Fld) (n : Nat) : (s.bump f n).pair = s.pair := rfl
@[simp] theorem bump_touch (f : Fld) (n : Nat) : (s.bump f n).touch = s.touch := rfl
@[simp] theorem bump_pwr (f : Fld) (n : Nat) : (s.bump f n).pwr = s.pwr := rfl
@[simp] theorem bump_applies (f : Fld) (n : Nat) : (s.bump f n).applies = s.applies := rfl
@[simp] theorem bump_uarts (f : Fld) (n : Nat) : (s.bump f n).uarts = s.uarts := rfl
@[simp] theorem bump_cvus (f : Fld) (n : Nat) : (s.bump f n).cvus = s.cvus := rfl
@[simp] theorem bump_i2cs (f : Fld) (n : Nat) : (s.bump f n).i2cs = s.i2cs := rfl
@[simp] theorem bump_gpio (f : Fld) (n : Nat) : (s.bump f n).gpio = s.gpio := rfl
@[simp] theorem bump_tap (f : Fld) (n : Nat) : (s.bump f n).tap = s.tap := rfl
@[simp] theorem bump_resp (f : Fld) (n : Nat) : (s.bump f n).resp = s.resp := rfl
@[simp] theorem bump_pending (f : Fld) (n : Nat) : (s.bump f n).pending = s.pending := rfl

@[simp] theorem setReg64_live (lo hi v : Nat) : (s.setReg64 lo hi v).live = s.live := rfl
@[simp] theorem setReg64_mem (lo hi v : Nat) : (s.setReg64 lo hi v).mem = s.mem := rfl
@[simp] theorem setReg64_chk (lo hi v : Nat) : (s.setReg64 lo hi v).chk = s.chk := rfl
@[simp] theorem setReg64_flash (lo hi v : Nat) : (s.setReg64 lo hi v).flash = s.flash := rfl
@[simp] theorem setReg64_latch (lo hi v : Nat) : (s.setReg64 lo hi v).latch = s.latch := rfl
@[simp] theorem setReg64_time (lo hi v : Nat) : (s.setReg64 lo hi v).time = s.time := rfl
@[simp] theorem setReg64_cores (lo hi v : Nat) : (s.setReg64 lo hi v).cores = s.cores := rfl
@[simp] theorem setReg64_lines (lo hi v : Nat) : (s.setReg64 lo hi v).lines = s.lines := rfl
@[simp] theorem setReg64_serv (lo hi v : Nat) : (s.setReg64 lo hi v).serv = s.serv := rfl
@[simp] theorem setReg64_log (lo hi v : Nat) : (s.setReg64 lo hi v).log = s.log := rfl
@[simp] theorem setReg64_sqWait (lo hi v : Nat) : (s.setReg64 lo hi v).sqWait = s.sqWait := rfl
@[simp] theorem setReg64_sqReached (lo hi v : Nat) : (s.setReg64 lo hi v).sqReached = s.sqReached := rfl
@[simp] theorem setReg64_chambers (lo hi v : Nat) : (s.setReg64 lo hi v).chambers = s.chambers := rfl
@[simp] theorem setReg64_flips (lo hi v : Nat) : (s.setReg64 lo hi v).flips = s.flips := rfl
@[simp] theorem setReg64_desc (lo hi v : Nat) : (s.setReg64 lo hi v).desc = s.desc := rfl
@[simp] theorem setReg64_inboxCur (lo hi v : Nat) : (s.setReg64 lo hi v).inboxCur = s.inboxCur := rfl
@[simp] theorem setReg64_inboxPrev (lo hi v : Nat) : (s.setReg64 lo hi v).inboxPrev = s.inboxPrev := rfl
@[simp] theorem setReg64_wq (lo hi v : Nat) : (s.setReg64 lo hi v).wq = s.wq := rfl
@[simp] theorem setReg64_ddr (lo hi v : Nat) : (s.setReg64 lo hi v).ddr = s.ddr := rfl
@[simp] theorem setReg64_fc (lo hi v : Nat) : (s.setReg64 lo hi v).fc = s.fc := rfl
@[simp] theorem setReg64_churn (lo hi v : Nat) : (s.setReg64 lo hi v).churn = s.churn := rfl
@[simp] theorem setReg64_dump (lo hi v : Nat) : (s.setReg64 lo hi v).dump = s.dump := rfl
@[simp] theorem setReg64_links (lo hi v : Nat) : (s.setReg64 lo hi v).links = s.links := rfl
@[simp] theorem setReg64_tests (lo hi v : Nat) : (s.setReg64 lo hi v).tests = s.tests := rfl
@[simp] theorem setReg64_dctx (lo hi v : Nat) : (s.setReg64 lo hi v).dctx = s.dctx := rfl
@[simp] theorem setReg64_deng (lo hi v : Nat) : (s.setReg64 lo hi v).deng = s.deng := rfl
@[simp] theorem setReg64_ectx (lo hi v : Nat) : (s.setReg64 lo hi v).ectx = s.ectx := rfl
@[simp] theorem setReg64_eeng (lo hi v : Nat) : (s.setReg64 lo hi v).eeng = s.eeng := rfl
@[simp] theorem setReg64_layers (lo hi v : Nat) : (s.setReg64 lo hi v).layers = s.layers := rfl
@[simp] theorem setReg64_heads (lo hi v : Nat) : (s.setReg64 lo hi v).heads = s.heads := rfl
@[simp] theorem setReg64_wbs (lo hi v : Nat) : (s.setReg64 lo hi v).wbs = s.wbs := rfl
@[simp] theorem setReg64_ins (lo hi v : Nat) : (s.setReg64 lo hi v).ins = s.ins := rfl
@[simp] theorem setReg64_seen (lo hi v : Nat) : (s.setReg64 lo hi v).seen = s.seen := rfl
@[simp] theorem setReg64_pair (lo hi v : Nat) : (s.setReg64 lo hi v).pair = s.pair := rfl
@[simp] theorem setReg64_touch (lo hi v : Nat) : (s.setReg64 lo hi v).touch = s.touch := rfl
@[simp] theorem setReg64_pwr (lo hi v : Nat) : (s.setReg64 lo hi v).pwr = s.pwr := rfl
@[simp] theorem setReg64_applies (lo hi v : Nat) : (s.setReg64 lo hi v).applies = s.applies := rfl
@[simp] theorem setReg64_uarts (lo hi v : Nat) : (s.setReg64 lo hi v).uarts = s.uarts := rfl
@[simp] theorem setReg64_cvus (lo hi v : Nat) : (s.setReg64 lo hi v).cvus = s.cvus := rfl
@[simp] theorem setReg64_i2cs (lo hi v : Nat) : (s.setReg64 lo hi v).i2cs = s.i2cs := rfl
@[simp] theorem setReg64_gpio (lo hi v : Nat) : (s.setReg64 lo hi v).gpio = s.gpio := rfl
@[simp] theorem setReg64_tap (lo hi v : Nat) : (s.setReg64 lo hi v).tap = s.tap := rfl
@[simp] theorem setReg64_resp (lo hi v : Nat) : (s.setReg64 lo hi v).resp = s.resp := rfl
@[simp] theorem setReg64_pending (lo hi v : Nat) : (s.setReg64 lo hi v).pending = s.pending := rfl

@[simp] theorem setReg96_live (o v : Nat) : (s.setReg96 o v).live = s.live := rfl
@[simp] theorem setReg96_mem (o v : Nat) : (s.setReg96 o v).mem = s.mem := rfl
@[simp] theorem setReg96_chk (o v : Nat) : (s.setReg96 o v).chk = s.chk := rfl
@[simp] theorem setReg96_flash (o v : Nat) : (s.setReg96 o v).flash = s.flash := rfl
@[simp] theorem setReg96_latch (o v : Nat) : (s.setReg96 o v).latch = s.latch := rfl
@[simp] theorem setReg96_time (o v : Nat) : (s.setReg96 o v).time = s.time := rfl
@[simp] theorem setReg96_cores (o v : Nat) : (s.setReg96 o v).cores = s.cores := rfl
@[simp] theorem setReg96_lines (o v : Nat) : (s.setReg96 o v).lines = s.lines := rfl
@[simp] theorem setReg96_serv (o v : Nat) : (s.setReg96 o v).serv = s.serv := rfl
@[simp] theorem setReg96_log (o v : Nat) : (s.setReg96 o v).log = s.log := rfl
@[simp] theorem setReg96_sqWait (o v : Nat) : (s.setReg96 o v).sqWait = s.sqWait := rfl
@[simp] theorem setReg96_sqReached (o v : Nat) : (s.setReg96 o v).sqReached = s.sqReached := rfl
@[simp] theorem setReg96_chambers (o v : Nat) : (s.setReg96 o v).chambers = s.chambers := rfl
@[simp] theorem setReg96_flips (o v : Nat) : (s.setReg96 o v).flips = s.flips := rfl
@[simp] theorem setReg96_desc (o v : Nat) : (s.setReg96 o v).desc = s.desc := rfl
@[simp] theorem setReg96_inboxCur (o v : Nat) : (s.setReg96 o v).inboxCur = s.inboxCur := rfl
@[simp] theorem setReg96_inboxPrev (o v : Nat) : (s.setReg96 o v).inboxPrev = s.inboxPrev := rfl
@[simp] theorem setReg96_wq (o v : Nat) : (s.setReg96 o v).wq = s.wq := rfl
@[simp] theorem setReg96_ddr (o v : Nat) : (s.setReg96 o v).ddr = s.ddr := rfl
@[simp] theorem setReg96_fc (o v : Nat) : (s.setReg96 o v).fc = s.fc := rfl
@[simp] theorem setReg96_churn (o v : Nat) : (s.setReg96 o v).churn = s.churn := rfl
@[simp] theorem setReg96_dump (o v : Nat) : (s.setReg96 o v).dump = s.dump := rfl
@[simp] theorem setReg96_links (o v : Nat) : (s.setReg96 o v).links = s.links := rfl
@[simp] theorem setReg96_tests (o v : Nat) : (s.setReg96 o v).tests = s.tests := rfl
@[simp] theorem setReg96_dctx (o v : Nat) : (s.setReg96 o v).dctx = s.dctx := rfl
@[simp] theorem setReg96_deng (o v : Nat) : (s.setReg96 o v).deng = s.deng := rfl
@[simp] theorem setReg96_ectx (o v : Nat) : (s.setReg96 o v).ectx = s.ectx := rfl
@[simp] theorem setReg96_eeng (o v : Nat) : (s.setReg96 o v).eeng = s.eeng := rfl
@[simp] theorem setReg96_layers (o v : Nat) : (s.setReg96 o v).layers = s.layers := rfl
@[simp] theorem setReg96_heads (o v : Nat) : (s.setReg96 o v).heads = s.heads := rfl
@[simp] theorem setReg96_wbs (o v : Nat) : (s.setReg96 o v).wbs = s.wbs := rfl
@[simp] theorem setReg96_ins (o v : Nat) : (s.setReg96 o v).ins = s.ins := rfl
@[simp] theorem setReg96_seen (o v : Nat) : (s.setReg96 o v).seen = s.seen := rfl
@[simp] theorem setReg96_pair (o v : Nat) : (s.setReg96 o v).pair = s.pair := rfl
@[simp] theorem setReg96_touch (o v : Nat) : (s.setReg96 o v).touch = s.touch := rfl
@[simp] theorem setReg96_pwr (o v : Nat) : (s.setReg96 o v).pwr = s.pwr := rfl
@[simp] theorem setReg96_applies (o v : Nat) : (s.setReg96 o v).applies = s.applies := rfl
@[simp] theorem setReg96_uarts (o v : Nat) : (s.setReg96 o v).uarts = s.uarts := rfl
@[simp] theorem setReg96_cvus (o v : Nat) : (s.setReg96 o v).cvus = s.cvus := rfl
@[simp] theorem setReg96_i2cs (o v : Nat) : (s.setReg96 o v).i2cs = s.i2cs := rfl
@[simp] theorem setReg96_gpio (o v : Nat) : (s.setReg96 o v).gpio = s.gpio := rfl
@[simp] theorem setReg96_tap (o v : Nat) : (s.setReg96 o v).tap = s.tap := rfl
@[simp] theorem setReg96_resp (o v : Nat) : (s.setReg96 o v).resp = s.resp := rfl
@[simp] theorem setReg96_pending (o v : Nat) : (s.setReg96 o v).pending = s.pending := rfl

@[simp] theorem setCore_regs (c : Nat) (x : CoreSt) : (s.setCore c x).regs = s.regs := rfl
@[simp] theorem setCore_live (c : Nat) (x : CoreSt) : (s.setCore c x).live = s.live := rfl
@[simp] theorem setCore_mem (c : Nat) (x : CoreSt) : (s.setCore c x).mem = s.mem := rfl
@[simp] theorem setCore_chk (c : Nat) (x : CoreSt) : (s.setCore c x).chk = s.chk := rfl
@[simp] theorem setCore_flash (c : Nat) (x : CoreSt) : (s.setCore c x).flash = s.flash := rfl
@[simp] theorem setCore_latch (c : Nat) (x : CoreSt) : (s.setCore c x).latch = s.latch := rfl
@[simp] theorem setCore_time (c : Nat) (x : CoreSt) : (s.setCore c x).time = s.time := rfl
@[simp] theorem setCore_lines (c : Nat) (x : CoreSt) : (s.setCore c x).lines = s.lines := rfl
@[simp] theorem setCore_serv (c : Nat) (x : CoreSt) : (s.setCore c x).serv = s.serv := rfl
@[simp] theorem setCore_log (c : Nat) (x : CoreSt) : (s.setCore c x).log = s.log := rfl
@[simp] theorem setCore_sqWait (c : Nat) (x : CoreSt) : (s.setCore c x).sqWait = s.sqWait := rfl
@[simp] theorem setCore_sqReached (c : Nat) (x : CoreSt) : (s.setCore c x).sqReached = s.sqReached := rfl
@[simp] theorem setCore_chambers (c : Nat) (x : CoreSt) : (s.setCore c x).chambers = s.chambers := rfl
@[simp] theorem setCore_flips (c : Nat) (x : CoreSt) : (s.setCore c x).flips = s.flips := rfl
@[simp] theorem setCore_desc (c : Nat) (x : CoreSt) : (s.setCore c x).desc = s.desc := rfl
@[simp] theorem setCore_inboxCur (c : Nat) (x : CoreSt) : (s.setCore c x).inboxCur = s.inboxCur := rfl
@[simp] theorem setCore_inboxPrev (c : Nat) (x : CoreSt) : (s.setCore c x).inboxPrev = s.inboxPrev := rfl
@[simp] theorem setCore_wq (c : Nat) (x : CoreSt) : (s.setCore c x).wq = s.wq := rfl
@[simp] theorem setCore_ddr (c : Nat) (x : CoreSt) : (s.setCore c x).ddr = s.ddr := rfl
@[simp] theorem setCore_fc (c : Nat) (x : CoreSt) : (s.setCore c x).fc = s.fc := rfl
@[simp] theorem setCore_churn (c : Nat) (x : CoreSt) : (s.setCore c x).churn = s.churn := rfl
@[simp] theorem setCore_dump (c : Nat) (x : CoreSt) : (s.setCore c x).dump = s.dump := rfl
@[simp] theorem setCore_links (c : Nat) (x : CoreSt) : (s.setCore c x).links = s.links := rfl
@[simp] theorem setCore_tests (c : Nat) (x : CoreSt) : (s.setCore c x).tests = s.tests := rfl
@[simp] theorem setCore_dctx (c : Nat) (x : CoreSt) : (s.setCore c x).dctx = s.dctx := rfl
@[simp] theorem setCore_deng (c : Nat) (x : CoreSt) : (s.setCore c x).deng = s.deng := rfl
@[simp] theorem setCore_ectx (c : Nat) (x : CoreSt) : (s.setCore c x).ectx = s.ectx := rfl
@[simp] theorem setCore_eeng (c : Nat) (x : CoreSt) : (s.setCore c x).eeng = s.eeng := rfl
@[simp] theorem setCore_layers (c : Nat) (x : CoreSt) : (s.setCore c x).layers = s.layers := rfl
@[simp] theorem setCore_heads (c : Nat) (x : CoreSt) : (s.setCore c x).heads = s.heads := rfl
@[simp] theorem setCore_wbs (c : Nat) (x : CoreSt) : (s.setCore c x).wbs = s.wbs := rfl
@[simp] theorem setCore_ins (c : Nat) (x : CoreSt) : (s.setCore c x).ins = s.ins := rfl
@[simp] theorem setCore_seen (c : Nat) (x : CoreSt) : (s.setCore c x).seen = s.seen := rfl
@[simp] theorem setCore_pair (c : Nat) (x : CoreSt) : (s.setCore c x).pair = s.pair := rfl
@[simp] theorem setCore_touch (c : Nat) (x : CoreSt) : (s.setCore c x).touch = s.touch := rfl
@[simp] theorem setCore_pwr (c : Nat) (x : CoreSt) : (s.setCore c x).pwr = s.pwr := rfl
@[simp] theorem setCore_applies (c : Nat) (x : CoreSt) : (s.setCore c x).applies = s.applies := rfl
@[simp] theorem setCore_uarts (c : Nat) (x : CoreSt) : (s.setCore c x).uarts = s.uarts := rfl
@[simp] theorem setCore_cvus (c : Nat) (x : CoreSt) : (s.setCore c x).cvus = s.cvus := rfl
@[simp] theorem setCore_i2cs (c : Nat) (x : CoreSt) : (s.setCore c x).i2cs = s.i2cs := rfl
@[simp] theorem setCore_gpio (c : Nat) (x : CoreSt) : (s.setCore c x).gpio = s.gpio := rfl
@[simp] theorem setCore_tap (c : Nat) (x : CoreSt) : (s.setCore c x).tap = s.tap := rfl
@[simp] theorem setCore_resp (c : Nat) (x : CoreSt) : (s.setCore c x).resp = s.resp := rfl
@[simp] theorem setCore_pending (c : Nat) (x : CoreSt) : (s.setCore c x).pending = s.pending := rfl

@[simp] theorem putBytes_regs (a : Nat) (d : List Byte) : (s.putBytes a d).regs = s.regs := rfl
@[simp] theorem putBytes_live (a : Nat) (d : List Byte) : (s.putBytes a d).live = s.live := rfl
@[simp] theorem putBytes_chk (a : Nat) (d : List Byte) : (s.putBytes a d).chk = s.chk := rfl
@[simp] theorem putBytes_flash (a : Nat) (d : List Byte) : (s.putBytes a d).flash = s.flash := rfl
@[simp] theorem putBytes_latch (a : Nat) (d : List Byte) : (s.putBytes a d).latch = s.latch := rfl
@[simp] theorem putBytes_time (a : Nat) (d : List Byte) : (s.putBytes a d).time = s.time := rfl
@[simp] theorem putBytes_cores (a : Nat) (d : List Byte) : (s.putBytes a d).cores = s.cores := rfl
@[simp] theorem putBytes_lines (a : Nat) (d : List Byte) : (s.putBytes a d).lines = s.lines := rfl
@[simp] theorem putBytes_serv (a : Nat) (d : List Byte) : (s.putBytes a d).serv = s.serv := rfl
@[simp] theorem putBytes_log (a : Nat) (d : List Byte) : (s.putBytes a d).log = s.log := rfl
@[simp] theorem putBytes_sqWait (a : Nat) (d : List Byte) : (s.putBytes a d).sqWait = s.sqWait := rfl
@[simp] theorem putBytes_sqReached (a : Nat) (d : List Byte) : (s.putBytes a d).sqReached = s.sqReached := rfl
@[simp] theorem putBytes_chambers (a : Nat) (d : List Byte) : (s.putBytes a d).chambers = s.chambers := rfl
@[simp] theorem putBytes_flips (a : Nat) (d : List Byte) : (s.putBytes a d).flips = s.flips := rfl
@[simp] theorem putBytes_desc (a : Nat) (d : List Byte) : (s.putBytes a d).desc = s.desc := rfl
@[simp] theorem putBytes_inboxCur (a : Nat) (d : List Byte) : (s.putBytes a d).inboxCur = s.inboxCur := rfl
@[simp] theorem putBytes_inboxPrev (a : Nat) (d : List Byte) : (s.putBytes a d).inboxPrev = s.inboxPrev := rfl
@[simp] theorem putBytes_wq (a : Nat) (d : List Byte) : (s.putBytes a d).wq = s.wq := rfl
@[simp] theorem putBytes_ddr (a : Nat) (d : List Byte) : (s.putBytes a d).ddr = s.ddr := rfl
@[simp] theorem putBytes_fc (a : Nat) (d : List Byte) : (s.putBytes a d).fc = s.fc := rfl
@[simp] theorem putBytes_churn (a : Nat) (d : List Byte) : (s.putBytes a d).churn = s.churn := rfl
@[simp] theorem putBytes_dump (a : Nat) (d : List Byte) : (s.putBytes a d).dump = s.dump := rfl
@[simp] theorem putBytes_links (a : Nat) (d : List Byte) : (s.putBytes a d).links = s.links := rfl
@[simp] theorem putBytes_tests (a : Nat) (d : List Byte) : (s.putBytes a d).tests = s.tests := rfl
@[simp] theorem putBytes_dctx (a : Nat) (d : List Byte) : (s.putBytes a d).dctx = s.dctx := rfl
@[simp] theorem putBytes_deng (a : Nat) (d : List Byte) : (s.putBytes a d).deng = s.deng := rfl
@[simp] theorem putBytes_ectx (a : Nat) (d : List Byte) : (s.putBytes a d).ectx = s.ectx := rfl
@[simp] theorem putBytes_eeng (a : Nat) (d : List Byte) : (s.putBytes a d).eeng = s.eeng := rfl
@[simp] theorem putBytes_layers (a : Nat) (d : List Byte) : (s.putBytes a d).layers = s.layers := rfl
@[simp] theorem putBytes_heads (a : Nat) (d : List Byte) : (s.putBytes a d).heads = s.heads := rfl
@[simp] theorem putBytes_wbs (a : Nat) (d : List Byte) : (s.putBytes a d).wbs = s.wbs := rfl
@[simp] theorem putBytes_ins (a : Nat) (d : List Byte) : (s.putBytes a d).ins = s.ins := rfl
@[simp] theorem putBytes_seen (a : Nat) (d : List Byte) : (s.putBytes a d).seen = s.seen := rfl
@[simp] theorem putBytes_pair (a : Nat) (d : List Byte) : (s.putBytes a d).pair = s.pair := rfl
@[simp] theorem putBytes_touch (a : Nat) (d : List Byte) : (s.putBytes a d).touch = s.touch := rfl
@[simp] theorem putBytes_pwr (a : Nat) (d : List Byte) : (s.putBytes a d).pwr = s.pwr := rfl
@[simp] theorem putBytes_applies (a : Nat) (d : List Byte) : (s.putBytes a d).applies = s.applies := rfl
@[simp] theorem putBytes_uarts (a : Nat) (d : List Byte) : (s.putBytes a d).uarts = s.uarts := rfl
@[simp] theorem putBytes_cvus (a : Nat) (d : List Byte) : (s.putBytes a d).cvus = s.cvus := rfl
@[simp] theorem putBytes_i2cs (a : Nat) (d : List Byte) : (s.putBytes a d).i2cs = s.i2cs := rfl
@[simp] theorem putBytes_gpio (a : Nat) (d : List Byte) : (s.putBytes a d).gpio = s.gpio := rfl
@[simp] theorem putBytes_tap (a : Nat) (d : List Byte) : (s.putBytes a d).tap = s.tap := rfl
@[simp] theorem putBytes_resp (a : Nat) (d : List Byte) : (s.putBytes a d).resp = s.resp := rfl
@[simp] theorem putBytes_pending (a : Nat) (d : List Byte) : (s.putBytes a d).pending = s.pending := rfl

@[simp] theorem setDelta_regs (u v : Nat) : (s.setDelta u v).regs = s.regs := rfl
@[simp] theorem setDelta_live (u v : Nat) : (s.setDelta u v).live = s.live := rfl
@[simp] theorem setDelta_mem (u v : Nat) : (s.setDelta u v).mem = s.mem := rfl
@[simp] theorem setDelta_flash (u v : Nat) : (s.setDelta u v).flash = s.flash := rfl
@[simp] theorem setDelta_latch (u v : Nat) : (s.setDelta u v).latch = s.latch := rfl
@[simp] theorem setDelta_time (u v : Nat) : (s.setDelta u v).time = s.time := rfl
@[simp] theorem setDelta_cores (u v : Nat) : (s.setDelta u v).cores = s.cores := rfl
@[simp] theorem setDelta_lines (u v : Nat) : (s.setDelta u v).lines = s.lines := rfl
@[simp] theorem setDelta_serv (u v : Nat) : (s.setDelta u v).serv = s.serv := rfl
@[simp] theorem setDelta_log (u v : Nat) : (s.setDelta u v).log = s.log := rfl
@[simp] theorem setDelta_sqWait (u v : Nat) : (s.setDelta u v).sqWait = s.sqWait := rfl
@[simp] theorem setDelta_sqReached (u v : Nat) : (s.setDelta u v).sqReached = s.sqReached := rfl
@[simp] theorem setDelta_chambers (u v : Nat) : (s.setDelta u v).chambers = s.chambers := rfl
@[simp] theorem setDelta_flips (u v : Nat) : (s.setDelta u v).flips = s.flips := rfl
@[simp] theorem setDelta_desc (u v : Nat) : (s.setDelta u v).desc = s.desc := rfl
@[simp] theorem setDelta_inboxCur (u v : Nat) : (s.setDelta u v).inboxCur = s.inboxCur := rfl
@[simp] theorem setDelta_inboxPrev (u v : Nat) : (s.setDelta u v).inboxPrev = s.inboxPrev := rfl
@[simp] theorem setDelta_wq (u v : Nat) : (s.setDelta u v).wq = s.wq := rfl
@[simp] theorem setDelta_ddr (u v : Nat) : (s.setDelta u v).ddr = s.ddr := rfl
@[simp] theorem setDelta_fc (u v : Nat) : (s.setDelta u v).fc = s.fc := rfl
@[simp] theorem setDelta_churn (u v : Nat) : (s.setDelta u v).churn = s.churn := rfl
@[simp] theorem setDelta_dump (u v : Nat) : (s.setDelta u v).dump = s.dump := rfl
@[simp] theorem setDelta_links (u v : Nat) : (s.setDelta u v).links = s.links := rfl
@[simp] theorem setDelta_tests (u v : Nat) : (s.setDelta u v).tests = s.tests := rfl
@[simp] theorem setDelta_dctx (u v : Nat) : (s.setDelta u v).dctx = s.dctx := rfl
@[simp] theorem setDelta_deng (u v : Nat) : (s.setDelta u v).deng = s.deng := rfl
@[simp] theorem setDelta_ectx (u v : Nat) : (s.setDelta u v).ectx = s.ectx := rfl
@[simp] theorem setDelta_eeng (u v : Nat) : (s.setDelta u v).eeng = s.eeng := rfl
@[simp] theorem setDelta_layers (u v : Nat) : (s.setDelta u v).layers = s.layers := rfl
@[simp] theorem setDelta_heads (u v : Nat) : (s.setDelta u v).heads = s.heads := rfl
@[simp] theorem setDelta_wbs (u v : Nat) : (s.setDelta u v).wbs = s.wbs := rfl
@[simp] theorem setDelta_ins (u v : Nat) : (s.setDelta u v).ins = s.ins := rfl
@[simp] theorem setDelta_seen (u v : Nat) : (s.setDelta u v).seen = s.seen := rfl
@[simp] theorem setDelta_pair (u v : Nat) : (s.setDelta u v).pair = s.pair := rfl
@[simp] theorem setDelta_touch (u v : Nat) : (s.setDelta u v).touch = s.touch := rfl
@[simp] theorem setDelta_pwr (u v : Nat) : (s.setDelta u v).pwr = s.pwr := rfl
@[simp] theorem setDelta_applies (u v : Nat) : (s.setDelta u v).applies = s.applies := rfl
@[simp] theorem setDelta_uarts (u v : Nat) : (s.setDelta u v).uarts = s.uarts := rfl
@[simp] theorem setDelta_cvus (u v : Nat) : (s.setDelta u v).cvus = s.cvus := rfl
@[simp] theorem setDelta_i2cs (u v : Nat) : (s.setDelta u v).i2cs = s.i2cs := rfl
@[simp] theorem setDelta_gpio (u v : Nat) : (s.setDelta u v).gpio = s.gpio := rfl
@[simp] theorem setDelta_tap (u v : Nat) : (s.setDelta u v).tap = s.tap := rfl
@[simp] theorem setDelta_resp (u v : Nat) : (s.setDelta u v).resp = s.resp := rfl
@[simp] theorem setDelta_pending (u v : Nat) : (s.setDelta u v).pending = s.pending := rfl

@[simp] theorem setQueue_regs (c : Nat) (q : List Nat) : (s.setQueue c q).regs = s.regs := rfl
@[simp] theorem setQueue_live (c : Nat) (q : List Nat) : (s.setQueue c q).live = s.live := rfl
@[simp] theorem setQueue_mem (c : Nat) (q : List Nat) : (s.setQueue c q).mem = s.mem := rfl
@[simp] theorem setQueue_chk (c : Nat) (q : List Nat) : (s.setQueue c q).chk = s.chk := rfl
@[simp] theorem setQueue_flash (c : Nat) (q : List Nat) : (s.setQueue c q).flash = s.flash := rfl
@[simp] theorem setQueue_latch (c : Nat) (q : List Nat) : (s.setQueue c q).latch = s.latch := rfl
@[simp] theorem setQueue_time (c : Nat) (q : List Nat) : (s.setQueue c q).time = s.time := rfl
@[simp] theorem setQueue_cores (c : Nat) (q : List Nat) : (s.setQueue c q).cores = s.cores := rfl
@[simp] theorem setQueue_lines (c : Nat) (q : List Nat) : (s.setQueue c q).lines = s.lines := rfl
@[simp] theorem setQueue_serv (c : Nat) (q : List Nat) : (s.setQueue c q).serv = s.serv := rfl
@[simp] theorem setQueue_log (c : Nat) (q : List Nat) : (s.setQueue c q).log = s.log := rfl
@[simp] theorem setQueue_sqWait (c : Nat) (q : List Nat) : (s.setQueue c q).sqWait = s.sqWait := rfl
@[simp] theorem setQueue_sqReached (c : Nat) (q : List Nat) : (s.setQueue c q).sqReached = s.sqReached := rfl
@[simp] theorem setQueue_chambers (c : Nat) (q : List Nat) : (s.setQueue c q).chambers = s.chambers := rfl
@[simp] theorem setQueue_flips (c : Nat) (q : List Nat) : (s.setQueue c q).flips = s.flips := rfl
@[simp] theorem setQueue_desc (c : Nat) (q : List Nat) : (s.setQueue c q).desc = s.desc := rfl
@[simp] theorem setQueue_inboxCur (c : Nat) (q : List Nat) : (s.setQueue c q).inboxCur = s.inboxCur := rfl
@[simp] theorem setQueue_inboxPrev (c : Nat) (q : List Nat) : (s.setQueue c q).inboxPrev = s.inboxPrev := rfl
@[simp] theorem setQueue_ddr (c : Nat) (q : List Nat) : (s.setQueue c q).ddr = s.ddr := rfl
@[simp] theorem setQueue_fc (c : Nat) (q : List Nat) : (s.setQueue c q).fc = s.fc := rfl
@[simp] theorem setQueue_churn (c : Nat) (q : List Nat) : (s.setQueue c q).churn = s.churn := rfl
@[simp] theorem setQueue_dump (c : Nat) (q : List Nat) : (s.setQueue c q).dump = s.dump := rfl
@[simp] theorem setQueue_links (c : Nat) (q : List Nat) : (s.setQueue c q).links = s.links := rfl
@[simp] theorem setQueue_tests (c : Nat) (q : List Nat) : (s.setQueue c q).tests = s.tests := rfl
@[simp] theorem setQueue_dctx (c : Nat) (q : List Nat) : (s.setQueue c q).dctx = s.dctx := rfl
@[simp] theorem setQueue_deng (c : Nat) (q : List Nat) : (s.setQueue c q).deng = s.deng := rfl
@[simp] theorem setQueue_ectx (c : Nat) (q : List Nat) : (s.setQueue c q).ectx = s.ectx := rfl
@[simp] theorem setQueue_eeng (c : Nat) (q : List Nat) : (s.setQueue c q).eeng = s.eeng := rfl
@[simp] theorem setQueue_layers (c : Nat) (q : List Nat) : (s.setQueue c q).layers = s.layers := rfl
@[simp] theorem setQueue_heads (c : Nat) (q : List Nat) : (s.setQueue c q).heads = s.heads := rfl
@[simp] theorem setQueue_wbs (c : Nat) (q : List Nat) : (s.setQueue c q).wbs = s.wbs := rfl
@[simp] theorem setQueue_ins (c : Nat) (q : List Nat) : (s.setQueue c q).ins = s.ins := rfl
@[simp] theorem setQueue_seen (c : Nat) (q : List Nat) : (s.setQueue c q).seen = s.seen := rfl
@[simp] theorem setQueue_pair (c : Nat) (q : List Nat) : (s.setQueue c q).pair = s.pair := rfl
@[simp] theorem setQueue_touch (c : Nat) (q : List Nat) : (s.setQueue c q).touch = s.touch := rfl
@[simp] theorem setQueue_pwr (c : Nat) (q : List Nat) : (s.setQueue c q).pwr = s.pwr := rfl
@[simp] theorem setQueue_applies (c : Nat) (q : List Nat) : (s.setQueue c q).applies = s.applies := rfl
@[simp] theorem setQueue_uarts (c : Nat) (q : List Nat) : (s.setQueue c q).uarts = s.uarts := rfl
@[simp] theorem setQueue_cvus (c : Nat) (q : List Nat) : (s.setQueue c q).cvus = s.cvus := rfl
@[simp] theorem setQueue_i2cs (c : Nat) (q : List Nat) : (s.setQueue c q).i2cs = s.i2cs := rfl
@[simp] theorem setQueue_gpio (c : Nat) (q : List Nat) : (s.setQueue c q).gpio = s.gpio := rfl
@[simp] theorem setQueue_tap (c : Nat) (q : List Nat) : (s.setQueue c q).tap = s.tap := rfl
@[simp] theorem setQueue_resp (c : Nat) (q : List Nat) : (s.setQueue c q).resp = s.resp := rfl
@[simp] theorem setQueue_pending (c : Nat) (q : List Nat) : (s.setQueue c q).pending = s.pending := rfl

@[simp] theorem setLatch_regs (m o : Nat) (v : Word) : (s.setLatch m o v).regs = s.regs := rfl
@[simp] theorem setLatch_live (m o : Nat) (v : Word) : (s.setLatch m o v).live = s.live := rfl
@[simp] theorem setLatch_mem (m o : Nat) (v : Word) : (s.setLatch m o v).mem = s.mem := rfl
@[simp] theorem setLatch_chk (m o : Nat) (v : Word) : (s.setLatch m o v).chk = s.chk := rfl
@[simp] theorem setLatch_flash (m o : Nat) (v : Word) : (s.setLatch m o v).flash = s.flash := rfl
@[simp] theorem setLatch_time (m o : Nat) (v : Word) : (s.setLatch m o v).time = s.time := rfl
@[simp] theorem setLatch_cores (m o : Nat) (v : Word) : (s.setLatch m o v).cores = s.cores := rfl
@[simp] theorem setLatch_lines (m o : Nat) (v : Word) : (s.setLatch m o v).lines = s.lines := rfl
@[simp] theorem setLatch_serv (m o : Nat) (v : Word) : (s.setLatch m o v).serv = s.serv := rfl
@[simp] theorem setLatch_log (m o : Nat) (v : Word) : (s.setLatch m o v).log = s.log := rfl
@[simp] theorem setLatch_sqWait (m o : Nat) (v : Word) : (s.setLatch m o v).sqWait = s.sqWait := rfl
@[simp] theorem setLatch_sqReached (m o : Nat) (v : Word) : (s.setLatch m o v).sqReached = s.sqReached := rfl
@[simp] theorem setLatch_chambers (m o : Nat) (v : Word) : (s.setLatch m o v).chambers = s.chambers := rfl
@[simp] theorem setLatch_flips (m o : Nat) (v : Word) : (s.setLatch m o v).flips = s.flips := rfl
@[simp] theorem setLatch_desc (m o : Nat) (v : Word) : (s.setLatch m o v).desc = s.desc := rfl
@[simp] theorem setLatch_inboxCur (m o : Nat) (v : Word) : (s.setLatch m o v).inboxCur = s.inboxCur := rfl
@[simp] theorem setLatch_inboxPrev (m o : Nat) (v : Word) : (s.setLatch m o v).inboxPrev = s.inboxPrev := rfl
@[simp] theorem setLatch_wq (m o : Nat) (v : Word) : (s.setLatch m o v).wq = s.wq := rfl
@[simp] theorem setLatch_ddr (m o : Nat) (v : Word) : (s.setLatch m o v).ddr = s.ddr := rfl
@[simp] theorem setLatch_fc (m o : Nat) (v : Word) : (s.setLatch m o v).fc = s.fc := rfl
@[simp] theorem setLatch_churn (m o : Nat) (v : Word) : (s.setLatch m o v).churn = s.churn := rfl
@[simp] theorem setLatch_dump (m o : Nat) (v : Word) : (s.setLatch m o v).dump = s.dump := rfl
@[simp] theorem setLatch_links (m o : Nat) (v : Word) : (s.setLatch m o v).links = s.links := rfl
@[simp] theorem setLatch_tests (m o : Nat) (v : Word) : (s.setLatch m o v).tests = s.tests := rfl
@[simp] theorem setLatch_dctx (m o : Nat) (v : Word) : (s.setLatch m o v).dctx = s.dctx := rfl
@[simp] theorem setLatch_deng (m o : Nat) (v : Word) : (s.setLatch m o v).deng = s.deng := rfl
@[simp] theorem setLatch_ectx (m o : Nat) (v : Word) : (s.setLatch m o v).ectx = s.ectx := rfl
@[simp] theorem setLatch_eeng (m o : Nat) (v : Word) : (s.setLatch m o v).eeng = s.eeng := rfl
@[simp] theorem setLatch_layers (m o : Nat) (v : Word) : (s.setLatch m o v).layers = s.layers := rfl
@[simp] theorem setLatch_heads (m o : Nat) (v : Word) : (s.setLatch m o v).heads = s.heads := rfl
@[simp] theorem setLatch_wbs (m o : Nat) (v : Word) : (s.setLatch m o v).wbs = s.wbs := rfl
@[simp] theorem setLatch_ins (m o : Nat) (v : Word) : (s.setLatch m o v).ins = s.ins := rfl
@[simp] theorem setLatch_seen (m o : Nat) (v : Word) : (s.setLatch m o v).seen = s.seen := rfl
@[simp] theorem setLatch_pair (m o : Nat) (v : Word) : (s.setLatch m o v).pair = s.pair := rfl
@[simp] theorem setLatch_touch (m o : Nat) (v : Word) : (s.setLatch m o v).touch = s.touch := rfl
@[simp] theorem setLatch_pwr (m o : Nat) (v : Word) : (s.setLatch m o v).pwr = s.pwr := rfl
@[simp] theorem setLatch_applies (m o : Nat) (v : Word) : (s.setLatch m o v).applies = s.applies := rfl
@[simp] theorem setLatch_uarts (m o : Nat) (v : Word) : (s.setLatch m o v).uarts = s.uarts := rfl
@[simp] theorem setLatch_cvus (m o : Nat) (v : Word) : (s.setLatch m o v).cvus = s.cvus := rfl
@[simp] theorem setLatch_i2cs (m o : Nat) (v : Word) : (s.setLatch m o v).i2cs = s.i2cs := rfl
@[simp] theorem setLatch_gpio (m o : Nat) (v : Word) : (s.setLatch m o v).gpio = s.gpio := rfl
@[simp] theorem setLatch_tap (m o : Nat) (v : Word) : (s.setLatch m o v).tap = s.tap := rfl
@[simp] theorem setLatch_resp (m o : Nat) (v : Word) : (s.setLatch m o v).resp = s.resp := rfl
@[simp] theorem setLatch_pending (m o : Nat) (v : Word) : (s.setLatch m o v).pending = s.pending := rfl

/-- Several fields written: only the register bank changes. -/
theorem setFlds_eq (l : List (Fld × Nat)) : s.setFlds l = { s with regs := (s.setFlds l).regs } := by
  induction l generalizing s with
  | nil => rfl
  | cons p l ih => exact ih (s.setFld p.1 p.2)
@[simp] theorem setFlds_live (l : List (Fld × Nat)) : (s.setFlds l).live = s.live := by rw [setFlds_eq]
@[simp] theorem setFlds_mem (l : List (Fld × Nat)) : (s.setFlds l).mem = s.mem := by rw [setFlds_eq]
@[simp] theorem setFlds_chk (l : List (Fld × Nat)) : (s.setFlds l).chk = s.chk := by rw [setFlds_eq]
@[simp] theorem setFlds_flash (l : List (Fld × Nat)) : (s.setFlds l).flash = s.flash := by rw [setFlds_eq]
@[simp] theorem setFlds_latch (l : List (Fld × Nat)) : (s.setFlds l).latch = s.latch := by rw [setFlds_eq]
@[simp] theorem setFlds_time (l : List (Fld × Nat)) : (s.setFlds l).time = s.time := by rw [setFlds_eq]
@[simp] theorem setFlds_cores (l : List (Fld × Nat)) : (s.setFlds l).cores = s.cores := by rw [setFlds_eq]
@[simp] theorem setFlds_lines (l : List (Fld × Nat)) : (s.setFlds l).lines = s.lines := by rw [setFlds_eq]
@[simp] theorem setFlds_serv (l : List (Fld × Nat)) : (s.setFlds l).serv = s.serv := by rw [setFlds_eq]
@[simp] theorem setFlds_log (l : List (Fld × Nat)) : (s.setFlds l).log = s.log := by rw [setFlds_eq]
@[simp] theorem setFlds_sqWait (l : List (Fld × Nat)) : (s.setFlds l).sqWait = s.sqWait := by rw [setFlds_eq]
@[simp] theorem setFlds_sqReached (l : List (Fld × Nat)) : (s.setFlds l).sqReached = s.sqReached := by rw [setFlds_eq]
@[simp] theorem setFlds_chambers (l : List (Fld × Nat)) : (s.setFlds l).chambers = s.chambers := by rw [setFlds_eq]
@[simp] theorem setFlds_flips (l : List (Fld × Nat)) : (s.setFlds l).flips = s.flips := by rw [setFlds_eq]
@[simp] theorem setFlds_desc (l : List (Fld × Nat)) : (s.setFlds l).desc = s.desc := by rw [setFlds_eq]
@[simp] theorem setFlds_inboxCur (l : List (Fld × Nat)) : (s.setFlds l).inboxCur = s.inboxCur := by rw [setFlds_eq]
@[simp] theorem setFlds_inboxPrev (l : List (Fld × Nat)) : (s.setFlds l).inboxPrev = s.inboxPrev := by rw [setFlds_eq]
@[simp] theorem setFlds_wq (l : List (Fld × Nat)) : (s.setFlds l).wq = s.wq := by rw [setFlds_eq]
@[simp] theorem setFlds_ddr (l : List (Fld × Nat)) : (s.setFlds l).ddr = s.ddr := by rw [setFlds_eq]
@[simp] theorem setFlds_fc (l : List (Fld × Nat)) : (s.setFlds l).fc = s.fc := by rw [setFlds_eq]
@[simp] theorem setFlds_churn (l : List (Fld × Nat)) : (s.setFlds l).churn = s.churn := by rw [setFlds_eq]
@[simp] theorem setFlds_dump (l : List (Fld × Nat)) : (s.setFlds l).dump = s.dump := by rw [setFlds_eq]
@[simp] theorem setFlds_links (l : List (Fld × Nat)) : (s.setFlds l).links = s.links := by rw [setFlds_eq]
@[simp] theorem setFlds_tests (l : List (Fld × Nat)) : (s.setFlds l).tests = s.tests := by rw [setFlds_eq]
@[simp] theorem setFlds_dctx (l : List (Fld × Nat)) : (s.setFlds l).dctx = s.dctx := by rw [setFlds_eq]
@[simp] theorem setFlds_deng (l : List (Fld × Nat)) : (s.setFlds l).deng = s.deng := by rw [setFlds_eq]
@[simp] theorem setFlds_ectx (l : List (Fld × Nat)) : (s.setFlds l).ectx = s.ectx := by rw [setFlds_eq]
@[simp] theorem setFlds_eeng (l : List (Fld × Nat)) : (s.setFlds l).eeng = s.eeng := by rw [setFlds_eq]
@[simp] theorem setFlds_layers (l : List (Fld × Nat)) : (s.setFlds l).layers = s.layers := by rw [setFlds_eq]
@[simp] theorem setFlds_heads (l : List (Fld × Nat)) : (s.setFlds l).heads = s.heads := by rw [setFlds_eq]
@[simp] theorem setFlds_wbs (l : List (Fld × Nat)) : (s.setFlds l).wbs = s.wbs := by rw [setFlds_eq]
@[simp] theorem setFlds_ins (l : List (Fld × Nat)) : (s.setFlds l).ins = s.ins := by rw [setFlds_eq]
@[simp] theorem setFlds_seen (l : List (Fld × Nat)) : (s.setFlds l).seen = s.seen := by rw [setFlds_eq]
@[simp] theorem setFlds_pair (l : List (Fld × Nat)) : (s.setFlds l).pair = s.pair := by rw [setFlds_eq]
@[simp] theorem setFlds_touch (l : List (Fld × Nat)) : (s.setFlds l).touch = s.touch := by rw [setFlds_eq]
@[simp] theorem setFlds_pwr (l : List (Fld × Nat)) : (s.setFlds l).pwr = s.pwr := by rw [setFlds_eq]
@[simp] theorem setFlds_applies (l : List (Fld × Nat)) : (s.setFlds l).applies = s.applies := by rw [setFlds_eq]
@[simp] theorem setFlds_uarts (l : List (Fld × Nat)) : (s.setFlds l).uarts = s.uarts := by rw [setFlds_eq]
@[simp] theorem setFlds_cvus (l : List (Fld × Nat)) : (s.setFlds l).cvus = s.cvus := by rw [setFlds_eq]
@[simp] theorem setFlds_i2cs (l : List (Fld × Nat)) : (s.setFlds l).i2cs = s.i2cs := by rw [setFlds_eq]
@[simp] theorem setFlds_gpio (l : List (Fld × Nat)) : (s.setFlds l).gpio = s.gpio := by rw [setFlds_eq]
@[simp] theorem setFlds_tap (l : List (Fld × Nat)) : (s.setFlds l).tap = s.tap := by rw [setFlds_eq]
@[simp] theorem setFlds_resp (l : List (Fld × Nat)) : (s.setFlds l).resp = s.resp := by rw [setFlds_eq]
@[simp] theorem setFlds_pending (l : List (Fld × Nat)) : (s.setFlds l).pending = s.pending := by rw [setFlds_eq]

/-! ### Reading after writing -/

theorem reg_setReg (o j : Nat) (v : Word) : (s.setReg o v).reg j = if j = o then v else s.reg j := Tbl.get_set ..
@[simp] theorem reg_setReg_same (o : Nat) (v : Word) : (s.setReg o v).reg o = v := by simp [reg_setReg]
theorem reg_setReg_ne {o j : Nat} (v : Word) (h : j ≠ o) : (s.setReg o v).reg j = s.reg j := by simp [reg_setReg, h]
theorem lreg_setLreg (o j : Nat) (v : Word) : (s.setLreg o v).lreg j = if j = o then v else s.lreg j := Tbl.get_set ..
@[simp] theorem reg_setLreg (o j : Nat) (v : Word) : (s.setLreg o v).reg j = s.reg j := rfl
@[simp] theorem lreg_setReg (o j : Nat) (v : Word) : (s.setReg o v).lreg j = s.lreg j := rfl
@[simp] theorem setReg_setReg (o : Nat) (v w : Word) : (s.setReg o v).setReg o w = s.setReg o w := by
  simp only [State.setReg, Tbl.set_set]

theorem core_setCore (c d : Nat) (x : CoreSt) : (s.setCore c x).core d = if d = c then x else s.core d := Tbl.get_set ..
@[simp] theorem core_setCore_same (c : Nat) (x : CoreSt) : (s.setCore c x).core c = x := by simp [core_setCore]
theorem core_setCore_ne {c d : Nat} (x : CoreSt) (h : d ≠ c) : (s.setCore c x).core d = s.core d := by simp [core_setCore, h]
@[simp] theorem setCore_setCore (c : Nat) (x y : CoreSt) : (s.setCore c x).setCore c y = s.setCore c y := by
  simp only [State.setCore, Tbl.set_set]
@[simp] theorem reg_setCore (c j : Nat) (x : CoreSt) : (s.setCore c x).reg j = s.reg j := rfl
@[simp] theorem lreg_setCore (c j : Nat) (x : CoreSt) : (s.setCore c x).lreg j = s.lreg j := rfl
@[simp] theorem fld_setCore (c : Nat) (x : CoreSt) (f : Fld) : (s.setCore c x).fld f = s.fld f := rfl
@[simp] theorem bit_setCore (c : Nat) (x : CoreSt) (f : Fld) : (s.setCore c x).bit f = s.bit f := rfl
@[simp] theorem byte_setCore (c a : Nat) (x : CoreSt) : (s.setCore c x).byte a = s.byte a := rfl
@[simp] theorem core_setReg (o d : Nat) (v : Word) : (s.setReg o v).core d = s.core d := rfl
@[simp] theorem core_setFld (f : Fld) (v d : Nat) : (s.setFld f v).core d = s.core d := rfl
@[simp] theorem core_setBit (f : Fld) (b : Bool) (d : Nat) : (s.setBit f b).core d = s.core d := rfl
@[simp] theorem core_setFlds (l : List (Fld × Nat)) (d : Nat) : (s.setFlds l).core d = s.core d := by
  simp only [State.core, setFlds_cores]
@[simp] theorem byte_setReg (o a : Nat) (v : Word) : (s.setReg o v).byte a = s.byte a := rfl
@[simp] theorem byte_setFld (f : Fld) (v a : Nat) : (s.setFld f v).byte a = s.byte a := rfl
@[simp] theorem byte_setFlds (l : List (Fld × Nat)) (a : Nat) : (s.setFlds l).byte a = s.byte a := by
  simp only [State.byte, setFlds_mem]

/-- A field's place in its 32-bit register. -/
def Fld.ok (f : Fld) : Prop := f.lo ≤ f.hi ∧ f.hi < 32

theorem ofNat_putBits (r : Word) (f : Fld) (v : Nat) (h : f.ok) :
    (BitVec.ofNat 32 (putBits r.toNat f.hi f.lo v)).toNat = putBits r.toNat f.hi f.lo v := by
  rw [BitVec.toNat_ofNat, Nat.mod_eq_of_lt]
  exact putBits_lt _ _ _ _ _ h.1 h.2 r.isLt

/-- A field just written reads as what was written, cut to its width. -/
theorem fld_setFld_same (f : Fld) (v : Nat) (h : f.ok) : (s.setFld f v).fld f = v % 2 ^ (f.hi + 1 - f.lo) := by
  rw [State.fld, State.setFld, reg_setReg_same, ofNat_putBits _ _ _ h, bits_putBits_same _ _ _ _ h.1]

/-- Two fields that share no bit: other registers, or apart in one. -/
def Fld.apart (f g : Fld) : Prop := f.addr ≠ g.addr ∨ f.hi < g.lo ∨ g.hi < f.lo

/-- A field apart from the one written keeps its value. -/
theorem fld_setFld_apart (f g : Fld) (v : Nat) (h : f.ok) (hg : g.ok) (ha : f.apart g) : (s.setFld f v).fld g = s.fld g := by
  rw [State.fld, State.setFld, reg_setReg]
  split
  · rename_i e
    rw [ofNat_putBits _ _ _ h, bits_putBits_apart _ _ _ _ _ _ h.1 hg.1]
    · rw [State.fld, e]
    · rcases ha with ha | ha | ha
      · exact absurd e.symm ha
      · exact Or.inl ha
      · exact Or.inr ha
  · rfl

theorem fld_setFld_addr {f g : Fld} (v : Nat) (h : g.addr ≠ f.addr) : (s.setFld f v).fld g = s.fld g := by
  rw [State.fld, State.setFld, reg_setReg_ne _ _ h, State.fld]

theorem reg_setFld_ne {f : Fld} {j : Nat} (v : Nat) (h : j ≠ f.addr) : (s.setFld f v).reg j = s.reg j := reg_setReg_ne _ _ h

/-- A register that no field of the list lies in keeps its value. -/
theorem reg_setFlds_ne (l : List (Fld × Nat)) (j : Nat) (h : ∀ p ∈ l, j ≠ p.1.addr) : (s.setFlds l).reg j = s.reg j := by
  induction l generalizing s with
  | nil => rfl
  | cons p l ih =>
    have := ih (s.setFld p.1 p.2) (fun q hq => h q (by simp [hq]))
    rw [State.setFlds, List.foldl_cons]
    exact this.trans (reg_setFld_ne s p.2 (h p (by simp)))

theorem byte_putBytes (a : Nat) (d : List Byte) (j : Nat) :
    (s.putBytes a d).byte j = if a ≤ j ∧ j < a + d.length then (d[j - a]?).getD 0 else s.byte j := Tbl.get_setN ..

theorem getLatch_setLatch (m o n p : Nat) (v : Word) (h : o < 2 ^ 32) (hp : p < 2 ^ 32) :
    (s.setLatch m o v).getLatch n p = if n = m ∧ p = o then v else s.getLatch n p := by
  rw [State.getLatch, State.setLatch, Tbl.get_set]
  by_cases e : n = m ∧ p = o
  · simp [e]
  · have : latchKey n p ≠ latchKey m o := by
      simp only [latchKey]
      omega
    rw [if_neg this, if_neg e]
    rfl

/-! ### The memory's canonical form -/

theorem mem_wf_putBytes (a : Nat) (d : List Byte) (h : Tbl.wf (fun _ => 0) s.mem = true) :
    Tbl.wf (fun _ => 0) (s.putBytes a d).mem = true := Tbl.wf_setN _ _ _ _ h

end Sys2Proof.Machine
end

