-- ==== Sys2Proof/Laws/Cores.lean ====
section
/-!
SUPPORT. What the frame of an instruction comes to when the core executes it, and the laws of a core's registers.
-/
namespace Sys2Proof.Machine

/-! ### A core's registers -/

@[simp] theorem rg_zero (x : CoreSt) : x.rg 0 = 0 := rfl

theorem rg_setRg (x : CoreSt) (i j : Nat) (v : DWord) (hi : i ≠ 0) : (x.setRg i v).rg j = if j = i then v else x.rg j := by
  unfold CoreSt.setRg CoreSt.rg
  rw [if_neg hi]
  by_cases hj : j = 0
  · subst hj; simp [Ne.symm hi]
  · simp only [hj, if_false, Tbl.get_set]

/-- g0 keeps reading as zero whatever is written to it (R52). -/
@[simp] theorem setRg_zero (x : CoreSt) (v : DWord) : x.setRg 0 v = x := rfl

theorem rg_setRg_ne (x : CoreSt) {i j : Nat} (v : DWord) (h : j ≠ i) : (x.setRg i v).rg j = x.rg j := by
  by_cases hi : i = 0
  · subst hi; rfl
  · rw [rg_setRg _ _ _ _ hi, if_neg h]

@[simp] theorem setRg_pc (x : CoreSt) (i : Nat) (v : DWord) : (x.setRg i v).pc = x.pc := by unfold CoreSt.setRg; split <;> rfl
@[simp] theorem setRg_instret (x : CoreSt) (i : Nat) (v : DWord) : (x.setRg i v).instret = x.instret := by unfold CoreSt.setRg; split <;> rfl
@[simp] theorem setRg_preds (x : CoreSt) (i : Nat) (v : DWord) : (x.setRg i v).preds = x.preds := by unfold CoreSt.setRg; split <;> rfl
@[simp] theorem setRg_status (x : CoreSt) (i : Nat) (v : DWord) : (x.setRg i v).status = x.status := by unfold CoreSt.setRg; split <;> rfl
@[simp] theorem setRg_stores (x : CoreSt) (i : Nat) (v : DWord) : (x.setRg i v).stores = x.stores := by unfold CoreSt.setRg; split <;> rfl
@[simp] theorem setPr_pc (x : CoreSt) (i : Nat) (b : Bool) : (x.setPr i b).pc = x.pc := by unfold CoreSt.setPr; split <;> rfl
@[simp] theorem setPr_instret (x : CoreSt) (i : Nat) (b : Bool) : (x.setPr i b).instret = x.instret := by unfold CoreSt.setPr; split <;> rfl

theorem setGroup_pc (x : CoreSt) (i : Nat) (d : List Byte) : (x.setGroup i d).pc = x.pc := by
  simp [CoreSt.setGroup, List.range_succ]
theorem loaded_pc (x : CoreSt) (rd n : Nat) (b : Bool) (d : List Byte) : (x.loaded rd n b d).pc = x.pc := by
  unfold CoreSt.loaded; split
  · exact setGroup_pc _ _ _
  · exact setRg_pc _ _ _

/-! ### The frame of an instruction -/

/-- An instruction that a core executes comes to its own effect. -/
theorem instr_executes {s : State} {c : Fin 13} {pf : BitVec 4} (h : s.Executes c pf) (w : Nat) {legal : Bool} (hl : legal = true)
    (f : State → CoreSt → Fx) :
    s.instr c.val pf w legal f = match f s (s.core c.val) with
      | .done t => t.retire c.val ((s.core c.val).pc + 4)
      | .jump t pc => t.retire c.val pc
      | .raise t cause val => t.raise c.val cause val
      | .hold t => t := by
  subst hl
  obtain ⟨h1, h2, h3, h4, hc, h5, h6, h7⟩ := h
  rw [Option.isNone_iff_eq_none] at h3 h4
  simp only [State.instr, State.ifRun, h1, h2, h3, h4, hc, h7, h6, if_true, if_false, Bool.not_true, Bool.false_eq_true]
  simp only [h5, Bool.false_eq_true, if_false]
  cases f s (s.core c.val) <;> simp

/-- An instruction with a reserved encoding, or of another profile, raises ILLEGAL. -/
theorem instr_illegal {s : State} {c : Fin 13} {pf : BitVec 4} (h : s.Executes c pf) (w : Nat) {legal : Bool} (hl : legal = false)
    (f : State → CoreSt → Fx) : s.instr c.val pf w legal f = s.raise c.val 4 (BitVec.ofNat 64 w) := by
  subst hl
  obtain ⟨h1, h2, h3, h4, hc, h5, h6, h7⟩ := h
  rw [Option.isNone_iff_eq_none] at h3 h4
  simp only [State.instr, State.ifRun, h1, h2, h3, h4, hc, if_true, if_false, Bool.not_true, Bool.false_eq_true]
  simp only [h5, Bool.false_eq_true, if_false]
  simp

/-- Retiring after core `c` has taken registers `y`. -/
theorem retire_setCore (s : State) (c : Nat) (y : CoreSt) (pc : DWord) (hp : y.pc + 4 = pc) : (s.setCore c y).retire c pc = s.ran c y := by
  subst hp
  simp [State.retire, State.ran]

theorem jump_setCore (s : State) (c : Nat) (y : CoreSt) (pc : DWord) : (s.setCore c y).retire c pc = s.jumped c y pc := by
  simp [State.retire, State.jumped]

theorem retire_self (s : State) (c : Nat) : s.retire c ((s.core c).pc + 4) = s.ran c (s.core c) := rfl

/-- A register write of a core that executes. -/
theorem instr_write {s : State} {c : Fin 13} {pf : BitVec 4} (h : s.Executes c pf) (w : Nat) {legal : Bool} (hl : legal = true)
    (rd : Nat) (v : State → CoreSt → DWord) :
    s.instr c.val pf w legal (fun s x => Fx.write s c.val x rd (v s x)) =
      s.ran c.val ((s.core c.val).setRg rd (v s (s.core c.val))) := by
  rw [instr_executes h w hl]
  exact retire_setCore _ _ _ _ (by simp)

/-! ### What `ran` leaves alone -/

theorem core_ran (s : State) (c d : Nat) (x : CoreSt) (h : d ≠ c) : (s.ran c x).core d = s.core d := core_setCore_ne _ _ h
@[simp] theorem core_ran_same (s : State) (c : Nat) (x : CoreSt) :
    (s.ran c x).core c = { x with pc := x.pc + 4, instret := x.instret + 1 } := core_setCore_same ..
@[simp] theorem reg_ran (s : State) (c o : Nat) (x : CoreSt) : (s.ran c x).reg o = s.reg o := rfl
@[simp] theorem byte_ran (s : State) (c a : Nat) (x : CoreSt) : (s.ran c x).byte a = s.byte a := rfl

end Sys2Proof.Machine
end

