-- ==== Sys2Proof/Laws/Link.lean ====
section
/-!
SUPPORT. What the link's shared operations can do: the descrambler undoes the scrambler, from the state that training gives both ends.
-/
namespace Sys2Proof.Machine

/-- A bit scrambled and descrambled from one state is the bit, and both ends hold the same state after it (R126). -/
theorem descrambleBit_scrambleBit (st x y d : Nat) (h : d < 2) :
    descrambleBit (st, y) (scrambleBit (st, x) d).2 = ((scrambleBit (st, x) d).1, d) := by
  simp only [descrambleBit, scrambleBit, Prod.mk.injEq, true_and]
  omega

/-- Training rows set both ends' states to the same value (R126). -/
theorem trained_alike (l : LinkSt) (n : Nat) (r : Row) : (l.trainRows n r).scr = l.trainedRx.dscr := rfl

end Sys2Proof.Machine
end

