-- ==== Sys2Proof/Laws/Memory.lean ====
section
/-!
SUPPORT. The canonical form of the memory through each operation that writes it: bytes put, a record folded in place, the bytes a
reset keeps.
-/
namespace Sys2Proof.Machine
variable (s : State)

/-- A choice between two states has the memory that both have. -/
theorem ite_mem_eq {c : Prop} [Decidable c] {t u : State} {m : List Host.Cell} (h : t.mem = m) (k : u.mem = m) :
    (if c then t else u).mem = m := by
  split
  · exact h
  · exact k

theorem teleAdd_mem (i n : Nat) : (s.teleAdd i n).mem = s.mem :=
  ite_mem_eq ((setFld_mem ..).trans (setFld_mem ..))
    ((orFld_mem ..).trans ((setBit_mem ..).trans ((setFld_mem ..).trans (setFld_mem ..))))

theorem foldl_mem {α : Type} (f : State → α → State) (h : ∀ s a, (f s a).mem = s.mem) (l : List α) : (l.foldl f s).mem = s.mem := by
  induction l generalizing s with
  | nil => rfl
  | cons a l ih => exact (ih _).trans (h s a)

theorem tele_mem (ev inst n : Nat) : (s.tele ev inst n).mem = s.mem :=
  foldl_mem s _ (fun _ _ => ite_mem_eq (teleAdd_mem ..) rfl) _

theorem logModified_mem : s.logModified.mem = s.mem := setReg64_mem ..

theorem wf_ite {c : Prop} [Decidable c] {t u : State} (ht : Memory.wf t.mem = true) (hu : Memory.wf u.mem = true) :
    Memory.wf (if c then t else u).mem = true := by
  split
  · exact ht
  · exact hu

theorem mem_wf_lost (l : LogSt) (h : Memory.wf s.mem = true) :
    Memory.wf (((({ s with log := l } : State).bump F.LOG_LOST_COUNT).orFld F.LOG_ERR_ERR 1).tele 0x15 0).mem = true := by
  rw [tele_mem, orFld_mem, bump_mem]
  exact h

theorem mem_wf_logDrop (e : LogEv) (h : Memory.wf s.mem = true) : Memory.wf (s.logDrop e).mem = true := mem_wf_lost s _ h

/-- Putting an event in the queue leaves memory alone; folding it into the newest record rewrites two fields of that record. -/
theorem mem_wf_logPut (e : LogEv) (w : Bool) (h : Memory.wf s.mem = true) : Memory.wf (s.logPut e w).mem = true := by
  unfold State.logPut
  generalize s.log.queue.getLast? = q
  generalize s.log.newest = n
  cases q with
  | some t => exact wf_ite (by rw [tele_mem]; exact h) (wf_ite h (mem_wf_logDrop s e h))
  | none =>
    cases n with
    | some t =>
      refine wf_ite ?_ h
      rw [tele_mem, logModified_mem]
      exact Tbl.wf_setN _ _ _ _ (Tbl.wf_setN _ _ _ _ h)
    | none => exact h

theorem mem_wf_logHw (typ master : Nat) (payload : List Byte) (fold : Bool) (h : Memory.wf s.mem = true) :
    Memory.wf (s.logHw typ master payload fold).mem = true := mem_wf_logPut s _ _ h

/-- What a reset, or RETAIN, keeps of the memory is canonical when the memory was. -/
theorem mem_wf_keep (p : Host.Cell → Bool) (h : Memory.wf s.mem = true) : Memory.wf (s.mem.filter p) = true :=
  Tbl.wf_filter _ _ p h

theorem mem_wf_reset : Memory.wf State.reset.mem = true := by decide +kernel

/-! ### The columns of the SRAM code (R368) -/

/-- Members picked from a list are different and of the list. -/
theorem pickCols_spec (pick : Nat → Nat) : ∀ (n : Nat) (l : List Nat), l.Nodup → n ≤ l.length →
    (pickCols pick n l).Nodup ∧ (pickCols pick n l).length = n ∧ ∀ x ∈ pickCols pick n l, x ∈ l
  | 0, l, _, _ => by simp [pickCols]
  | n + 1, l, hd, hn => by
    have hk : pick n % l.length < l.length := Nat.mod_lt _ (by omega)
    obtain ⟨h1, h2, h3⟩ := pickCols_spec pick n (l.eraseIdx (pick n % l.length)) (hd.eraseIdx _) (by rw [List.length_eraseIdx_of_lt hk]; omega)
    have hx : l.getD (pick n % l.length) 0 = l[pick n % l.length] := by simp [List.getD_eq_getElem?_getD, hk]
    simp only [pickCols, hx, List.nodup_cons, List.length_cons, h2, List.mem_cons]
    refine ⟨⟨fun hm => ?_, h1⟩, trivial, ?_⟩
    · have := h3 _ hm
      rw [← hd.erase_getElem _ hk] at this
      exact hd.not_mem_erase this
    · rintro x (rfl | hx')
      · exact List.getElem_mem _
      · exact List.mem_of_mem_eraseIdx (h3 _ hx')

/-- The 64 columns differ and have odd weight above one, whatever is picked. -/
theorem hsiaoCols_spec : hsiaoCols.Nodup ∧ hsiaoCols.length = 64 ∧ ∀ c ∈ hsiaoCols, c ∈ oddBytes :=
  pickCols_spec _ 64 oddBytes (by decide +kernel) (by decide +kernel)

end Sys2Proof.Machine
end

