-- ==== Sys2Proof/Laws/RegFront.lean ====
section
/-!
SUPPORT. What a register write comes to when its master may write every field.
-/
namespace Sys2Proof.Machine

theorem accept_mayWrite {s : State} {m : Mst} {off : Nat} (h : s.MayWrite m off) (w : Nat) (fn : Admit → State) :
    s.accept m.toNat off w fn = freeWrite s off w := by
  obtain ⟨-, h⟩ := h
  have ha : (((rowAt off).map (·.fields)).getD []).filter (s.turnsAway m.toNat off) = [] := by
    rw [List.filter_eq_nil_iff]
    intro f hf
    simp [h f hf]
  simp only [State.accept, ha, freeWrite]
  have hw : w % 2 ^ 32 &&& (2 ^ 32 - 1) = w % 2 ^ 32 := by
    rw [Nat.and_two_pow_sub_one_eq_mod, Nat.mod_mod]
  simp only [List.filter_nil, List.isEmpty_nil, List.foldl_nil, if_true, Bool.not_true, Bool.and_false, Bool.false_eq_true,
    if_false, Nat.sub_zero, Nat.and_zero, Nat.or_zero, hw, List.any_nil, Bool.or_false, ite_self]

/-- A register command whose master may write: the register's function, and the port answers that the write was taken. -/
theorem runReg_mayWrite {s : State} {m : Mst} {off : Nat} (hr : s.pwr.phase = .run) (h : s.MayWrite m off) (w : Nat) (f : Admit → State) :
    s.runReg m.toNat off w f = { f (freeWrite s off w) with resp := .ok } := by
  simp only [State.runReg, State.ifRun, hr, if_true, State.regCmd, accept_mayWrite h]
  rfl

@[simp] theorem freeWrite_st (s : State) (off w : Nat) : (freeWrite s off w).st = s := rfl
@[simp] theorem freeWrite_refused (s : State) (off w : Nat) : (freeWrite s off w).refused = false := rfl
@[simp] theorem freeWrite_old (s : State) (off w : Nat) : (freeWrite s off w).old = (s.reg off).toNat := rfl
@[simp] theorem freeWrite_w (s : State) (off w : Nat) : (freeWrite s off w).w = w % 2 ^ 32 := rfl

theorem freeWrite_get (s : State) (off w : Nat) (f : Fld) (h : f.ok) : (freeWrite s off w).get f = bits w f.hi f.lo :=
  bits_mod _ _ _ _ h.2

theorem bits_mask (hi lo : Nat) (h : lo ≤ hi) (h' : hi < 32) : bits (2 ^ 32 - 1) hi lo = 2 ^ (hi + 1 - lo) - 1 := by
  apply Nat.eq_of_testBit_eq
  intro i
  rw [bits_testBit, Nat.testBit_two_pow_sub_one, Nat.testBit_two_pow_sub_one]
  by_cases h1 : i < hi + 1 - lo
  · have : lo + i < 32 := by omega
    simp [h1, this]
  · simp [h1]

theorem freeWrite_took (s : State) (off w : Nat) (f : Fld) (h : f.ok) : (freeWrite s off w).took f = true := by
  have hb := bits_mask f.hi f.lo h.1 h.2
  have hp : 2 ^ 1 ≤ 2 ^ (f.hi + 1 - f.lo) := Nat.pow_le_pow_right (by omega) (by have := h.1; omega)
  have : bits (freeWrite s off w).mask f.hi f.lo = 2 ^ (f.hi + 1 - f.lo) - 1 := hb
  simp only [Admit.took, this]
  simp
  omega

theorem freeWrite_one (s : State) (off w : Nat) (f : Fld) (h : f.ok) : (freeWrite s off w).one f = (bits w f.hi f.lo == 1) := by
  have : (freeWrite s off w).w &&& (freeWrite s off w).mask = w % 2 ^ 32 := by
    show w % 2 ^ 32 &&& (2 ^ 32 - 1) = _
    rw [Nat.and_two_pow_sub_one_eq_mod, Nat.mod_mod]
  rw [Admit.one, this, bits_mod _ _ _ _ h.2]

/-- The Keeper may write a register that no lock holds (R3, R399, R549). -/
theorem mayWrite_keeper {s : State} {off : Nat} (hrow : (rowAt off).isSome = true) (hl : s.lockedAt off = false)
    (hr : s.regionLocked off = false) : s.MayWrite 12 off := by
  refine ⟨hrow, fun f _ => ?_⟩
  have : (12 : Mst).toNat = 12 := rfl
  unfold State.turnsAway
  rw [this, hr, hl]
  cases f.guard <;> simp

end Sys2Proof.Machine
end

