-- ==== Sys2Proof/Tests/Slice0.lean ====
section
/-!
SUPPORT. Tests: commands on small states, whose expected results come from the rules of the spec; ill-formed terms that the checks refuse; and for every
statement (meets_<name>) states and operands that meet its hypotheses.
-/
open Sys2Proof Sys2Proof.Machine
namespace Sys2Proof.Tests
set_option Elab.async false

/-! ### Small states -/

/-- The Keeper's registers after reset, changed by `f`. -/
def kSt (f : CoreSt → CoreSt) : State := State.reset.setCore 12 (f (State.reset.core 12))
/-- Application core `c` released in S mode at the start of general SRAM, its registers changed by `f`. -/
def aSt (c : Nat) (f : CoreSt → CoreSt) : State :=
  State.reset.setCore c (f { State.reset.core c with run := .running, pc := 0x4000000000 })
/-- Sequencer `k` RUNNING at the start of its own quarter of sequencer SRAM, its registers changed by `f`. -/
def tSt (k : Nat) (f : CoreSt → CoreSt) : State :=
  (State.reset.setFld (F.TICK_SQ_STATUS_STATE k) 2).setCore (8 + k) (f { State.reset.core (8 + k) with pc := BitVec.ofNat 64 (0x4300000000 + 0x40000 * k) })
/-- Register `i` of core registers holds `v`. -/
def withRg (i : Nat) (v : DWord) (x : CoreSt) : CoreSt := x.setRg i v
/-- A word of the register file as state `o` leaves it. -/
def rgAfter (o : Out) (c i : Nat) : DWord := match o with
  | .next t => (t.core c).rg i
  | _ => 0
/-- Predicate register `p` of core `c` after `o`. -/
def prAfter (o : Out) (c p : Nat) : Bool := match o with
  | .next t => (t.core c).pr p
  | _ => false
/-- What `f` shows of the next state. -/
def after {α : Type} (d : α) (o : Out) (f : State → α) : α := match o with
  | .next t => f t
  | _ => d
/-- A write rule of unit `u` for the blocks from `a` to `b`, in force. -/
def rule (u a b : Nat) (s : State) : State :=
  (((s.setLfld (F.MPU_RGN_START_LO_ADDR u 0) (a / 64)).setLfld (F.MPU_RGN_START_HI_ADDR u 0) (a / 2 ^ 32)).setLfld
    (F.MPU_RGN_START_HI_EN u 0) 1).setLfld (F.MPU_RGN_END_LO_ADDR u 0) (b / 64) |>.setLfld (F.MPU_RGN_END_HI_ADDR u 0) (b / 2 ^ 32)
/-- One GiB of DRAM in the map. -/
def dram (s : State) : State := s.setFld F.DDR_TOP_GIB 1

/-! ### Ill-formed terms -/

/-- Fields that must be zero, the reserved predicate field, register groups, and what a core's profile lacks. -/
theorem test_wf_instructions : ([.aluAdd 0 8 1 2 3, .aluClz 0 0 1 2 3, .shi 0 0 1 2 1 0 5, .ldq 0 0 1 2 0, .stq 0 0 6 2 0, .cmp 0 0 1 2 3 4 1, .predAnd 0 0 1 2 3 1,
    .sel 0 0 1 2 3 4 1, .trap 0 0 1 0, .breakpoint 0 0 0 1, .eret 8 0 0 0, .eret 0 0 0 1, .wfi 11 0 0 0, .syncAll 0 0 1, .csrrw 12 0 1 2 0x030, .csrrs 8 0 1 2 0x001,
    .csrrc 0 0 1 2 0x00A, .wdkick 8 0 1 2, .br 0 8 0, .lb 0 8 0 0 0, .sd 0 8 0 0 0, .cas 0 8 0 0 0, .cacheZero 0 8 0 0, .addi 0 8 0 0 0, .lui 0 8 0 0,
    .cmpi 0 8 0 0 0 0] : List Instr).all (fun i => !i.wellFormed) = true := by decide +kernel
theorem test_wf_sequencer_instructions : ([.waitTick 0 0 0, .waitTick 8 0 1, .inbox 12 0 1 2 0, .ldsc 8 0 1 2 3 0, .ldsc 8 0 0 2 3 1, .chamOpen 8 0 1 2 0, .chamOpen 8 0 0 2 1,
    .chamAdd 8 0 1 2 3, .chamStat 8 0 1 2 3, .chamCancel 8 0 1 2 3, .flip 8 0 1 2 3 0, .flip 8 0 0 2 3 1, .fwait 8 0 1 2 3 0, .fsig 8 0 1 2 3 1, .kdec 8 0 0 2 3 1,
    .kenc 8 0 1 2 3 0, .logEv 8 0 2 0 1, .logEv 8 0 4 1 1] : List Instr).all (fun i => !i.wellFormed) = true := by decide +kernel
/-- Masters that R24 does not list, offsets that do not latch, and events whose sizes or values the spec excludes. -/
theorem test_wf_commands : ([.regWrite 13 0 0, .timeTripleRead 12 0x30000, .xipReadResume 0x63, .pixels 0 0 3 0 0 false [1], .pixels 0 0 0 0 0 false [], .frameStart 0 0 3 1 1 0,
    .auData 0 0 0 false [], .cmd 0 true true [], .checkerLockLost 0 0 255, .checkerLockLost 0 0 1025, .dramRead 12 255 2 false ⟨0, ⟨[], 0⟩⟩, .dramRead 12 0 0 false ⟨0, ⟨[], 0⟩⟩, .dramWrite 12 0 ⟨[1], [], ⟨[], 0⟩⟩,
    .dramWrite 12 32 ⟨List.replicate 64 0, [], ⟨[], 0⟩⟩, .ddrFcDone 20001, .agreementMessage 0 0 ⟨0, 0, 0, 0, 0, [1], 0, 0, 0, 0, 0, [], [], 0, 0⟩, .snapData 0 0 0 (List.replicate 33 0),
    .touchBase 0 0 0 0 [], .touchTestDone [] [], .bypass 2, .protocolError 22 0 0 0x60 32] : List Instr).all (fun i => !i.wellFormed) = true := by decide +kernel
theorem test_wf_accepts : ([.aluAdd 0 15 1 2 3, .ldq 0 0 28 2 0, .csrrw 7 0 1 2 0x030, .csrrs 12 0 1 2 0x009, .eret 12 0 0 0, .waitTick 11 0 0, .flip 8 0 0 1 2 0, .regWrite 0x7F 0 0,
    .timeTripleRead 12 0x20024, .dramWrite 12 32 ⟨List.replicate 32 0, [], ⟨[], 0⟩⟩, .checkerLockLost 0 0 256, .bypass 0xFF, .protocolError 22 0 0 0x13 8, .idcode] : List Instr).all
    (fun i => i.wellFormed) = true := by decide +kernel

/-! ### Cores -/

theorem test_add_wraps : rgAfter (exec (.aluAdd 12 0 3 1 2) (kSt (withRg 1 (BitVec.allOnes 64) ∘ withRg 2 2))) 12 3 = 1 := by decide +kernel
theorem test_sub_order : rgAfter (exec (.aluSub 12 0 3 1 2) (kSt (withRg 1 5 ∘ withRg 2 7))) 12 3 = -2 := by decide +kernel
theorem test_andn : rgAfter (exec (.aluAndn 12 0 3 1 2) (kSt (withRg 1 0xF0 ∘ withRg 2 0x30))) 12 3 = 0xC0 := by decide +kernel
theorem test_sll_mod64 : rgAfter (exec (.aluSll 12 0 3 1 2) (kSt (withRg 1 3 ∘ withRg 2 65))) 12 3 = 6 := by decide +kernel
theorem test_sra_sign : rgAfter (exec (.aluSra 12 0 3 1 2) (kSt (withRg 1 (-8) ∘ withRg 2 2))) 12 3 = -2 := by decide +kernel
theorem test_ror : rgAfter (exec (.aluRor 12 0 3 1 2) (kSt (withRg 1 1 ∘ withRg 2 1))) 12 3 = 0x8000000000000000 := by decide +kernel
theorem test_mulh_signed : rgAfter (exec (.aluMulh 12 0 3 1 2) (kSt (withRg 1 (-1) ∘ withRg 2 (-1)))) 12 3 = 0 := by decide +kernel
theorem test_mulhu : rgAfter (exec (.aluMulhu 12 0 3 1 2) (kSt (withRg 1 (-1) ∘ withRg 2 (-1)))) 12 3 = -2 := by decide +kernel
theorem test_div_by_zero : rgAfter (exec (.aluDiv 12 0 3 1 2) (kSt (withRg 1 9))) 12 3 = -1 := by decide +kernel
theorem test_div_least : rgAfter (exec (.aluDiv 12 0 3 1 2) (kSt (withRg 1 0x8000000000000000 ∘ withRg 2 (-1)))) 12 3 = 0x8000000000000000 := by
  decide +kernel
theorem test_rem_by_zero : rgAfter (exec (.aluRem 12 0 3 1 2) (kSt (withRg 1 9))) 12 3 = 9 := by decide +kernel
theorem test_rem_sign : rgAfter (exec (.aluRem 12 0 3 1 2) (kSt (withRg 1 (-7) ∘ withRg 2 2))) 12 3 = -1 := by decide +kernel
theorem test_min_signed : rgAfter (exec (.aluMin 12 0 3 1 2) (kSt (withRg 1 (-1) ∘ withRg 2 1))) 12 3 = -1 := by decide +kernel
theorem test_minu : rgAfter (exec (.aluMinu 12 0 3 1 2) (kSt (withRg 1 (-1) ∘ withRg 2 1))) 12 3 = 1 := by decide +kernel
theorem test_clz_zero : rgAfter (exec (.aluClz 12 0 3 1 0) (kSt id)) 12 3 = 64 := by decide +kernel
theorem test_ctz : rgAfter (exec (.aluCtz 12 0 3 1 0) (kSt (withRg 1 8))) 12 3 = 3 := by decide +kernel
theorem test_popc : rgAfter (exec (.aluPopc 12 0 3 1 0) (kSt (withRg 1 0xF1))) 12 3 = 5 := by decide +kernel
theorem test_sextw : rgAfter (exec (.aluSextw 12 0 3 1 0) (kSt (withRg 1 0x180000000))) 12 3 = 0xFFFFFFFF80000000 := by decide +kernel
theorem test_addi_negative : rgAfter (exec (.addi 12 0 3 1 0xFFF) (kSt (withRg 1 5))) 12 3 = 4 := by decide +kernel
theorem test_ori_zero_extends : rgAfter (exec (.ori 12 0 3 1 0xFFF) (kSt id)) 12 3 = 0xFFF := by decide +kernel
theorem test_andi_sign_extends : rgAfter (exec (.andi 12 0 3 1 0xFFF) (kSt (withRg 1 (-1)))) 12 3 = -1 := by decide +kernel
theorem test_g0_discards : rgAfter (exec (.addi 12 0 0 1 7) (kSt id)) 12 0 = 0 := by decide +kernel
theorem test_lui : rgAfter (exec (.lui 12 0 3 0x10000) (kSt id)) 12 3 = 0xFFFFFFFFF0000000 := by decide +kernel
theorem test_auipc : rgAfter (exec (.auipc 12 0 3 1) (kSt id)) 12 3 = 0x5F00001000 := by decide +kernel
theorem test_cmp_lt_signed : prAfter (exec (.cmp 12 0 1 2 1 2 0) (kSt (withRg 1 (-1)))) 12 1 = true := by decide +kernel
theorem test_cmpi_ltu_extends : prAfter (exec (.cmpi 12 0 1 4 1 0x7FF) (kSt (withRg 1 5))) 12 1 = true := by decide +kernel
theorem test_pred_andn : prAfter (exec (.predAndn 12 0 1 0 2 0) (kSt id)) 12 1 = true := by decide +kernel
theorem test_sel_false : rgAfter (exec (.sel 12 0 3 1 2 1 0) (kSt (withRg 1 5 ∘ withRg 2 7))) 12 3 = 7 := by decide +kernel
theorem test_br_back : after 0 (exec (.br 12 0 0x3FFFFF) (kSt id)) (fun t => (t.core 12).pc) = 0x5EFFFFFFFC := by decide +kernel
theorem test_call_links : rgAfter (exec (.call 12 0 4) (kSt id)) 12 31 = 0x5F00000004 := by decide +kernel
theorem test_jr_misaligned : after 0 (exec (.jr 12 0 3 1 2) (kSt id)) (fun t => (t.core 12).ecause) = 1 := by decide +kernel
theorem test_trap_code : after 0 (exec (.trap 12 0 0 9) (kSt id)) (fun t => (t.core 12).eval) = 9 := by decide +kernel
theorem test_eret_mode : after 0 (exec (.eret 0 0 0 0) (aSt 0 (fun x => { x with estatus := 0x19, epc := 0x40 })))
    (fun t => (t.core 0).status) = 9 := by decide +kernel
theorem test_sq_fault : after 0 (exec (.trap 8 0 0 9) (tSt 0 id)) (fun t => t.fld (F.TICK_SQ_FAULT_CODE 0)) = 6 := by decide +kernel
theorem test_predicate_false : rgAfter (exec (.addi 12 1 3 1 7) (kSt id)) 12 3 = 0 := by decide +kernel

/-- Each profile has a core that executes: premise of every statement on instructions. -/
theorem meets_Executes : (kSt id).Executes 12 0 ∧ (aSt 7 id).Executes 7 0 ∧ (tSt 0 id).Executes 8 15 ∧ (tSt 3 id).Executes 11 0 := by
  decide +kernel
/-- CoreRegisterFile: registers other than the fixed ones. -/
theorem meets_CoreRegisterFile : (31 : BitVec 5) ≠ 0 ∧ (1 : BitVec 5) ≠ 31 ∧ (7 : BitVec 3) ≠ 0 ∧ (1 : BitVec 3) ≠ 7 := by decide
/-- AluTwoOperandResults, UnaryAndImmediateResults and ConditionsAndPredicates: the one premise, with a predicate other than p0. -/
theorem meets_AluTwoOperandResults : (kSt (fun x => x.setPr 7 true)).Executes 12 7 := by decide +kernel
/-- BranchTargets: both kinds of target of JR. -/
theorem meets_BranchTargets :
    (kSt (withRg 1 4)).Executes 12 0 ∧ (((kSt (withRg 1 4)).core 12).rg 1 + (0 : BitVec 12).signExtend 64).extractLsb' 0 2 = 0 ∧
    (((kSt (withRg 1 4)).core 12).rg 1 + (3 : BitVec 12).signExtend 64).extractLsb' 0 2 ≠ 0 := by decide +kernel
/-- ExceptionEntry: a first exception, a second one of an A core and of the Keeper; a T core needs no premise. -/
theorem meets_ExceptionEntry :
    (((kSt id).core 12).exl = false ∧ ((kSt id).core 12).nmil = false) ∧
    ((aSt 7 (fun x => { x with status := 0xA })).core 7).exl = true ∧
    (((kSt (fun x => { x with status := 0x1C })).core 12).nmil = true ∧ (kSt (fun x => { x with status := 0x1C })).pwr.phase = .run) := by
  decide +kernel
/-- TrapBreakEret: BREAK with and without the debug master, ERET in user mode and in S mode. -/
theorem meets_TrapBreakEret :
    ((kSt id).Executes 12 0 ∧ (kSt id).tap.ir ≠ 0x20 ∧ ((kSt id).core 12).mode ≠ 0) ∧
    (let s := { kSt id with tap := { (kSt id).tap with ir := 0x20 } }; s.Executes 12 0 ∧ s.tap.ir = 0x20) ∧
    (let s := aSt 0 (fun x => { x with status := 0 }); s.Executes 0 0 ∧ (s.core 0).mode = 0) := by decide +kernel

/-! ### Loads and stores, atomics, caches, CSRs, waiting -/

/-- Register 1 of the Keeper holds the start of the island. -/
def kIsl (f : CoreSt → CoreSt) : State := kSt (f ∘ withRg 1 0x4100000000)
theorem test_store_then_load : after 0 (exec (.sh 12 0 2 1 6) (kIsl (withRg 2 0x81FE))) (fun t => rgAfter (exec (.lh 12 0 3 1 6) t) 12 3) =
    0xFFFFFFFFFFFF81FE := by decide +kernel
theorem test_lbu_zero_extends : rgAfter (exec (.lbu 12 0 3 1 0) { kIsl id with mem := [(0x4100000000, 0x80)] }) 12 3 = 0x80 := by decide +kernel
theorem test_lw_little_endian : rgAfter (exec (.lw 12 0 3 1 0) { kIsl id with mem := [(0x4100000000, 1), (0x4100000003, 0x80)] }) 12 3 =
    0xFFFFFFFF80000001 := by decide +kernel
theorem test_ldq_group : rgAfter (exec (.ldq 12 0 4 1 0) { kIsl id with mem := [(0x4100000018, 9)] }) 12 7 = 9 := by decide +kernel
theorem test_load_misaligned : rgAfter (exec (.lh 12 0 3 1 1) (kIsl id)) 12 3 = 0 ∧
    after 0 (exec (.lh 12 0 3 1 1) (kIsl id)) (fun t => (t.core 12).eval) = 0x4100000001 := by decide +kernel
theorem test_store_refused : after 0 (exec (.sd 12 0 2 1 0) (kSt (withRg 1 0x4200000000))) (fun t => (t.core 12).ecause) = 11 := by decide +kernel
theorem test_cas_equal : after 0 (exec (.cas 12 0 3 1 2) (kIsl (withRg 2 7))) (fun t => t.mem64 0x4100000000) = 7 := by decide +kernel
theorem test_amo_add_returns_old : rgAfter (exec (.amoAdd 12 0 3 1 2) { kIsl (withRg 2 7) with mem := [(0x4100000000, 5)] }) 12 3 = 5 := by
  decide +kernel
theorem test_cache_zero : after 1 (exec (.cacheZero 12 0 1 8) { kIsl id with mem := [(0x4100000007, 5)] }) (fun t => t.byte 0x4100000007) = 0 := by
  decide +kernel
theorem test_csrrs_returns_old : rgAfter (exec (.csrrs 12 0 3 1 6) (kSt (withRg 1 6 ∘ fun x => { x with scratch0 := 9 }))) 12 3 = 9 ∧
    after 0 (exec (.csrrs 12 0 3 1 6) (kSt (withRg 1 6 ∘ fun x => { x with scratch0 := 9 }))) (fun t => (t.core 12).scratch0) = 15 := by
  decide +kernel
theorem test_coreid : rgAfter (exec (.csrrw 12 0 3 0 0x10) (kSt id)) 12 3 = 0x20C := by decide +kernel
theorem test_wfi_waits : after true (exec (.wfi 12 0 0 0) (kSt id)) (fun t => (t.core 12).run == .wfi) = true := by decide +kernel

/-- A core whose interrupts are on. -/
def irqOn (x : CoreSt) : CoreSt := { x with status := x.status ||| 1 }
/-- Line 256 pending, enabled with PRIO 1, its target `t`. -/
def line256 (t : Nat) (s : State) : State :=
  (((s.setFld (F.ICTL_CFG_EN 256) 1).setFld (F.ICTL_CFG_PRIO 256) 1).setFld (F.ICTL_CFG_TARGET 256) t).setReg (R.ICTL_PEND 8) 1
/-- A dirty line at address 0 that core 0 stored into. -/
def dirty (bad : Bool) : Line := ⟨0, List.replicate 64 7, bad, false, [0]⟩
/-- Core 0 in its own mode or in user mode. -/
def user (x : CoreSt) : CoreSt := { x with status := 0 }

theorem meets_PredicateFalseDoesNothing : coreOf (.kenc 8 1 0 0 0 0) = some (8, 1) ∧ (tSt 0 id).Fetches 8 ∧ ((tSt 0 id).core 8).holds 1 = false ∧
    coreOf (.addi 12 8 0 0 0) = some (12, 8) ∧ (kSt id).Fetches 12 ∧ ((kSt id).core 12).holds 8 = false ∧
    (Instr.kenc 8 1 0 0 0 0).wellFormed = true ∧ (Instr.addi 12 8 0 0 0).wellFormed = false ∧
    (let s := { aSt 7 id with chk := [(0x4000000000, 1)] }; s.Corrects 7 ∧ (s.core 7).holds 0 = true) := by and_intros <;> decide +kernel
/-- LoadResults, clause by clause: SRAM at its last group; DRAM of a T core; a dirty line; a line not held; a misaligned address; an address
outside the map; a poisoned word; a user-mode read of register space. -/
theorem meets_LoadResults :
    ((kSt (withRg 1 0x41000FFFE0)).Executes 12 0 ∧ 0x41000FFFE0 % 32 = 0 ∧ (kSt (withRg 1 0x41000FFFE0)).PlainSram 12 0x41000FFFE0 32) ∧
    ((dram (tSt 0 id)).Executes 8 0 ∧ (dram (tSt 0 id)).PlainDram 8 0x3FFFFFE0 32) ∧
    (let s := { dram (aSt 0 id) with lines := [dirty false] }
     s.Executes 0 0 ∧ s.region 32 = .dram ∧ s.NoneWaits 0 32 32 ∧ s.retired 32 = false ∧ s.lineAt 32 = some (dirty false)) ∧
    (let s := dram (aSt 0 id); s.Executes 0 0 ∧ s.lineAt 0x3FFFFFC0 = none ∧ s.NoneWaits 0 0x3FFFFFC0 1 ∧ s.PlainDram 0 0x3FFFFFC0 64) ∧
    ((kSt id).Executes 12 0 ∧ 0x4100000001 % 2 ≠ 0) ∧
    ((kSt id).region 0x4000E00000 = .none ∧ ((kSt id).core 12).stores = []) ∧
    (let s := { kSt id with chk := [(0x4100000008, 0xFF)] }
     s.Executes 12 0 ∧ (s.regionN 0x4100000008 4).sram = true ∧ s.NoneWaits 12 0x4100000008 4 ∧ s.delta (0x4100000008 / 8 * 8) = 0xFF ∧
       (unitsOf .gen 0x4100000008 4).all (fun u => s.delta u == 0 || s.delta u == 0xFF) = true) ∧
    (let s := aSt 0 user; s.Executes 0 0 ∧ s.region 0x5000FFFFFC = .reg ∧ (s.core 0).mode = 0 ∧
       ¬(0x5000FFFFFC / 0x10000 % 256 = 7 ∧ s.bit F.TELE_CTL_USER = true)) := by and_intros <;> decide +kernel
/-- StoreResults: misaligned; register space in user mode; an A core's store to SRAM and to DRAM; a store of the Keeper to the island and,
under a rule, to DRAM; a refused store. -/
theorem meets_StoreResults :
    ((kSt id).Executes 12 0 ∧ 0x4100000004 % 8 ≠ 0) ∧
    ((aSt 0 user).Executes 0 0 ∧ (aSt 0 user).region 0x5000000000 = .reg ∧ ((aSt 0 user).core 0).mode = 0) ∧
    ((aSt 7 id).Executes 7 0 ∧ (aSt 7 id).region 0x4000DFFFFF = .gen ∧ (dram (aSt 7 id)).Executes 7 0 ∧ (dram (aSt 7 id)).region 0 = .dram ∧
      (dram (aSt 7 id)).retired 0 = false) ∧
    ((kSt id).PlainSram 12 0x41000FFFE0 32 ∧ (kSt id).judge 12 0x41000FFFE0 = .permit) ∧
    (let s := rule 12 0 0xFC0 (dram (kSt id)); s.Executes 12 0 ∧ s.region 0xFE0 = .dram ∧ s.fc.stage ≠ .change ∧ s.retired 0xFE0 = false ∧ s.lineAt 0xFE0 = none ∧
      s.permits 12 0xFE0 = true ∧ s.permits 12 0x1000 = false) ∧
    (let s := { rule 8 0 0xFC0 (dram (tSt 0 id)) with fc := { stage := .change } }
     s.Executes 8 0 ∧ s.region 0xFE0 = .dram ∧ s.fc.stage = .change ∧ s.retired 0xFE0 = false ∧ s.permits 8 0xFE0 = true) ∧
    ((tSt 0 id).Executes 8 0 ∧ (tSt 0 id).judge 8 0x4100000000 = .refuse 2 ∧ (tSt 0 id).region 0x4100000000 ≠ .reg) := by and_intros <;> decide +kernel
/-- AtomicResults: a word the core may write, misaligned, register space in user mode, a word outside the regions of R69, DRAM of a T core. -/
theorem meets_AtomicResults :
    ((kSt id).Executes 12 0 ∧ (kSt id).region 0x41000FFFF8 ∈ [Region.gen, .seq, .island] ∧ (kSt id).PlainSram 12 0x41000FFFF8 8 ∧
      (kSt id).judge 12 0x41000FFFF8 = .permit) ∧
    (let s := rule 0 0 0xFC0 (dram (aSt 0 id)); s.Executes 0 0 ∧ s.region 0xFF8 = .dram ∧ s.fc.stage ≠ .change ∧ s.permits 0 0xFF8 = true ∧
      s.retired 0xFF8 = false ∧ s.NoneWaits 0 0xFF8 8 ∧ s.lines.length < 32768 ∧ s.lineAt 0xFF8 = none ∧ s.PlainDram 0 0xFC0 64) ∧
    (let s := { rule 0 0 0xFC0 (dram (aSt 0 id)) with lines := [dirty false] }
     s.lineAt 56 = some (dirty false) ∧ (dirty false).data.length = 64 ∧ s.permits 0 56 = true ∧ s.lines.length < 32768) ∧
    (let s := { kSt id with chk := [(0x4100000008, 0xFF)] }
     s.Executes 12 0 ∧ s.NoneWaits 12 0x4100000008 8 ∧ s.judge 12 0x4100000008 = .permit ∧ s.delta 0x4100000008 = 0xFF) ∧ 0x4100000004 % 8 ≠ 0 ∧
    ((aSt 0 user).Executes 0 0 ∧ ((aSt 0 user).core 0).mode = 0 ∧ (aSt 0 user).region 0x5000000000 = .reg) ∧
    (((kSt id).core 12).mode ≠ 0 ∧ (kSt id).region 0x4200000000 ∈ [Region.logb, .reg, .rom, .xspi, .none]) ∧
    ((dram (tSt 0 id)).Executes 8 0 ∧ ((dram (tSt 0 id)).core 8).mode ≠ 0 ∧ (dram (tSt 0 id)).region 8 = .dram) := by and_intros <;> decide +kernel
/-- CacheOperations: cores without a data cache; user mode; a line of DRAM that is dirty, that the core may write, not retired; uncached
memory that the core may write. -/
theorem meets_CacheOperations :
    ((tSt 0 id).Executes 8 0 ∧ ((tSt 0 id).core 8).mode ≠ 0) ∧ ((aSt 0 user).Executes 0 0 ∧ ((aSt 0 user).core 0).mode = 0) ∧
    (let s := { rule 0 0 0 (dram (aSt 0 id)) with lines := [dirty true] }
     s.Executes 0 0 ∧ s.region 63 = .dram ∧ s.retired 0 = false ∧ (s.core 0).stores = [] ∧ (s.core 0).mode ≠ 0 ∧ s.permits 0 0 = true ∧
       s.lines.length < 32768 ∧ s.fc.stage ≠ .change ∧ s.lineAt 63 = some (dirty true) ∧ (dirty true).writers.all (fun w => s.permits w 0) = true) ∧
    (((kSt id).core 12).stores = [] ∧ (kSt id).region 0x4100000000 ∈ [Region.gen, .seq, .island] ∧ (kSt id).judge 12 0x4100000000 = .permit) ∧
    (let s := rule 12 0 0 (dram (kSt id)); s.Executes 12 0 ∧ (s.core 12).stores = [] ∧ s.region 63 = .dram ∧ s.fc.stage ≠ .change ∧ s.retired 0 = false ∧
       s.lineAt 63 = none ∧ s.judge 12 0 = .permit) := by and_intros <;> decide +kernel
/-- WaitingAndBarriers: WFI with nothing due and with an interrupt due that STATUS.IE keeps out, in user mode; a core in WFI; both kinds of
core for SYNC. -/
theorem meets_WaitingAndBarriers :
    ((kSt id).Executes 12 0 ∧ ((kSt id).core 12).mode ≠ 0 ∧ (kSt id).external 8 = false) ∧
    ((line256 8 (kSt id)).Executes 12 0 ∧ (line256 8 (kSt id)).external 8 = true) ∧
    ((aSt 0 user).Executes 0 0 ∧ ((aSt 0 user).core 0).mode = 0) ∧
    (let s := kSt (fun x => { x with run := .wfi }); s.pwr.phase = .run ∧ (s.core 12).run = .wfi) ∧
    (aSt 7 id).Executes 7 0 ∧ (aSt 7 id).fc.stage ≠ .change ∧ (tSt 0 id).Executes 8 0 ∧
    (let s := { dram (aSt 7 fun x => { x with stores := [⟨64, [1]⟩] }) with fc := { stage := .change } }
     s.Executes 7 0 ∧ s.storesWait 7 = true) := by and_intros <;> decide +kernel
/-- CsrReadsAndWrites: each profile in S or K mode; a CSR that T cores do not have, and one that none has. -/
theorem meets_CsrReadsAndWrites : ((kSt id).Executes 12 0 ∧ ((kSt id).core 12).mode ≠ 0) ∧ ((tSt 0 id).Executes 8 0 ∧ ((tSt 0 id).core 8).mode ≠ 0) ∧
    ((aSt 7 id).Executes 7 0 ∧ ((aSt 7 id).core 7).mode ≠ 0) ∧ (0x001 : BitVec 12).toNat = 1 ∧ (0xFFF : BitVec 12).toNat = 4095 := by and_intros <;> decide +kernel
/-- BoundaryEntries: an NMI; a notice; an external interrupt; a waiting store that is permitted and one that is refused; a dirty line. -/
theorem meets_BoundaryEntries :
    (let s := kSt (fun x => { x with nmi := true }); s.pwr.phase = .run ∧ s.executing 12 = true ∧ (s.core 12).nmi = true ∧ (s.core 12).nmil = false) ∧
    (let s := aSt 7 (fun x => { irqOn x with notice := some 64 }); s.executing 7 = true ∧ (s.core 7).nmi = false ∧ (s.core 7).ie = true ∧
       (s.core 7).exl = false ∧ (s.core 7).nmil = false ∧ (s.core 7).notice = some 64) ∧
    (let s := line256 8 (kSt irqOn); s.executing 12 = true ∧ (s.core 12).ie = true ∧ (s.core 12).notice = none ∧ s.external 8 = true) ∧
    (let s := rule 7 0x4000000000 0x4000000000 (aSt 7 (fun x => { x with stores := [⟨0x4000000038, [1, 2, 3, 4, 5, 6, 7, 8]⟩] }))
     s.pwr.phase = .run ∧ (s.regionN 0x4000000038 8).sram = true ∧ (unitsOf .gen 0x4000000038 8).all (fun u => s.delta u == 0) = true ∧
       s.judge 7 0x4000000038 = .permit ∧ s.judge 7 0x4000000040 = .refuse 0 ∧
       s.dramWaits 7 0x4000000040 = false) ∧
    (let s := { dram (aSt 7 fun x => { x with stores := [⟨64, [1]⟩] }) with fc := { stage := .change } }
     s.pwr.phase = .run ∧ s.dramWaits 7 64 = true) ∧
    (let s := { rule 0 0 0 (dram State.reset) with lines := [dirty true] }
     s.lineAt ((0 : BitVec 30).toNat * 64) = some (dirty true) ∧ (dirty true).writers.all (fun w => s.permits w 0) = true ∧ s.retired 0 = false ∧ s.fc.stage ≠ .change) ∧
    ({ State.reset with fc := { stage := .change } } : State).waits .dram = true := by and_intros <;> decide +kernel

/-! ### Interrupt controller, watchdogs, sequencers -/

theorem test_claim_lowest_number : after .none (exec (.ictlClaim 8 12) (((line256 8 State.reset).setReg (R.ICTL_CFG 257)
    ((line256 8 State.reset).reg (R.ICTL_CFG 256))).setReg (R.ICTL_PEND 8) 3)) (fun t => t.resp) = .value 256 := by decide +kernel
theorem test_claim_none : after .none (exec (.ictlClaim 8 12) State.reset) (fun t => t.resp) = .value 0x80000000 := by decide +kernel
theorem test_swi_set : after 0 (exec (.ictlSwiSet 12 300) State.reset) (fun t => t.reg (R.ICTL_PEND 9)) = 0x1000 := by decide +kernel
theorem test_sq_enable_waits : after 0 (exec (.sqEnable 12 3 1) State.reset) (fun t => t.fld (F.TICK_SQ_STATUS_STATE 3)) = 1 := by decide +kernel
theorem test_sq_desc_range : after 0 (exec (.sqOwnershipWrite 12 0 2 0x00013FFF) State.reset) (fun t => t.fld (F.TICK_SQ_DESC_COUNT 0)) = 1 ∧
    after 0 (exec (.sqOwnershipWrite 12 0 2 0x00023FFF) State.reset) (fun t => t.fld F.TICK_STATUS_CFG_REFUSED) = 1 := by decide +kernel
theorem test_wdog_warn_half : after 0 (exec (.appWdogWarn 2) ((State.reset.setFld (F.ICTL_WDOG_CTL_TIMEOUT 2) 11).setCore 2
    { State.reset.core 2 with run := .running, wdRun := true })) (fun t => t.time.clk) = 3000 := by decide +kernel

/-- Watchdog of core 7 counts down from 10 µs. -/
def wdSt (warned : Nat) : State :=
  ((State.reset.setFld (F.ICTL_WDOG_CTL_TIMEOUT 7) 10).setFld (F.ICTL_WDOG_STAT_WARNED 7) warned).setCore 7
    { State.reset.core 7 with run := .running, wdRun := true }
/-- InterruptController: the writes, a line to claim, none to claim or a claim by another master. -/
theorem meets_InterruptController :
    (State.reset.pwr.phase = .run ∧ (Tbl.wf rstOf (line256 8 State.reset).regs : Bool) = true ∧ State.reset.MayWrite 12 R.ICTL_SWI_SET) ∧
    (State.reset.MayWrite 12 (R.ICTL_PEND 31) ∧ State.reset.MayWrite 12 (R.ICTL_PEND 0) ∧ State.reset.MayWrite 12 (R.ICTL_DONE 8)) ∧
    ((line256 8 State.reset).claimable 8 256 = true ∧ (12 : Mst).toNat = 12) ∧ (0 : Mst).toNat ≠ 12 := by
  and_intros <;> decide +kernel
/-- CoreWatchdogs: EN at 1 and at 0; a watchdog that counts, before and after its warning. -/
theorem meets_CoreWatchdogs :
    State.reset.MayWrite 12 (R.ICTL_WDOG_CTL 7) ∧ (0x80000000 : Word).getLsbD 31 = true ∧ (0 : Word).getLsbD 31 = false ∧
    ((wdSt 0).pwr.phase = .run ∧ ((wdSt 0).core 7).wdRun = true ∧ ((wdSt 0).core 7).run ≠ .held ∧ (wdSt 0).fld (F.ICTL_WDOG_STAT_WARNED 7) ≠ 1) ∧
    ((wdSt 1).fld (F.ICTL_WDOG_STAT_WARNED 7) = 1 ∧ ((wdSt 1).core 7).wdRun = true) := by and_intros <;> decide +kernel
/-- SequencerControl: enabling, disabling, a fault cleared, ownership writes while off, refused and while on. -/
theorem meets_SequencerControl :
    (State.reset.MayWrite 12 (R.TICK_SQ_CTL 3) ∧ State.reset.fld (F.TICK_SQ_CTL_EN 3) = 0 ∧ State.reset.fld (F.TICK_SQ_FAULT_VALID 3) ≠ 1) ∧
    ((State.reset.setFld (F.TICK_SQ_CTL_EN 3) 1).MayWrite 12 (R.TICK_SQ_CTL 3) ∧ (State.reset.setFld (F.TICK_SQ_CTL_EN 3) 1).fld (F.TICK_SQ_CTL_EN 3) = 1) ∧
    ((State.reset.setFld (F.TICK_SQ_FAULT_VALID 3) 1).MayWrite 12 (R.TICK_SQ_FAULT 3) ∧
      (State.reset.setFld (F.TICK_SQ_FAULT_VALID 3) 1).fld (F.TICK_SQ_FAULT_VALID 3) = 1) ∧
    (State.reset.MayWrite 12 (R.TICK_SQ_HEADS 3) ∧ State.reset.MayWrite 12 (R.TICK_SQ_LP 3) ∧ State.reset.MayWrite 12 (R.TICK_SQ_DESC 3)) ∧
    (∀ j : Fin 4, j ≠ 3 → (0xFF : Word) &&& State.reset.reg (R.TICK_SQ_HEADS j.val) = 0) ∧
    ¬(∀ j : Fin 4, j ≠ 3 → (1 : Word) &&& (State.reset.setReg (R.TICK_SQ_HEADS 0) 1).reg (R.TICK_SQ_HEADS j.val) = 0) := by
  and_intros <;> decide +kernel

/-! ### The T profile -/

/-- Sequencer 0 with its registers changed by `f` and descriptors 0 to 15, pipes 0 to 7 and head 0 its own. -/
def sqOwn (f : CoreSt → CoreSt) : State :=
  (((tSt 0 f).setFld (F.TICK_SQ_DESC_COUNT 0) 16).setFld (F.TICK_SQ_LP_COUNT 0) 8).setReg (R.TICK_SQ_HEADS 0) 1
/-- A member on pipe 0 and head 0, and chamber `n` holding it. -/
def member0 : Member := ⟨List.replicate 64 0, 0, 0, 0, 0, false, none⟩
def chamWith (n : Nat) (armed : Bool) (s : State) : State := s.setCham n { members := [member0], armed := armed }
/-- Fence word at the start of general SRAM, in g1, compared with 5 in g2. -/
def fence (v : Nat) : State := { tSt 0 (withRg 1 0x4000000000 ∘ withRg 2 5) with mem := Tbl.set (fun _ => 0) [] 0x4000000000 (BitVec.ofNat 8 v) }

theorem test_inbox : rgAfter (exec (.inbox 8 0 3 0 8) { tSt 0 id with inboxCur := [(9, 1)] }) 8 3 = 0x100 := by decide +kernel
theorem test_inbox_last : after 0 (exec (.inbox 8 0 3 1 0) (tSt 0 (withRg 1 16384))) (fun t => t.fld (F.TICK_SQ_FAULT_CODE 0)) = 0x21 := by
  decide +kernel
theorem test_ldsc_owned : after 0 (exec (.ldsc 8 0 0 1 2 0) (sqOwn (withRg 1 0x4300000000 ∘ withRg 2 16)))
    (fun t => t.fld (F.TICK_SQ_FAULT_CODE 0)) = 0x20 := by decide +kernel
theorem test_chamber_armed : rgAfter (exec (.chamStat 8 0 3 1 0) (chamWith 5 true (tSt 0 (withRg 1 5)))) 8 3 = 0x101 := by decide +kernel
theorem test_cancel : rgAfter (exec (.chamCancel 8 0 3 1 0) (chamWith 5 true (tSt 0 (withRg 1 5)))) 8 3 = 1 := by decide +kernel
theorem test_fwait_equal : after 9 (exec (.fwait 8 0 0 1 2 0) (fence 5)) (fun t => t.fld (F.TICK_SQ_STATUS_STATE 0)) = 2 := by decide +kernel
theorem test_fwait_below : after 9 (exec (.fwait 8 0 0 1 2 0) (fence 4)) (fun t => t.fld (F.TICK_SQ_STATUS_STATE 0)) = 3 := by decide +kernel
theorem test_kdec_bad_context : after 0 (exec (.kdec 8 0 0 1 2 0) (tSt 0 (withRg 1 128 ∘ withRg 2 0x4300000000)))
    (fun t => t.fld (F.TICK_SQ_FAULT_CODE 0)) = 0x23 := by decide +kernel

/-- TickWaitInboxDescriptorsLog: the offsets of INBOX, the sources and descriptors of LDSC, an event the queue has room for. -/
theorem meets_TickWaitInboxDescriptorsLog :
    (tSt 3 id).Executes 11 0 ∧ (16376 % 8 = 0 ∧ 16376 < 16384 ∧ 16383 % 8 ≠ 0 ∧ 16384 % 8 = 0) ∧
    (0x4303FFC0 % 64 = 0 ∧ (unitsOf .seq 0x43000FFFC0 64).all (fun u => (tSt 3 id).delta u == 0) = true ∧
      (sqOwn id).fld (F.TICK_SQ_DESC_COUNT 0) = 16 ∧ (sqOwn id).Executes 8 0) ∧
    ((tSt 0 id).log.queue.length < 64 ∧ (tSt 0 id).log.newest.map (fun t =>
      LogEv.folds { typ := 0x8FFF, master := 8, payload := (State.core (tSt 0 id) 8).group 4, time := 0, last := 0, fold := true } t) = some false) := by
  and_intros <;> decide +kernel
/-- Chambers: a number beyond the last and one of another sequencer; an armed and an unarmed chamber, empty and not; a member well formed
and not, owned and not. -/
theorem meets_Chambers :
    (256 ≤ (BitVec.toNat (256 : DWord)) ∧ 64 / 64 ≠ 0) ∧
    ((chamWith 63 true (sqOwn id)).Executes 8 0 ∧ ((chamWith 63 true (sqOwn id)).cham 63).armed = true) ∧
    (((chamWith 63 false (sqOwn id)).cham 63).armed = false ∧ ((chamWith 63 false (sqOwn id)).cham 63).members ≠ [] ∧ ((sqOwn id).cham 63).members = []) ∧
    ((sqOwn id).ownsHead 0 0 = true ∧ (sqOwn id).ownsLp 0 7 = true ∧ (sqOwn id).ownsLp 0 8 = false ∧ (sqOwn id).ownsDesc 0 15 = true) := by
  and_intros <;> decide +kernel
/-- FenceWaitAndSignal: a fence met and not met, that the sequencer may write; misaligned; a sequencer that waits on it. -/
theorem meets_FenceWaitAndSignal :
    (let s := rule 8 0x4000000000 0x4000000000 (fence 5)
     s.Executes 8 0 ∧ s.PlainSram 8 0x4000000000 8 ∧ (s.mem64 0x4000000000).toNat = 5 ∧ s.judge 8 0x4000000000 = .permit) ∧
    ((fence 4).mem64 0x4000000000).toNat = 4 ∧ 0x4000000004 % 8 ≠ 0 ∧
    (let s := (fence 5).setWait 0 (.fwait 0x4000000000 5)
     s.pwr.phase = .run ∧ s.waitOf 0 = .fwait 0x4000000000 5 ∧ s.PlainSram 8 0x4000000000 8) := by and_intros <;> decide +kernel
/-- The engine of an enabled decode context `i`, and of an encode context, with a full queue. -/
def decFull (i : Nat) : State :=
  let s := (tSt 0 id).setFld (F.DEC_CTX_CTL_EN i) 1
  s.setDe (s.ctxEngine i) { s.de 0 with queue := List.replicate 16 ⟨i, 0, 0, 0, true, 0⟩ }
def encFull (i : Nat) : State :=
  let s := (tSt 0 id).setFld (F.ENC_CTX_CTL_EN i) 1
  s.setEe (s.encEngine i) { s.ee 0 with queue := List.replicate 16 ⟨i, 0, 0, 0, 0, false, 0, 0, true, 0⟩ }
/-- EngineKicks: contexts that are off, orphaned and on, queues with and without room; a kick that waits. -/
theorem meets_EngineKicks :
    ((tSt 0 id).Executes 8 0 ∧ (unitsOf .seq 0x430003FFC0 64).all (fun u => (tSt 0 id).delta u == 0) = true ∧
      (tSt 0 id).fld (F.DEC_CTX_CTL_EN 127) ≠ 1 ∧ (tSt 0 id).fld (F.ENC_CTX_CTL_EN 31) ≠ 1) ∧
    (let s := (tSt 0 id).setFld (F.DEC_CTX_CTL_EN 127) 1
     s.Executes 8 0 ∧ s.fld (F.DEC_CTX_CTL_EN 127) = 1 ∧ s.ctxState 127 ≠ 5 ∧ (s.de (s.ctxEngine 127)).queue.length < 16) ∧
    ((tSt 0 id).setFlds [(F.DEC_CTX_CTL_EN 127, 1), (F.DEC_CTX_STATUS_STATE 127, 5)]).ctxState 127 = 5 ∧
    (let s := decFull 127
     s.Executes 8 0 ∧ s.fld (F.DEC_CTX_CTL_EN 127) = 1 ∧ s.ctxState 127 ≠ 5 ∧ 16 ≤ (s.de (s.ctxEngine 127)).queue.length) ∧
    (let s := (tSt 0 id).setFld (F.ENC_CTX_CTL_EN 31) 1
     s.fld (F.ENC_CTX_CTL_EN 31) = 1 ∧ s.encState 31 ≠ 5 ∧ (s.ee (s.encEngine 31)).queue.length < 16) ∧
    ((tSt 0 id).setFlds [(F.ENC_CTX_CTL_EN 31, 1), (F.ENC_CTX_STATUS_STATE 31, 5)]).encState 31 = 5 ∧
    (let s := ((tSt 0 id).setFld (F.ENC_CTX_CTL_EN 31) 1).setWait 0 (.kick false 31 [])
     s.pwr.phase = .run ∧ s.waitOf 0 = .kick false 31 [] ∧ (s.ee (s.encEngine 31)).queue.length < 16) ∧
    (let s := (encFull 31).setWait 0 (.kick false 31 [])
     s.pwr.phase = .run ∧ s.waitOf 0 = .kick false 31 [] ∧ (encFull 31).Executes 8 0 ∧ s.fld (F.ENC_CTX_CTL_EN 31) = 1 ∧ s.encState 31 ≠ 5 ∧ 16 ≤ (s.ee (s.encEngine 31)).queue.length) := by and_intros <;> decide +kernel

/-! ### Time and tick -/

theorem test_tick_rate_limits : after 9 (exec (.tickRateWrite 12 0x000A04B0) State.reset) (fun t => t.fld F.TICK_STATUS_CFG_REFUSED) = 0 ∧
    after 9 (exec (.tickRateWrite 12 0x000104B0) State.reset) (fun t => t.fld F.TICK_STATUS_CFG_REFUSED) = 1 := by decide +kernel
theorem test_time_load_ns : after 9 (exec (.timeLoad 12 1) (((State.reset.setReg (R.TIME_SET_0) 0xCA000000).setReg (R.TIME_SET_0 + 4) 0x3B9A)))
    (fun t => t.fld F.TIME_STATUS_STEP_REFUSED) = 1 := by decide +kernel
theorem test_idle_rate : after 0 (step (State.reset.setReg R.TIME_RATE 1)) (fun t => t.time.now) = 2 ^ 41 + 2 := by decide +kernel
theorem test_ts_pop_empty : after 9 (exec (.tsPop 12 1) (State.reset.setFld F.TIME_TS_INFO_VALID 1)) (fun t => t.fld F.TIME_TS_INFO_VALID) = 0 := by
  decide +kernel
theorem test_midpoint_none : after 9 (exec .tickMidpoint State.reset) (fun t => t.time.now) = 0 := by decide +kernel

/-- The tick set to 60 a second, its epoch at 0; tracking, with RUN and the count as given. -/
def tickSt (run n : Nat) : State :=
  ((((State.reset.setFld F.TIME_CTRL_TRACK 1).setFld F.TIME_STATUS_STATE 1).setReg R.TICK_RATE 0x0001003C).setFld
    F.TICK_CTRL_RUN run).setReg R.TICK_COUNT_LO (BitVec.ofNat 32 n)
/-- The same running, tick 1 over and tick 2 due. -/
def tickOn : State := { tickSt 1 1 with time := { (tickSt 1 1).time with nextN := some 2, midDue := true } }

theorem meets_IdleStepIsOneClock : State.reset.pending = [] ∧ State.reset.pwr.phase = .run := by decide +kernel
/-- RegisterReads: no register, the inbox, a latched register, one that latches, its offset. -/
theorem meets_RegisterReads :
    State.reset.pwr.phase = .run ∧ (State.reset.inboxAt 0xFFFFFC = none ∧ rowAt 0xFFFFFC = none) ∧
    ((State.reset.inboxAt 0x98FFFC).isSome = true) ∧
    (State.reset.inboxAt (R.TIME_NOW_0 + 4) = none ∧ (rowAt (R.TIME_NOW_0 + 4)).isSome = true ∧ latchedAt (R.TIME_NOW_0 + 4) = true) ∧
    (State.reset.inboxAt R.TIME_NOW_0 = none ∧ (rowAt R.TIME_NOW_0).isSome = true ∧ latchedAt R.TIME_NOW_0 = false ∧
      (∀ t : Fin 9, R.TIME_NOW_0 ≠ R.ICTL_CLAIM t.val) ∧ ∀ u : Fin 2, R.TIME_NOW_0 ≠ R.MGMT_UART_RX u.val) ∧
    (BitVec.ofNat 24 R.TIME_NOW_0).toNat = R.TIME_NOW_0 ∧
    ((State.reset.cvuLeft 15 = []) ∧
      ({ State.reset with cvus := [(15, [⟨0xC, 0, 1, none⟩])] } : State).cvuLeft 15 ≠ []) := by and_intros <;> decide +kernel
/-- TimeWrites: each write allowed; ACQUIRE and TRACK; a step within and beyond 10 µs, the tick running or not. -/
theorem meets_TimeWrites :
    (State.reset.MayWrite 12 R.TIME_LOAD ∧ State.reset.MayWrite 12 R.TIME_STEP_CTL ∧ State.reset.MayWrite 12 R.TIME_RATE ∧
      State.reset.MayWrite 12 R.TIME_CTRL ∧ State.reset.fld F.TIME_STATUS_STATE = 0) ∧
    ((tickSt 0 0).MayWrite 12 R.TIME_LOAD ∧ (tickSt 0 0).MayWrite 12 R.TIME_STEP_CTL ∧ (tickSt 0 0).fld F.TIME_STATUS_STATE ≠ 0 ∧
      (tickSt 0 0).bit F.TICK_STATUS_RUNNING = false ∧ (tickSt 0 0).fld F.TIME_CTRL_TRACK = 1) ∧
    (let s := ((tickSt 1 0).setFld F.TICK_STATUS_RUNNING 1).setReg R.TIME_STEP_NS 10001
     10000 * 65536 < ((s.reg R.TIME_STEP_NS).toInt * 65536 + 0).natAbs ∧ s.fld F.TIME_STATUS_STATE ≠ 0 ∧ s.bit F.TICK_STATUS_RUNNING = true ∧
       s.MayWrite 12 R.TIME_STEP_CTL) ∧
    ((tickSt 1 0).MayWrite 12 R.TIME_CTRL ∧ (tickSt 1 0).bit F.TICK_CTRL_RUN = true ∧ (0 : Word).getLsbD 16 = false ∧ (0x10000 : Word).getLsbD 16 = true) := by
  and_intros <;> decide +kernel
/-- TimeEvents: a clock that tracks with a limit; an empty and a filled FIFO; an edge that is captured after 500 ms and one that is not. -/
theorem meets_TimeEvents :
    (let s := (tickSt 0 0).setFld F.TIME_CTRL_HOLD_TIMEOUT 1; s.pwr.phase = .run ∧ s.fld F.TIME_STATUS_STATE = 1 ∧ s.fld F.TIME_CTRL_HOLD_TIMEOUT ≠ 0) ∧
    (State.reset.MayWrite 12 R.TIME_TS_POP ∧ State.reset.time.tsFifo = []) ∧
    (let s := { State.reset with time := { State.reset.time with tsFifo := List.replicate 64 ⟨0, 0, 0, 0, 0, 0⟩ } }
     s.pwr.phase = .run ∧ s.MayWrite 12 R.TIME_TS_POP ∧ (s.time.tsFifo.drop 1).length < 64) ∧
    (let u := (State.reset.setFld F.TIME_PPS_CTL_EN 1).advance 50
     u.bit F.TIME_PPS_CTL_EN = true ∧ u.fld F.TIME_PPS_CTL_EDGE = 0 ∧ State.reset.time.ppsSince + 100 ≤ max (2 * State.reset.time.clk + 101) State.reset.time.ppsSince ∧ u.time.ppsLast = none ∧
       u.fld F.TIME_PPS_CTL_LAT * 4096 ≤ u.nowNs * 65536) ∧
    (State.reset.advance 49).bit F.TIME_PPS_CTL_EN = false := by and_intros <;> decide +kernel
/-- TickWrites: each write with RUN at 0 and at 1; a start refused in ACQUIRE and taken in TRACK; a stop. -/
theorem meets_TickWrites :
    (State.reset.pwr.phase = .run ∧ State.reset.MayWrite 12 R.TICK_RATE ∧ State.reset.MayWrite 12 (R.TICK_EPOCH_0 + 4 * 2) ∧
      State.reset.MayWrite 12 (R.TICK_HPHASE 31) ∧ State.reset.MayWrite 12 R.TICK_CTRL) ∧
    (State.reset.fld F.TICK_CTRL_RUN = 0 ∧ State.reset.fld F.TIME_STATUS_STATE = 0) ∧
    ((tickSt 0 0).MayWrite 12 R.TICK_CTRL ∧ (tickSt 0 0).fld F.TICK_CTRL_RUN = 0 ∧ (tickSt 0 0).fld F.TIME_STATUS_STATE ≠ 0 ∧
      (tickSt 0 0).epochNs * 2 ^ 40 ≤ (tickSt 0 0).time.now ∧ (tickSt 0 0).tickDen ≠ 0) ∧
    ((tickSt 1 0).MayWrite 12 R.TICK_CTRL ∧ (tickSt 1 0).fld F.TICK_CTRL_RUN = 1) := by and_intros <;> decide +kernel
/-- TickEvents: a boundary due, nothing older due, a sequencer still running; a midpoint due with and without a step; a release due; nothing due. -/
theorem meets_TickEvents :
    (tickOn.pwr.phase = .run ∧ tickOn.time.nextN = some 2 ∧ tickOn.pair.releaseDue = false ∧
      (tickOn.setFld (F.TICK_SQ_STATUS_STATE 3) 2).fld (F.TICK_SQ_STATUS_STATE 3) = 2) ∧
    (tickOn.time.midDue = true ∧ tickOn.time.armed = none) ∧
    (let s := { tickOn with time := { tickOn.time with armed := some 65536 } }
     s.time.midDue = true ∧ s.time.armed = some 65536 ∧ 0 ≤ ((s.advance 4000000).time.now : Int) + 65536 * 2 ^ 24) ∧
    State.reset.time.midDue = false ∧
    (let s := ({ tickOn with pair := { tickOn.pair with releaseDue := true } }).setFld (F.TICK_SQ_STATUS_STATE 3) 1
     s.pwr.phase = .run ∧ s.pair.releaseDue = true ∧ s.fld (F.TICK_SQ_STATUS_STATE 3) = 1) := by and_intros <;> decide +kernel

/-! ### Barge Link -/

/-- Quad `q` with its directions in states `tx` and `rx`, its link changed by `f`. -/
def linkSt (q tx rx : Nat) (f : LinkSt → LinkSt) : State := (State.reset.setStates q tx rx).setLink q (f (State.reset.link q))
/-- A VC 1 barge of eight bytes, and a barge sent with SEQ 5. -/
def barge1 : Barge := ⟨0x14, 1, 0, List.replicate 8 0, none⟩
def sent5 : SentBarge := ⟨5, 0, barge1⟩

theorem test_wrong_seq_naks : after [] (exec (.protocolError 3 7 0 0x13 8) (linkSt 3 4 4 id)) (fun t => (t.link 3).waiting.map (·.typ)) = [2] := by
  decide +kernel
theorem test_credit_low : after 0 (exec (.credit 0 true 1535 0 0) (linkSt 0 4 4 id)) (fun t => t.fld (F.BL_ERR_CREDIT_LOW 0)) = 1 ∧
    after 1 (exec (.credit 0 true 1536 0 0) (linkSt 0 4 4 id)) (fun t => t.fld (F.BL_ERR_CREDIT_LOW 0)) = 0 := by decide +kernel
theorem test_deskew_retrains : after 9 (exec (.deskewLoss 23) (linkSt 23 4 4 id)) (fun t => t.rxState 23) = 2 := by decide +kernel
theorem test_ack_frees : after [] (exec (.ack 3 5) (linkSt 3 4 4 (fun l => { l with replay := [sent5, { sent5 with seq := 6 }] })))
    (fun t => (t.link 3).replay.map (·.seq)) = [6] := by decide +kernel
theorem test_rate_held : after 0 (exec (.blRateWrite 12 0 0x105) (State.reset.setFld (F.BL_CTRL_TX_EN 0) 1)) (fun t => t.fld (F.BL_ERR_CFG 0)) = 1 := by
  decide +kernel
theorem test_txq_type : after 0 (exec (.blTxqSend 12 20 0x80140001) State.reset) (fun t => t.fld (F.BL_ERR_CFG 20)) = 1 := by decide +kernel

/-- LinkReceive: an expected and another SEQ; discarding, with and without a NAK sent; ACTIVE and idle states; a FRESH bring-up under way. -/
theorem meets_LinkReceive :
    (let s := linkSt 23 4 4 id; s.pwr.phase = .run ∧ s.up 23 = true ∧ (s.link 23).discard = false ∧ (s.link 23).expect = 0 ∧ (s.link 23).nakSent = false ∧
      linkLive (s.rxState 23) = true ∧ s.rxState 23 = 4) ∧
    (let s := linkSt 23 4 4 (fun l => { l with discard := true }); s.up 23 = true ∧ (s.link 23).discard = true ∧ linkLive (s.rxState 23) = true) ∧
    (let s := linkSt 0 4 6 (fun l => { l with nakSent := true, unacked := 15 })
     (s.link 0).discard = false ∧ (s.link 0).nakSent = true ∧ 15 ≤ (s.link 0).unacked ∧ s.rxState 0 = 6 ∧ linkLive (s.rxState 0) = true) ∧
    (let s := linkSt 0 3 4 (fun l => { l with fresh := true }); (s.link 0).fresh = true ∧ s.txState 0 = 3 ∧ s.rxState 0 = 4) := by
  and_intros <;> decide +kernel
/-- LinkAcknowledge: nothing held; the SEQ named held; the SEQ acknowledged last; eight replays made already. -/
theorem meets_LinkAcknowledge :
    (let s := linkSt 23 4 4 id; s.pwr.phase = .run ∧ linkLive (s.rxState 23) = true ∧ (s.link 23).discard = false ∧ (s.link 23).replay = [] ∧
      (s.link 23).acked = 4095 ∧ linkLive (s.txState 23) = true ∧ linkLive ((linkSt 23 0 4 id).txState 23) = false) ∧
    (let s := linkSt 23 4 4 (fun l => { l with replay := [sent5] })
     (s.link 23).replay = [] ++ sent5 :: [] ∧ sent5.seq = (5 : BitVec 12).toNat ∧ linkLive (s.txState 23) = true ∧ (5 : BitVec 12).toNat ≠ (s.link 23).acked ∧
       (s.link 23).discard = false ∧ (s.link 23).replays < 8 ∧ ∀ b ∈ (s.link 23).replay, b.seq ≠ (6 : BitVec 12).toNat) ∧
    (let s := linkSt 23 4 4 (fun l => { l with replay := [sent5], replays := 8 })
     8 ≤ (s.link 23).replays ∧ linkLive (s.rxState 23) = true ∧ (s.link 23).discard = false ∧ (s.link 23).replay ≠ []) := by
  and_intros <;> decide +kernel
/-- LinkCreditsAndSending: before and after the INIT CREDIT; ALIGN due and not; VC 3, a replay, VC 1 with its credits and nothing to send. -/
theorem meets_LinkCreditsAndSending :
    (let s := linkSt 0 4 4 id; s.pwr.phase = .run ∧ linkLive (s.rxState 0) = true ∧ (s.link 0).discard = false ∧ (s.link 0).initSeen = false ∧
      s.txState 0 = 4 ∧ (s.link 0).alignDue = false ∧ (s.link 0).rows < 1024 ∧ (s.link 0).rowBuf.length < 64 ∧ (s.link 0).units = [] ∧ (s.link 0).feed = [] ∧
      (s.link 0).waiting.find? (fun b => b.vc == 3) = none ∧ (s.link 0).resend = [] ∧ ∀ v, v < 3 → (s.link 0).waiting.find? (fun b => b.vc == v) = none) ∧
    ((linkSt 0 4 4 (fun l => { l with initSeen := true, alignDue := true })).link 0).initSeen = true ∧
    (let s := linkSt 0 4 4 (fun l => { l with waiting := [initCredit] }); (s.link 0).waiting.find? (fun b => b.vc == 3) = some initCredit ∧ s.txState 0 = 4) ∧
    (let s := linkSt 0 4 4 (fun l => { l with resend := [5], replay := [sent5] })
     (s.link 0).waiting.find? (fun b => b.vc == 3) = none ∧ s.up 0 = true ∧ (s.link 0).resend = 5 :: [] ∧ (s.link 0).replay.find? (fun x => x.seq == 5) = some sent5) ∧
    (let s := (linkSt 0 4 4 (fun l => { l with waiting := [barge1] })).setFld (creditFld 0 1) 1
     (s.link 0).waiting.find? (fun b => b.vc == 1) = some barge1 ∧ s.up 0 = true ∧ bargeCost barge1.data.length ≤ s.fld (creditFld 0 1) ∧ (linkSt 0 4 0 (fun l => { l with resend := [5] })).up 0 = false ∧
       (s.link 0).waiting.find? (fun b => b.vc == 2) = none ∧ barge1.tag = none ∧ (s.link 0).replay.length < 1024) := by and_intros <;> decide +kernel
/-- LinkTraining: CLOCK; training rows of the expected role and of another in ALIGN and CONFIG; the sixteenth row; FAILED; nothing received or sent. -/
theorem meets_LinkTraining :
    (let s := linkSt 0 1 2 id; s.pwr.phase = .run ∧ s.txState 0 = 1 ∧ s.rxState 0 ≠ 1 ∧ (s.link 0).aus = [] ∧ (s.link 0).units = []) ∧
    (let s := linkSt 0 2 1 id; s.rxState 0 = 1 ∧ s.txState 0 ≠ 1) ∧
    (let s := (linkSt 22 3 3 (fun l => { l with fresh := true, confSent := 15, confGot := 15 })).setFlds [(F.BL_CTRL_TX_EN 22, 1), (F.BL_CTRL_RX_EN 22, 1)]
     s.bit (F.BL_CTRL_RX_EN 22) = true ∧ s.bit (F.BL_CTRL_TX_EN 22) = true ∧ s.rxState 22 = 3 ∧ s.txState 22 = 3 ∧ (s.link 22).fresh = true ∧
       (0 : Byte).toNat = s.blRate 22 ∧ (1 : Byte).toNat ≠ s.blRate 22 ∧ (5 : Byte).toNat ≠ roleWanted 22 ∧ ((linkSt 22 3 3 id).setFld (F.BL_CTRL_RX_EN 22) 1).bit (F.BL_CTRL_TX_EN 22) = false ∧ roleWanted 22 = 0xB ∧ s.deviceId < 2 ^ 32 ∧ 16 ≤ (s.link 22).confSent + 1) ∧
    (let s := (linkSt 0 7 7 id).setFld (F.BL_CTRL_TX_EN 0) 1; s.txState 0 = 7 ∧ s.rxState 0 = 7 ∧ s.bit (F.BL_CTRL_TX_EN 0) = true) := by
  and_intros <;> decide +kernel
/-- LinkIdle: ACTIVE with TX_IDLE at 2 and at 0; asleep with nothing and with something to send. -/
theorem meets_LinkIdle :
    (let s := (linkSt 23 4 4 id).setFld (F.BL_PWR_TX_IDLE 23) 2
     s.pwr.phase = .run ∧ s.txState 23 = 4 ∧ s.fld (F.BL_PWR_TX_IDLE 23) = 2 ∧ (s.link 23).waiting = [] ∧ (s.link 23).replay = [] ∧ (s.link 23).units = [] ∧
       (s.link 23).feed = [] ∧ (s.link 23).rowBuf = [] ∧ (s.link 23).unacked = 0 ∧ s.quadScans 23 = false ∧ s.role = 0 ∧ s.rxState 23 = 4 ∧ ∀ e ∈ s.tests, e.1 < 24) ∧
    ((linkSt 23 4 4 id).fld (F.BL_PWR_TX_IDLE 23) ≠ 1 ∧ (linkSt 23 4 4 id).fld (F.BL_PWR_TX_IDLE 23) ≠ 2) ∧
    (let s := linkSt 0 6 6 id; s.txState 0 = 6 ∧ (s.link 0).waiting = [] ∧ (s.link 0).resend = [] ∧ (s.link 0).units = []) ∧
    (let s := linkSt 0 6 6 (fun l => { l with waiting := [barge1] }); s.txState 0 = 6 ∧ (s.link 0).waiting ≠ []) := by and_intros <;> decide +kernel
/-- LinkRegisters: each write allowed; directions off and on; the TYPEs of BL_TXQ_CMD; a source without poison; a slot map in use and free. -/
theorem meets_LinkRegisters :
    (State.reset.pwr.phase = .run ∧ State.reset.MayWrite 12 (R.BL_CTRL 23) ∧ State.reset.inTest 23 = false ∧ State.reset.bit (F.BL_CTRL_TX_EN 23) = false ∧
      State.reset.bit (F.BL_CTRL_RX_EN 23) = false ∧ State.reset.fld (F.BL_CTRL_RATE 23) = bits (0x300 : Word).toNat 3 0) ∧
    (let s := State.reset.setFlds [(F.BL_CTRL_TX_EN 23, 1), (F.BL_CTRL_RX_EN 23, 1)]
     s.MayWrite 12 (R.BL_CTRL 23) ∧ s.inTest 23 = false ∧ s.bit (F.BL_CTRL_TX_EN 23) = true ∧ s.bit (F.BL_CTRL_RX_EN 23) = true) ∧
    (let s := State.reset.setFld (F.BL_TEST_STAT_IN_TEST 23) 1
     s.MayWrite 12 (R.BL_CTRL 23) ∧ s.inTest 23 = true ∧ (0x1000 : Word).getLsbD 13 = false ∧ bits (0x1000 : Word).toNat 3 0 = s.fld (F.BL_CTRL_RATE 23)) ∧
    (State.reset.MayWrite 12 (R.BL_TXQ_CMD 20) ∧ bits (0x81410001 : Word).toNat 23 16 = 0x41 ∧ bits (0x81410001 : Word).toNat 10 0 = 1 ∧
      State.reset.waits (State.reset.regionN 0 1) = false ∧
      (let s := { dram State.reset with fc := { stage := .change } }; s.MayWrite 12 (R.BL_TXQ_CMD 20) ∧ s.waits (s.regionN 0 1) = true)) ∧
    (State.reset.MayWrite 12 (R.BL_TXQ_CMD 19) ∧ bits (0x80140400 : Word).toNat 23 16 = 0x14 ∧ bits (0x80140000 : Word).toNat 10 0 = 0 ∧
      (((State.reset.written (R.BL_TXQ_CMD 19) 0x80140400).setFld (F.BL_TXQ_CMD_GO 19) 0).read (0x48 + 19) 0 1024).poisoned = false) ∧
    (State.reset.MayWrite 12 (R.BL_HEADMAP 11) ∧ mapSlot 0x80 0 = 128 ∧ mapSlot 0x8080 1 = 128 ∧ State.reset.scanning 0 = false ∧
      (State.reset.setFld (F.HEAD_STATUS_STATE 0) 2).scanning 0 = true) := by and_intros <;> decide +kernel
/-- LinkTestsAndEyeScan: no test and a near loopback; a checker that runs, without and with lock; a generator that sends; an eye scan idle,
running and paused. -/
theorem meets_LinkTestsAndEyeScan :
    (State.reset.pwr.phase = .run ∧ State.reset.MayWrite 12 (R.BL_TEST_CTL 11) ∧ State.reset.MayWrite 12 (R.BL_TEST_INJ 11) ∧ State.reset.MayWrite 12 (R.BL_EYE_CTL 11) ∧
      State.reset.testMode 11 = 0 ∧ State.reset.quadScans 11 = false ∧ State.reset.inTest 11 = false ∧ Tbl.wf (fun _ => {}) State.reset.tests = true) ∧
    (let s := (State.reset.setReg (R.BL_HEADMAP 11) 0x80).setFld (F.HEAD_STATUS_STATE 0) 2; s.quadScans 11 = true ∧ s.testMode 11 = 0) ∧
    (let s := (State.reset.setFlds [(F.BL_TEST_CTL_MODE 11, 2), (F.BL_TEST_CTL_LANE_EN 11, 8), (F.BL_CTRL_TX_EN 11, 1), (F.BL_CTRL_RX_EN 11, 1)]).testStart 11
     s.testMode 11 = 2 ∧ s.inTest 11 = true ∧ s.checks 11 3 = true ∧ s.checks 11 0 = false ∧ s.bitAt (F.BL_TEST_STAT_LOCK 11) 3 = false ∧
       11 ∈ s.tests.map (·.1) ∧ Tbl.wf (fun _ => {}) s.tests = true ∧ (∀ e ∈ s.tests, e.1 < 24) ∧ s.generates 11 = true ∧ s.nearLoop 11 = true ∧
       (s.setFld (F.BL_TEST_STAT_LOCK 11) 8).bitAt (F.BL_TEST_STAT_LOCK 11) 3 = true ∧ s.MayWrite 12 (R.BL_TEST_CTL 11) ∧ s.MayWrite 12 (R.BL_TEST_INJ 11) ∧
       (s.test 11).inj = [] ∧ s.bit (F.BL_CTRL_TX_EN 11) = true ∧ s.bit (F.BL_CTRL_RX_EN 11) = true ∧ s.bitAt (F.BL_TEST_CTL_LANE_EN 11) 3 = true ∧
       (let u := (s.setTest 11 { s.test 11 with inj := [(3, 0)] }).test 11
        u.inj.any (fun e => e.1 == 3 && decide (u.bits + (e.2 - u.sent) < u.load.getD 3 0 + 7 + 1024)) = true) ∧ (s.test 11).sent ≤ (s.test 11).perAt + 1024 ∧ (s.setFld (F.BL_TEST_INJ_RATE_EXP 11) 1).fld (F.BL_TEST_INJ_RATE_EXP 11) ≠ 0) ∧
    (let s := ((linkSt 11 4 4 id).setFld (F.BL_EYE_STAT_BUSY 11) 1).setTest 11 { eye := some 0 }
     s.bit (F.BL_EYE_STAT_BUSY 11) = true ∧ s.eyeCounts 11 = true ∧ s.MayWrite 12 (R.BL_EYE_CTL 11) ∧ (s.test 11).eye = some 0 ∧
       s.fld (F.BL_EYE_BITS_COUNT 11) ≤ 2 ^ 16) ∧
    ((State.reset.setFld (F.BL_EYE_STAT_BUSY 11) 1).eyeCounts 11 = false) := by and_intros <;> decide +kernel
/-- The first eight outputs of PRBS7 from all ones are the register's seven ones and the first feedback bit, 0 (R171). -/
theorem test_prbs7 : prbsBits 0 8 127 = [1, 1, 1, 1, 1, 1, 1, 0] := by decide

/-! ### Companion and bridge traffic, decode and encode engines -/

/-- An access unit being received for context 127. -/
def rx127 (num : Option Nat) (decided : Bool) : AuRx := ⟨127, num, 64, 0, [], 0, true, true, [], 0, false, false, decided, false⟩
/-- Context 127 on with a ring of 64 KiB and four buffers, and an engine that is idle. -/
def ctx127 : State := (linkSt 21 4 4 id).setFlds [(F.DEC_CTX_CTL_EN 127, 1), (F.DEC_CTX_STATUS_STATE 127, 2), (F.DEC_CTX_BS_SIZE_SIZE 127, 16),
  (F.DEC_CTX_POOL_CFG_COUNT 127, 4), (F.DEC_ENG_CTL_EN 0, 1), (F.DEC_ENG_STATUS_STATE 0, 1)]
/-- A frame of input 23, two pixels by one line, of link format 1. -/
def frame23 : InFrame := { w := 2, h := 1, fmt := 1, stamp := 0, store := true, parts := [] }
def in23 (g : Option InFrame) : State :=
  let s := (linkSt 19 4 4 id).setFlds [(F.COMP_IN_CTL_EN 23, 1), (F.COMP_IN_CTL_FMT 23, 1), (F.COMP_IN_CTL_SLOTS 23, 2), (F.COMP_IN_STRIDE_SIZE 23, 2),
    (F.COMP_IN_CTL_PITCH 23, 1)]
  s.setInp 23 { s.inp 23 with cur := g }

theorem test_bridge_status : after 0 (exec (.bridgeStatus 19 0 0x1122334455667788) (linkSt 19 4 4 id)) (fun t => (t.reg (R.BL_BSTAT_HI 19)).toNat) =
    0x11223344 := by decide +kernel
theorem test_timestamp_replayed : after 0 (exec (.timestamp 1 0 true 0 0 0 0 0 false) (linkSt 21 4 4 id)) (fun t => t.fld (F.BL_ERR_TS_REPLAY 21)) = 1 := by
  decide +kernel
theorem test_cmd_without_first : after 0 (exec (.cmd 0 false true [1]) (linkSt 20 4 4 id)) (fun t => t.fld (F.BL_ERR_PROTO 20)) = 1 := by decide +kernel
theorem test_au_numbers : after 0 (exec (.auStart 1 0 32 127 0 0) ctx127) (fun t => t.ctxNext 127) = ctx127.ctxNext 127 + 1 := by decide +kernel
theorem test_dec_retire : after 0 (exec (.decRetire 12 15 2) State.reset) (fun t => t.fld (F.DEC_ENG_STATUS_STATE 15)) = 3 := by decide +kernel
theorem test_enc_enable_refused : after 0 (exec (.encCtxEnable 12 31 0x80000000) State.reset) (fun t => t.fld (F.ENC_CTX_ERR_ERR 31)) = 64 := by decide +kernel

/-- ReceivedTraffic: receivers that take the next barge; a full and an empty FIFO; a command in parts; contexts on and off, joining, with and without
room; the three kinds of unit of AU_DATA; an input between frames and within one. -/
theorem meets_ReceivedTraffic :
    (∀ q ∈ [12, 19, 20, 21], (linkSt q 4 4 id).pwr.phase = .run ∧ (linkSt q 4 4 id).up q = true ∧ ((linkSt q 4 4 id).link q).discard = false ∧
      ((linkSt q 4 4 id).link q).expect = 0) ∧
    (List.replicate 64 (⟨0, 0, 0, 0, 0, 0⟩ : TsEntry)).length = 64 ∧ State.reset.time.tsFifo.length < 64 ∧
    (((linkSt 20 4 4 id).link 20).cmd = none ∧ ((linkSt 20 4 4 (fun l => { l with cmd := some [] })).link 20).cmd ≠ none) ∧
    ((9 : Nat) = 8 + leNat ([1, 0, 0, 0, 0, 0, 0, 0, 7].take 2)) ∧
    (ctx127.joinArmed 127 = false ∧ ctx127.bit (F.DEC_CTX_CTL_EN 127) = true ∧ (ctx127.dc 127).joining = false ∧ ctx127.bsSize 127 = 65536 ∧
      (ctx127.dc 127).aus = [] ∧ (ctx127.link 21).aus = [] ∧ ctx127.up 21 = true ∧ (ctx127.link 21).discard = false ∧ (ctx127.link 21).expect = 0) ∧
    ((ctx127.updDc 127 (fun c => { c with joining := true })).dc 127).joining = true ∧
    (let s := linkSt 21 4 4 (fun l => { l with aus := [rx127 none false] })
     (s.link 21).aus.find? (fun y => y.ctx == 127) = some (rx127 none false) ∧ (classify false [0, 0, 1, 0x26, 1, 0, 0, 1, 0]).vcl = true ∧ (s.link 21).discard = false) ∧
    (let s := linkSt 21 4 4 (fun l => { l with aus := [rx127 (some 3) true] })
     (s.link 21).aus.find? (fun y => y.ctx == 127) = some (rx127 (some 3) true) ∧ (s.link 21).discard = false) ∧
    ((in23 none).inEn 23 = true ∧ ((in23 none).inp 23).cur = none ∧ (in23 none).slotHeld 23 1 = false ∧ (in23 none).inFmt 23 = 1 ∧ (in23 none).inFits 23 2 1 = true ∧
      (in23 none).up 19 = true ∧ ((in23 none).link 19).discard = false) ∧
    (((in23 (some frame23)).inp 23).cur = some frame23 ∧ (in23 (some frame23)).inEn 23 = true ∧
      ({ frame23 with parts := insertPart ((0, 0), List.replicate 3 0) [] } : InFrame).complete = false ∧
      ({ frame23 with parts := insertPart ((0, 0), List.replicate 6 0) [] } : InFrame).complete = true) := by and_intros <;> decide +kernel

/-- The smallest sequence context 127 may decode, and a picture of it. -/
def sps0 : DecSps := { w := 2, h := 2, depthL := 8, depthC := 8, profile := 1, level := 30, chroma := 1, compat := false, frames := true, dpb := 1, reorder := 0, latency := 0, left := 0, top := 0, cw := 2, ch := 2 }
/-- Headers of a P picture that requires the picture of POC 7. -/
def heads0 : AuHeads :=
  { parses := true, sps := sps0, irap := false, idr := false, afterEnd := false, memReset := false, dropPrior := false, rasl := false, output := true, poc := 8, frameNum := 0, maxFrameNum := 16,
    recovery := 0, ref := true, needs := [7], keep := [] }
def pic0 (b : Nat) (poc : Int) : PicInfo := { buf := b, num := b, entry := [], tainted := false, excused := false, poc := poc }
def job127 : DecJob := ⟨127, 1, 0, 0, true, 0⟩
/-- The same context with its engine decoding access unit 1, whose entry stands in the index at the start of general SRAM. -/
def dec127 : State :=
  let s := (ctx127.setFlds [(F.DEC_CTX_IDX_HI_ADDR 127, 0x40), (F.DEC_CTX_POOL_CFG_PITCH 127, 1), (F.DEC_CTX_POOL_LUMA_SIZE 127, 1), (F.DEC_CTX_POOL_STRIDE_SIZE 127, 2),
    (F.DEC_CTX_POOL_CFG_HOLD 127, 1)]).setCtxNext 127 2
  let s := { s with mem := Tbl.setN (fun _ => 0) s.mem 0x4000000020 ([1, 0, 0, 0, 0, 0, 0, 0] ++ List.replicate 20 0 ++ [5, 0, 0, 0]) }
  s.setDe 0 { s.de 0 with queue := [job127], cur := some 127 }
/-- Where a context has a buffer left and no head reads its buffers, the next picture's is ready, whichever of them it is. -/
theorem bufReady_of_unread (s : State) (i a : Nat) (hr : ∀ k ∈ List.range (s.poolCount i), s.bufRead i k = false)
    (hl : (List.range (s.poolCount i)).filter (s.bufLeft i) ≠ []) : s.bufReady i a = true := by
  have hn : Config.pickBuf ((List.range (s.poolCount i)).filter (s.bufLeft i)).length a %
      max 1 ((List.range (s.poolCount i)).filter (s.bufLeft i)).length < ((List.range (s.poolCount i)).filter (s.bufLeft i)).length := by
    have := List.length_pos_iff.mpr hl
    rw [Nat.max_eq_right this]
    exact Nat.mod_lt _ this
  simp only [State.bufReady, State.bufPick, List.getElem?_eq_getElem hn]
  rw [hr _ (List.mem_filter.mp (List.getElem_mem hn)).1]
  rfl
/-- The same context with its engine idle: access unit 1 is here, and has a buffer. -/
def idle127 : State := dec127.setDe 0 { dec127.de 0 with cur := none }
theorem idle127_ready : idle127.bufReady 127 1 = true := bufReady_of_unread _ _ _ (by decide +kernel) (by decide +kernel)
theorem idle127_job : (idle127.jobReady job127).1 = 2 := by
  have h0 : idle127.ctxWaits job127.ctx = false := by decide +kernel
  have h1 : idle127.nextAu job127.ctx = 1 := by decide +kernel
  have h2 : idle127.auState job127.ctx 1 = .here (dec127.bytes 0x4000000020 32) := by decide +kernel
  have h3 : (idle127.dc job127.ctx).decodes (leNat (slice (dec127.bytes 0x4000000020 32) 28 1)) = true := by decide +kernel
  have h4 : idle127.bufReady job127.ctx 1 = true := idle127_ready
  simp only [State.jobReady, h0, h1, h2, h3, h4]
  rfl
/-- DecodeEngines: a unit in hand that is here, one lost; nothing in hand; a job that can run and one that waits for a buffer; engines off, idle,
busy, retired; a watchdog. -/
theorem meets_DecodeEngines :
    ((dec127.de 0).cur = some 127 ∧ (dec127.de 0).queue.find? (fun x => x.ctx == 127) = some job127 ∧ (dec127.dc 127).replay = none ∧ dec127.ctxDone 127 = 0 ∧
      dec127.pwr.phase = .run) ∧
    (dec127.auState 127 1 = .here (dec127.bytes 0x4000000020 32) ∧ (dec127.dc 127).decodes (leNat (slice (dec127.bytes 0x4000000020 32) 28 1)) = true) ∧
    (dec127.ctxWaits 127 = false ∧ heads0.memReset = false ∧ (dec127.dc 127).pics = [] ∧ (dec127.dc 127).subs = [] ∧ (7 : Int) ∈ heads0.needs ∧
      ({ heads0 with parses := false } : AuHeads).parses = false) ∧
    (let s := dram ({ dec127 with fc := { dec127.fc with stage := .change } }); (s.de 0).cur = some 127 ∧ s.ctxWaits 127 = true) ∧
    ((dec127.dc 127).decodes 0 = false ∧ spsSupported false sps0 = true ∧ spsSupported false { sps0 with chroma := 0 } = false ∧ dec127.poolOk 127 sps0 = true ∧
      dec127.poolOk 127 { sps0 with w := 257 } = false ∧ ((dec127.updDc 127 (fun c => { c with unsup := true })).dc 127).unsup = true) ∧
    nextOut [pic0 0 4, pic0 1 2] = some (pic0 1 2) ∧
    (({ dec127 with mem := [] } : State).auState 127 1 = .lost) ∧
    ((State.reset.de 15).cur = none ∧ State.reset.fld (F.DEC_ENG_STATUS_STATE 15) < 2 ∧ State.reset.MayWrite 12 (R.DEC_ENG_CTL 15)) ∧
    (let s := idle127
     s.fld (F.DEC_ENG_STATUS_STATE 0) = 1 ∧ s.bit (F.DEC_ENG_CTL_EN 0) = true ∧ (s.de 0).cur = none ∧ (s.de 0).queue = [job127] ∧
       s.bit (F.DEC_CTX_CTL_EN 127) = true ∧ job127.ok = true ∧ s.ctxDone 127 < job127.upto) ∧
    (let s := (dec127.setDe 0 { dec127.de 0 with cur := none }).updDc 127 (fun c => { c with pics := [pic0 0 0, pic0 1 2, pic0 2 4, pic0 3 6] }); (s.jobReady job127).1 = 1 ∧ (s.de 0).queue = [job127]) ∧
    ((State.reset.setFld (F.DEC_ENG_STATUS_STATE 15) 3).fld (F.DEC_ENG_STATUS_STATE 15) = 3 ∧ (State.reset.setFld (F.DEC_ENG_STATUS_STATE 15) 3).MayWrite 12 (R.DEC_ENG_CTL 15)) ∧
    (dec127.setFld (F.DEC_ENG_WDOG_LIMIT 0) 1).fld (F.DEC_ENG_WDOG_LIMIT 0) ≠ 0 := by
  and_intros <;> decide +kernel
/-- CodecContexts: off with what an enable needs and without; on, with the binding that its state allows and not, orphaned. -/
theorem meets_CodecContexts :
    (State.reset.pwr.phase = .run ∧ State.reset.MayWrite 12 (R.DEC_CTX_CTL 127) ∧ State.reset.bit (F.DEC_CTX_CTL_EN 127) = false ∧
      ¬16 ≤ State.reset.fld (F.DEC_CTX_BS_SIZE_SIZE 127)) ∧
    (let s := ctx127.setFld (F.DEC_CTX_CTL_EN 127) 0; s.MayWrite 12 (R.DEC_CTX_CTL 127) ∧ s.bit (F.DEC_CTX_CTL_EN 127) = false ∧ 16 ≤ s.fld (F.DEC_CTX_BS_SIZE_SIZE 127) ∧
      2 ≤ s.fld (F.DEC_CTX_POOL_CFG_COUNT 127) ∧ s.fld (F.DEC_ENG_STATUS_STATE 15) ≠ 3) ∧
    (ctx127.MayWrite 12 (R.DEC_CTX_CTL 127) ∧ ctx127.bit (F.DEC_CTX_CTL_EN 127) = true ∧ ctx127.fld (F.DEC_CTX_CTL_JOIN 127) = 0 ∧ ctx127.fld (F.DEC_CTX_CTL_CODEC 127) = 0 ∧
      ctx127.ctxEngine 127 = 0 ∧ ctx127.ctxState 127 ≠ 5 ∧ ctx127.canBind 127 15 = true) ∧
    ((ctx127.setFld (F.DEC_CTX_STATUS_STATE 127) 3).canBind 127 15 = false) ∧
    (let s := ctx127.setFld (F.DEC_CTX_STATUS_STATE 127) 5; s.ctxState 127 = 5 ∧ s.canBind 127 0 = true ∧ s.canBind 127 15 = false ∧ s.MayWrite 12 (R.DEC_CTX_CTL 127)) ∧
    (State.reset.MayWrite 12 (R.ENC_CTX_CTL 31) ∧ State.reset.bit (F.ENC_CTX_CTL_EN 31) = false ∧ ¬2 ≤ State.reset.fld (F.ENC_CTX_SRC_CFG_SLOTS 31)) ∧
    (let s := State.reset.setFlds [(F.ENC_CTX_SRC_CFG_SLOTS 31, 2), (F.ENC_CTX_SRC_GEOM_WIDTH 31, 128), (F.ENC_CTX_SRC_GEOM_HEIGHT 31, 128), (F.ENC_CTX_OUT_SIZE_SIZE 31, 16), (F.ENC_CTX_GOP_STEP 31, 1)]
     2 ≤ s.fld (F.ENC_CTX_SRC_CFG_SLOTS 31) ∧ frameSizeOk (s.encW 31) (s.encH 31) = true ∧ 16 ≤ s.fld (F.ENC_CTX_OUT_SIZE_SIZE 31) ∧ s.encStep 31 ≠ 0 ∧
       s.fld (F.ENC_ENG_STATUS_STATE 7) ≠ 3 ∧ s.MayWrite 12 (R.ENC_CTX_CTL 31)) ∧
    (let s := State.reset.setFlds [(F.ENC_CTX_CTL_EN 31, 1), (F.ENC_CTX_STATUS_STATE 31, 5), (F.ENC_ENG_STATUS_STATE 7, 1)]
     s.bit (F.ENC_CTX_CTL_EN 31) = true ∧ s.encState 31 = 5 ∧ s.encCanBind 31 7 = true ∧ s.encCanBind 31 0 = false ∧ s.MayWrite 12 (R.ENC_CTX_CTL 31)) := by
  and_intros <;> decide +kernel
def ejob31 : EncJob := ⟨31, 1, 0, 0, 0, false, 0, 0, true, 0⟩
def unit31 : EncUnit := ⟨List.replicate 32 0, true, 1, 0, 0, {}, 0, false, 0⟩
/-- Encode engine 7 idle with one job of context 31, whose output ring holds 64 KiB. -/
def enc31 : State :=
  let s := State.reset.setFlds [(F.ENC_CTX_CTL_EN 31, 1), (F.ENC_CTX_STATUS_STATE 31, 2), (F.ENC_ENG_CTL_EN 7, 1), (F.ENC_ENG_STATUS_STATE 7, 1), (F.ENC_CTX_OUT_SIZE_SIZE 31, 16)]
  s.setEe 7 { s.ee 7 with queue := [ejob31] }
/-- EncodeEngines: a job that can start, a frame in hand, nothing in hand; a held unit with and without room; engines in each state; a watchdog. -/
theorem meets_EncodeEngines :
    (enc31.pwr.phase = .run ∧ enc31.fld (F.ENC_ENG_STATUS_STATE 7) = 1 ∧ enc31.bit (F.ENC_ENG_CTL_EN 7) = true ∧ (enc31.ee 7).cur = none ∧ (enc31.ee 7).queue = [ejob31] ∧
      (enc31.ec 31).held = none ∧ enc31.bit (F.ENC_CTX_CTL_EN 31) = true ∧ ejob31.ok = true ∧ (enc31.ec 31).core.fp = none ∧ ejob31.wait = 0) ∧
    (let s := enc31.setEe 7 { enc31.ee 7 with cur := some 31 }
     (s.ee 7).cur = some 31 ∧ (s.ec 31).held = none ∧ (s.ee 7).queue.find? (fun x => x.ctx == 31) = some ejob31 ∧
       s.encWaits 31 = false ∧ (dram s |> fun (v : State) => { v with fc := { v.fc with stage := .change } }).encWaits 31 = true ∧
       (s.setFld (F.ENC_ENG_WDOG_LIMIT 7) 1).fld (F.ENC_ENG_WDOG_LIMIT 7) ≠ 0) ∧
    (let s := enc31.setEc 31 { enc31.ec 31 with held := some unit31 }; (s.ec 31).held = some unit31 ∧ s.outFits 31 unit31.data.length = true ∧ s.outFits 31 65536 = false) ∧
    (State.reset.MayWrite 12 (R.ENC_CTX_OUT_RD 31) ∧ State.reset.MayWrite 12 (R.ENC_ENG_CTL 7) ∧ State.reset.fld (F.ENC_ENG_STATUS_STATE 7) < 2) ∧
    ((State.reset.setFld (F.ENC_ENG_STATUS_STATE 7) 3).fld (F.ENC_ENG_STATUS_STATE 7) = 3 ∧ (State.reset.setFld (F.ENC_ENG_STATUS_STATE 7) 2).fld (F.ENC_ENG_STATUS_STATE 7) = 2) := by
  and_intros <;> decide +kernel

/-! ### Compositor and heads -/

/-- Head `h` in state `st` with its scan changed by `f`; a layer on pipe 383 of head `h`. -/
def headSt (h st : Nat) (f : HeadSt → HeadSt) : State := (State.reset.setFld (F.HEAD_STATUS_STATE h) st).setHd h (f (State.reset.hd h))
def layer383 (h : Nat) : Layer := { lp := 383, head := h, slot := 15, descIx := 0, desc := List.replicate 64 0, pic := some ⟨9, [0], 256, ⟨0, 0, 64, 1⟩, ⟨0, 0, 64, 1⟩⟩ }
def fetch383 : Fetch := ⟨383, 0, 0, 0x4000000000, 4, [], 0⟩

theorem test_head_start_waits : after 9 (exec (.headStart 12 31 1) State.reset) (fun t => t.headState 31) = 1 := by decide +kernel
theorem test_head_stop_blanking : after 9 (exec (.headStop 12 31 0) ((headSt 31 2 (fun x => { x with line := -1, ended := false })).setFld (F.HEAD_CTL_EN 31) 1))
    (fun t => t.headState 31) = 0 := by decide +kernel
theorem test_input_two_slots : after 9 (exec (.inputEnable 12 23 0x80010000) State.reset) (fun t => t.fld F.COMP_ERRLOG_CODE) = 7 := by decide +kernel
theorem test_fg_lock_stays : after 9 (exec (.fgLockSet 12 0) (State.reset.setFld F.FG_LOCK_LOCK 1)) (fun t => t.fld F.FG_LOCK_LOCK) = 1 := by decide +kernel

/-- CompositorRegisters: an input off and on; a port off with a size that fits and not, and on; a table free and in use; FG_LOCK; a head OFF with a
legal and an illegal mode, and scanning. -/
theorem meets_CompositorRegisters :
    (State.reset.pwr.phase = .run ∧ State.reset.MayWrite 12 (R.COMP_IN_CTL 23) ∧ State.reset.inEn 23 = false) ∧
    (let s := State.reset.setFld (F.COMP_IN_CTL_EN 23) 1; s.MayWrite 12 (R.COMP_IN_CTL 23) ∧ s.inEn 23 = true ∧ s.fld (F.COMP_IN_CTL_SLOTS 23) ≠ 63) ∧
    (let s := (State.reset.setFld (F.COMP_WB_CFG_SLOTS 7) 2).setFld (F.HEAD_STATUS_STATE 0) 1
     s.MayWrite 12 (R.COMP_WB_CTL 7) ∧ s.bit (F.COMP_WB_CTL_EN 7) = false ∧ (s.written (R.COMP_WB_CTL 7) 0x80000000).wbFits 7 = true ∧
       2 ≤ s.fld (F.COMP_WB_CFG_SLOTS 7) ∧ s.headState 0 ≠ 0) ∧
    (State.reset.MayWrite 12 (R.COMP_WB_CTL 7) ∧ State.reset.headState 0 = 0 ∧ (State.reset.setFld (F.COMP_WB_CTL_EN 7) 1).bit (F.COMP_WB_CTL_EN 7) = true ∧
      (State.reset.setFld (F.COMP_WB_CTL_EN 7) 1).MayWrite 12 (R.COMP_WB_CTL 7)) ∧
    (State.reset.MayWrite 12 (sclReg false 1 63 3) ∧ State.reset.MayWrite 12 (sclReg true 1 63 1) ∧ State.reset.tableInUse 1 = false ∧
      ({ State.reset with layers := [{ layer383 0 with scalers := true }] } : State).tableInUse 0 = true) ∧
    State.reset.MayWrite 12 R.FG_LOCK ∧
    (State.reset.MayWrite 12 (R.HEAD_COMMIT 31) ∧ State.reset.headState 31 = 0 ∧ State.reset.timingOk 31 = true ∧
      State.reset.amapOk 31 (State.reset.fld (F.FG_HEAD_AMAP_BASE 31)) (ceilDiv (State.reset.fld (F.HEAD_HTIMING_HACTIVE 31)) 32 *
        ceilDiv (State.reset.fld (F.HEAD_VTIMING_VACTIVE 31)) 32) = true) ∧
    ((State.reset.setFld (F.HEAD_HTIMING_HACTIVE 31) 65).timingOk 31 = false ∧ (State.reset.setFld (F.HEAD_HTIMING_HACTIVE 31) 65).MayWrite 12 (R.HEAD_COMMIT 31)) ∧
    (headSt 31 2 id).headState 31 ≠ 0 := by and_intros <;> decide +kernel
/-- HeadsScan: OFF with its region free and taken; waiting; scanning, in blanking and in active lines, at its latch line, at its last line; stopping;
a row that a pipe waits for and one that none does. -/
theorem meets_HeadsScan :
    (State.reset.pwr.phase = .run ∧ State.reset.MayWrite 12 (R.HEAD_CTL 31) ∧ State.reset.bit (F.HEAD_CTL_EN 31) = false ∧ State.reset.headState 31 = 0 ∧
      State.reset.amapLiveOk 31 = true ∧ ((headSt 0 2 id).setLfld (F.FG_HEAD_AMAP_BASE 31) 0).amapLiveOk 31 = false ∧ (∀ l ∈ State.reset.layers, l.lp < 384)) ∧
    (let s := (headSt 31 1 id).setFld F.TICK_STATUS_RUNNING 1; s.headState 31 = 1 ∧ s.bit F.TICK_STATUS_RUNNING = true ∧ (s.hd 31).owed = []) ∧
    (let s := (headSt 31 2 (fun x => { x with line := 5, ended := false })).setFld (F.HEAD_CTL_EN 31) 1
     s.MayWrite 12 (R.HEAD_CTL 31) ∧ s.bit (F.HEAD_CTL_EN 31) = true ∧ s.headState 31 = 2 ∧ 0 ≤ (s.hd 31).line ∧ (s.hd 31).ended = false ∧
       (s.hd 31).line ≠ s.latchLine 31 ∧ (s.hd 31).line < (s.vact 31 : Int) - 1) ∧
    (let s := headSt 31 3 (fun x => { x with line := -90, latched := false }); s.headState 31 = 3 ∧ (s.hd 31).latched = false ∧ (s.hd 31).line = s.latchLine 31 ∧
      (s.hd 31).line < 0) ∧
    (let s := headSt 31 4 (fun x => { x with line := 2159, latched := true, ended := false })
     s.headState 31 = 4 ∧ (s.hd 31).line = (s.vact 31 : Int) - 1 ∧ (s.hd 31).ended = false ∧ (s.hd 31).latched = true ∧ (s.hd 31).owed = []) ∧
    ((headSt 31 2 (fun x => { x with line := 2159, ended := false })).headState 31 ≠ 4) ∧
    (let s := { headSt 31 2 (fun x => { x with fifo := [fetch383] }) with layers := [layer383 31] }
     2 ≤ s.headState 31 ∧ (s.hd 31).fifo.find? (fun f => f.lp == 383 && f.plane == 0 && f.row == 0) = some fetch383 ∧
       (s.hd 31).fifo.find? (fun f => f.lp == 0 && f.plane == 0 && f.row == 0) = none ∧ s.layerOf 383 = some (layer383 31) ∧ (layer383 31).pic.isSome = true ∧
       (s.serve 0x70 0x4000000000 256).poisoned = false ∧ s.waits (s.region 0x4000000000) = false ∧ (s.hd 31).late.find? (fun f => f.lp == 383) = none) ∧
    (let s := { headSt 31 2 (fun x => { x with late := [fetch383] }) with layers := [layer383 31] }
     2 ≤ s.headState 31 ∧ (s.hd 31).late.find? (fun f => f.lp == 383 && f.plane == 0 && f.row == 0) = some fetch383) ∧
    ({ State.reset with fc := { stage := .change } } : State).waits .dram = true := by and_intros <;> decide +kernel

/-! ### Memory -/

/-- Channel `c` in state `st`. -/
def chanSt (c st : Nat) (f : DdrCh → DdrCh) : State := ((dram State.reset).setFld (F.DDR_STATUS_STATE c) st).setDdrCh c (f (State.reset.ddrCh c))
def req0 : RdReq := ⟨12, 0, 32, false, 0⟩
def allIdle : State := (List.range 8).foldl (fun s c => s.setFld (F.DDR_STATUS_STATE c) 2) State.reset
/-- A frequency change at stage `g`. -/
def fcSt (g : FcStage) : State := { dram State.reset with fc := { State.reset.fc with stage := g } }
/-- Churn at the first unit of general SRAM, busy, in mode `mode`. -/
def churnSt (mode : Nat) : State := State.reset.setFlds [(F.CHURN_STAT_BUSY, 1), (F.CHURN_POS_HI_ADDR, 0x40), (F.CHURN_END_HI_ADDR, 0x40), (F.CHURN_END_LO_ADDR, 1),
  (F.CHURN_CTL_MODE, mode)]

theorem test_dram_write_read : after .none (exec (.dramWrite 12 0 ⟨List.replicate 32 7, [], ⟨[], 0⟩⟩) (rule 12 0 0 (dram State.reset))) (fun t =>
    after .none (exec (.dramRead 12 0 2 false ⟨0, ⟨[], 0⟩⟩) t) (fun u => u.resp)) = .reads [(12, 0, [7, 7], [false, false])] := by decide +kernel
theorem test_dram_hole : after .none (exec (.dramRead 12 0x40000000 32 false ⟨0, ⟨[], 0⟩⟩) (dram State.reset)) (fun t => t.resp) = .busError := by decide +kernel
theorem test_ready_needs_idle : after 9 (exec (.ddrReady 12 1) State.reset) (fun t => t.fld F.DDR_GCTL_READY) = 0 ∧
    after 9 (exec (.ddrReady 12 1) allIdle) (fun t => t.fld F.DDR_TOP_GIB) = 14 := by decide +kernel
theorem test_trn_refused : after 9 (exec (.trnCa 12 7 0x80000001) (chanSt 7 3 id)) (fun t => t.fld (F.DDR_TRN_STAT_REFUSED 7)) = 1 := by decide +kernel
theorem test_churn_skips_no_clean : after 9 (exec (.churnUnit false) (churnSt 0)) (fun t => t.fld F.CHURN_WORDS_COUNT) = 1 := by decide +kernel
theorem test_diag_unaligned : after 9 (exec (.diagReadRaw 12 0x80000000) (State.reset.setFld F.ECC_DIAG_ADDR_LO_ADDR 1)) (fun t => t.fld F.ECC_DIAG_STAT_REFUSED) = 1 := by
  decide +kernel

/-- MemoryController: a hole and an address of channel 7; a change that runs and none; writes permitted and refused; reads waiting and none;
each state of a channel; a training operation; all channels idle. -/
theorem meets_MemoryController :
    (let s := rule 12 0x700 0x700 (dram State.reset)
     s.pwr.phase = .run ∧ s.regionN 0x700 32 = .dram ∧ dramChan 0x700 = 7 ∧ s.regionN 0x3FFFFFF0 32 ≠ .dram ∧ s.fc.stage ≠ .change ∧ (s.ddrCh 7).rq = [] ∧
       s.judge 12 0x700 = .permit ∧ s.gonePages .dram 0x700 32 = [] ∧ s.retired 0x700 = false ∧ s.lineAt 0x700 = none ∧ s.judge 12 0x740 = .refuse 0) ∧
    (let s := rule 12 0 0x40 (fcSt .change)
     s.fc.stage = .change ∧ s.judge 12 0 = .permit ∧ s.retired 0 = false ∧ s.regionN 0 64 = .dram ∧
       wordBad ⟨List.replicate 64 0, [], ⟨[], 0⟩⟩ 0 = wordBad ⟨List.replicate 64 0, [], ⟨[], 0⟩⟩ 1 ∧
       wordBad ⟨List.replicate 64 0, [1], ⟨[], 0⟩⟩ 0 ≠ wordBad ⟨List.replicate 64 0, [1], ⟨[], 0⟩⟩ 1) ∧
    (let s := dram (aSt 7 id); s.judge 7 0x740 = .refuse 0 ∧ isA 7 = true ∧ (s.core 7).notice = none) ∧
    (let s := chanSt 7 3 (fun c => { c with rq := [req0] }); (s.ddrCh 7).rq.find? (fun r => !r.display) = some req0 ∧ (s.ddrCh 7).rq ≠ []) ∧
    ((chanSt 7 2 id).ddrState 7 = 2 ∧ (chanSt 7 3 id).ddrState 7 = 3 ∧ (chanSt 7 3 id).fc.stage ≠ .change ∧ (chanSt 7 1 id).ddrState 7 = 1 ∧
      0 < (chanSt 7 1 id).fld (F.DDR_REF_REFI_NS 7) ∧ State.reset.ddrState 7 ≠ 1) ∧
    (State.reset.MayWrite 12 (R.DDR_CTL 7) ∧ (chanSt 7 2 id).MayWrite 12 (R.DDR_TRN_CTL 7) ∧ ((chanSt 7 2 id).ddrCh 7).trn = none ∧ bits (0x80000004 : Word).toNat 3 0 = 4) ∧
    ((chanSt 7 2 (fun c => { c with trn := some (4, 0, true) })).ddrCh 7).trn = some (4, 0, true) ∧
    (allIdle.MayWrite 12 R.DDR_GCTL ∧ (∀ k, k < 8 → allIdle.fld (F.DDR_CFG_DENSITY k) = allIdle.fld (F.DDR_CFG_DENSITY 0) ∧ allIdle.ddrState k = 2) ∧
      State.reset.MayWrite 12 R.DDR_GCTL ∧ State.reset.ddrState 0 ≠ 2) := by and_intros <;> decide +kernel
/-- FrequencyChange: no change pending, with a target allowed and one faster than the point; pending; each stage; a window open and shut; FORCE. -/
theorem meets_FrequencyChange :
    (State.reset.pwr.phase = .run ∧ State.reset.MayWrite 12 R.DDR_FC_CTL ∧ State.reset.bit F.DDR_FC_STAT_BUSY = false ∧ State.reset.bit F.PWR_STATUS_DVFS_BUSY = false ∧
      State.reset.fld F.PWR_DVFS_CURRENT = 1 ∧ bits (0x80000000 : Word).toNat 25 24 = 0 ∧ bits (0x81000000 : Word).toNat 25 24 = 1) ∧
    ((State.reset.setFld F.DDR_FC_STAT_BUSY 1).MayWrite 12 R.DDR_FC_CTL ∧ (State.reset.setFld F.DDR_FC_STAT_BUSY 1).bit F.DDR_FC_STAT_BUSY = true) ∧
    ((fcSt .lock).fc.stage = .lock ∧ (fcSt .search).fc.stage = .search ∧ (fcSt .search).windowOpen = true ∧
      ((fcSt .search).setFld (F.HEAD_STATUS_STATE 0) 2).windowOpen = false ∧ (fcSt .search).fc.stage ≠ .lock) ∧
    (((fcSt .search).setFld F.DDR_FC_CTL_FORCE 1).bit F.DDR_FC_CTL_FORCE = true ∧ (fcSt .search).bit F.DDR_FC_CTL_FORCE = false) ∧
    ((fcSt .change).fc.stage = .change ∧ (fcSt .change).fc.writes = [] ∧ (fcSt .change).fc.late = [] ∧ (∀ c, c < 8 → ((fcSt .change).ddrCh c).rq = []) ∧
      (∀ c, c < 13 → ((fcSt .change).core c).xip = none) ∧ ∀ n, n < 16 → (fcSt .change).fld (F.DEC_ENG_STATUS_STATE n) ≠ 1) := by and_intros <;> decide +kernel
/-- ScrubAndTestWindow: no scan, with a range allowed and not; a scan at a clean, a poisoned and a correctable unit and on a retired page; the test
window on a unit and beside one, with leave to write and without. -/
theorem meets_ScrubAndTestWindow :
    (State.reset.pwr.phase = .run ∧ State.reset.MayWrite 12 R.CHURN_CTL ∧ State.reset.bit F.CHURN_STAT_BUSY = false ∧ State.reset.churnRange = false) ∧
    (let s := State.reset.setFlds [(F.CHURN_START_HI_ADDR, 0x43), (F.CHURN_END_HI_ADDR, 0x43), (F.CHURN_END_LO_ADDR, 0x8000)]
     s.churnRange = true ∧ s.MayWrite 12 R.CHURN_CTL ∧ s.bit F.CHURN_STAT_BUSY = false) ∧
    (let s := churnSt 0
     s.bit F.CHURN_STAT_BUSY = true ∧ s.churn.unit = none ∧ s.churnPos = 0x4000000000 ∧ (s.region s.churnPos).units = true ∧ s.fc.stage ≠ .change ∧
       s.unitEcc .gen 0x4000000000 = .clean ∧ s.MayWrite 12 R.CHURN_CTL ∧ s.fld F.CHURN_CTL_MODE = 0) ∧
    (({ churnSt 0 with chk := [(0x4000000000, 0xFF)] } : State).unitEcc .gen 0x4000000000 = .poison) ∧
    (({ churnSt 0 with chk := [(0x4000000000, 1)] } : State).unitEcc .gen 0x4000000000 = .corrected 64 0) ∧
    (let s := { (rule 69 0x4000000000 0x4000000000 (churnSt 0)) with churn := { State.reset.churn with unit := some (0x4000000000, false) } }
     s.bit F.CHURN_STAT_BUSY = true ∧ s.churn.unit = some (s.churnPos, false) ∧ s.permits 0x60 s.churnPos = true ∧ s.region s.churnPos = .gen) ∧
    (({ churnSt 0 with churn := { State.reset.churn with unit := some (0x4000000000, true) } } : State).churn.unit = some ((churnSt 0).churnPos, true)) ∧
    (let s := fcSt .change
     s.MayWrite 12 R.ECC_DIAG_CTL ∧ s.region (s.fld F.ECC_DIAG_ADDR_LO_ADDR * 8 + s.fld F.ECC_DIAG_ADDR_HI_ADDR * 2 ^ 32) = .dram ∧ s.fc.stage = .change) ∧
    (let s := ((dram State.reset).setFlds [(F.CHURN_STAT_BUSY, 1), (F.CHURN_END_LO_ADDR, 1)]).setReg 0x180100 0x80000000
     s.retired s.churnPos = true ∧ s.region s.churnPos = .dram ∧ s.bit F.CHURN_STAT_BUSY = true) ∧
    (let s := rule 12 0 0 (dram State.reset)
     s.MayWrite 12 R.ECC_DIAG_CTL ∧ (s.region 0).units = true ∧ s.retired 0 = false ∧ s.permits 12 0 = true ∧ s.lineAt 0 = none ∧ s.permits 12 0x40 = false ∧
       (s.region 0x4100000000).units = false) := by and_intros <;> decide +kernel

/-! ### Protection, check values, Logbook, telemetry -/

/-- An event of 16 payload bytes, and the Logbook with it waiting. -/
def ev16 : LogEv := { typ := 0x8000, master := 8, payload := List.replicate 16 0, time := 0, last := 0, fold := true }
def logSt (f : LogSt → LogSt) : State := { State.reset with log := f State.reset.log }
/-- A block of one unit of payload at the start of the island. -/
def block16 : State := { State.reset with mem := Tbl.setN (fun _ => 0) State.reset.mem 0x4100000000 [0, 0x90, 1, 0] }

theorem test_log_append_offset : after 0 (exec .logAppend (logSt (fun l => { l with queue := [ev16] }))) (fun t => t.fld F.LOG_TAIL_OFF) = 6 ∧
    after 0 (exec .logAppend (logSt (fun l => { l with queue := [ev16] }))) (fun t => t.byte 0x4200000060) = 3 := by decide +kernel
theorem test_submit_types : after 9 (exec (.logSubmit 0 0x80000000) block16) (fun t => t.fld F.LOG_ERR_ERR) = 0 ∧
    after 9 (exec (.logSubmit 0 0x80000000) State.reset) (fun t => t.fld F.LOG_ERR_ERR) = 8 := by decide +kernel
/-- What unit 15 shows for "123456789" after `ctl` is written to its CVU_CTL. -/
def crcOf (ctl : Word) : Resp := after .none ((List.range 9).foldl (fun o k => match o with
      | .next t => execCvuFeed 12 15 0 (BitVec.ofNat 32 (0x31 + k)) t
      | o => o) (execCvuCtlWrite 12 15 ctl State.reset))
    (fun t => after .none (execCvuResultRead 12 15 false t) (fun u => u.resp))
/-- The check values of the table at R407. -/
theorem test_crc_table : crcOf 0x80000130 = .value 0xCBF43926 ∧ crcOf 0x80000131 = .value 0xE3069283 ∧ crcOf 0x80000102 = .value 0x29B1 ∧
    crcOf 0x80000003 = .value 0xF4 := by decide +kernel
theorem test_apply_counts : after 9 (exec (.mpuApply 12 0 0x80000000) State.reset) (fun t => t.fld (F.MPU_EPOCH_EPOCH 0)) = 1 := by decide +kernel
theorem test_dump_skipped : after 9 (exec (.teleDump true) (State.reset.setFlds [(F.TELE_DUMP_CTL_EN, 1), (F.TELE_DUMP_CTL_TICK, 0)])) (fun t => t.fld F.TELE_DUMP_SKIP_COUNT) = 1 := by decide +kernel

/-- ProtectionAndChecksums: a core in reset and not, a write waiting and not; ALONE taken in STANDALONE and not; every CVU register; both results of
a compare. -/
theorem meets_ProtectionAndChecksums :
    (State.reset.pwr.phase = .run ∧ State.reset.MayWrite 12 (R.MPU_EPOCH 76) ∧ State.reset.MayWrite 12 (R.MPU_EPOCH 0) ∧ (State.reset.core 7).run = .held ∧
      ((aSt 7 id).core 7).run ≠ .held) ∧
    (76 ∉ State.reset.applies ∧ 76 ∈ ({ State.reset with applies := [76] } : State).applies ∧
      ({ State.reset with applies := [76] } : State).unitWaits 76 = false ∧
      ({ fcSt .change with fc := { stage := .change, writes := [⟨12, 0, List.replicate 32 0, false⟩] } } : State).unitWaits 12 = true) ∧
    (State.reset.cvuLeft 15 = [] ∧ (State.reset.cvuLeft 15).length < 8 ∧
      (({ State.reset with cvus := [(15, List.replicate 8 ⟨0xC, 0, 4, none⟩)] } : State).cvuLeft 15).length = 8) ∧
    (State.reset.MayWrite 12 R.MPU_MAINT ∧ State.reset.role = 0 ∧ State.reset.pinsTaken = 3 ∧ (State.reset.setFld F.STEP_STATUS_ROLE 1).role ≠ 0 ∧
      (State.reset.setFld F.STEP_STATUS_ROLE 1).MayWrite 12 R.MPU_MAINT) ∧
    (State.reset.MayWrite 12 (R.CVU_CTL 15) ∧ State.reset.MayWrite 12 (cvuFeedReg 15 2) ∧ State.reset.MayWrite 12 (R.CVU_VALUE 15) ∧
      State.reset.MayWrite 12 (R.CVU_EXPECT 15) ∧ State.reset.MayWrite 12 (R.CVU_CMP 15) ∧ State.reset.fld (F.CVU_VALUE_VALUE 15) = State.reset.fld (F.CVU_EXPECT_EXPECT 15) ∧
      State.reset.bit (F.CVU_CTL_INVERT 15) = false ∧ (State.reset.setFld (F.CVU_VALUE_VALUE 15) 1).fld (F.CVU_VALUE_VALUE 15) ≠ 0) := by
  and_intros <;> decide +kernel
/-- LogbookRecords: nothing waiting; an event for the Keep area, for the Stream area, and for neither but the next; a re-arm; a block that is well
formed, one that is not, one past the end; a record to spill and none. -/
theorem meets_LogbookRecords :
    (State.reset.log.queue = [] ∧ State.reset.log.lostN = 0 ∧ State.reset.bit F.LOG_STAT_ARMING = false ∧ State.reset.bit F.LOG_STAT_KEEP_FULL = false) ∧
    (let s := logSt (fun l => { l with queue := [ev16] }); s.log.queue = ev16 :: [] ∧ s.log.lostN = 0 ∧ s.log.free + ev16.size ≤ s.log.keep * 0x10000) ∧
    (let s := (logSt (fun l => { l with queue := [ev16], free := 0x1FFFD0 })).setFld F.LOG_STAT_KEEP_FULL 1; s.log.queue = ev16 :: [] ∧ s.bit F.LOG_STAT_KEEP_FULL = true ∧
      s.log.free + ev16.size ≤ 0x200000 ∧ s.bit F.LOG_STAT_ARMING = false) ∧
    (let s := logSt (fun l => { l with queue := [ev16], free := 0x7FFE0 }); s.log.keep * 0x10000 < s.log.free + ev16.size ∧ s.log.queue = ev16 :: [] ∧
      ev16.size + s.log.keep * 0x10000 ≤ 0x200000 ∧ s.log.free + 8 ≤ s.log.keep * 0x10000) ∧
    ((State.reset.setFld F.LOG_STAT_ARMING 1).bit F.LOG_STAT_ARMING = true ∧ State.reset.bit F.LOG_SPILL_CTL_EN = false ∧ State.reset.spillNextRec = none) ∧
    (State.reset.pwr.phase = .run ∧ State.reset.MayWrite 12 R.LOG_CTL ∧ State.reset.MayWrite 12 R.LOG_SUBMIT ∧ State.reset.MayWrite 12 R.LOG_SPILL_CTL) ∧
    (leNat (block16.bytes 0x4100000000 2) = 0x9000 ∧ leNat (block16.bytes 0x4100000002 1) = 1 ∧ leNat (block16.bytes 0x4100000003 1) = 0 ∧
      leNat (block16.bytes 0x4100000004 12) = 0 ∧ (unitsOf (block16.region 0x4100000000) 0x4100000000 32).all (fun u => block16.delta u == 0) = true) ∧
    (0x100000 < 16 * bits (0x80010000 : Word).toNat 19 0 + 16 ∧ leNat (State.reset.bytes 0x4100000000 2) = 0) ∧
    (let s := (logSt (fun l => { l with recs := [⟨0, 48, 5⟩, ⟨48, 48, 6⟩] })).setFld F.LOG_SPILL_CTL_EN 1; s.bit F.LOG_SPILL_CTL_EN = true ∧ s.spillNextRec = some ⟨0, 48, 5⟩) := by
  and_intros <;> decide +kernel
/-- TelemetryDumps: the selections; dumps off; on at ticks, due and not; on by PERIOD. -/
theorem meets_TelemetryDumps :
    (State.reset.pwr.phase = .run ∧ State.reset.MayWrite 12 (R.TELE_SEL 255) ∧ State.reset.MayWrite 12 (R.TELE_HSEL 15) ∧ State.reset.bit F.TELE_DUMP_CTL_EN = false) ∧
    (let s := State.reset.setFlds [(F.TELE_DUMP_CTL_EN, 1), (F.TELE_DUMP_CTL_TICK, 1), (F.TICK_STATUS_RUNNING, 1)]
     s.bit F.TELE_DUMP_CTL_EN = true ∧ s.bit F.TELE_DUMP_CTL_TICK = true ∧ s.bit F.TICK_STATUS_RUNNING = true ∧ s.dump.tick ≠ some s.tickNo) ∧
    (let s := State.reset.setFlds [(F.TELE_DUMP_CTL_EN, 1), (F.TELE_DUMP_CTL_TICK, 1)]; s.bit F.TICK_STATUS_RUNNING = false ∧ s.bit F.TELE_DUMP_CTL_TICK = true) ∧
    (let s := State.reset.setFlds [(F.TELE_DUMP_CTL_EN, 1), (F.TELE_DUMP_CTL_TICK, 0)]; s.bit F.TELE_DUMP_CTL_EN = true ∧ s.bit F.TELE_DUMP_CTL_TICK = false) := by and_intros <;> decide +kernel

/-! ### Pairs -/

/-- A chip of role `r` with Q23 up, tick 2 running at time 0 since an epoch at 0. -/
def pairSt (r : Nat) (f : PairSt → PairSt) : State :=
  let s := (linkSt 23 4 4 id).setFlds [(F.STEP_STATUS_ROLE, r), (F.TICK_STATUS_RUNNING, 1)] |>.setReg R.TICK_COUNT_LO 2
  { s with pair := f s.pair }
/-- A message of tick `n` whose flags are `fl`. -/
def msg (n fl : Nat) : AgreeMsg :=
  let g : AgreeMsg := { tick := n, role := 2, health := 1, flags := fl, cmdCount := 0, cmds := [], digest := 7, heads := 0, readyTick := 0, stateCrc := 9, stateTick := 1, stream := [], input := [], endTick := n, crc := 0 }
  { g with crc := agreeCrc g }
/-- Deadline of tick 2 to come, nothing received. -/
def waits (p : PairSt) : PairSt := { p with deadlineDue := true }

theorem test_digest_differs : after false (exec (.agreementMessage 1 0 (msg 2 1)) (pairSt 1 (fun p => { waits p with dig := some (1, 8, 0) }))) (fun t =>
    t.fld F.STEP_CNT_MISMATCH_COUNT == 1 && t.fld F.STEP_DIG_PARTNER_DIGEST == 7) = true := by decide +kernel
theorem test_deadline_missed : after 9 (exec .agreeDeadline (pairSt 1 waits)) (fun t => t.fld F.STEP_CNT_AGREE_MISS_COUNT) = 1 := by decide +kernel
theorem test_snap_only_joining : after true (exec (.snapStart 1 0 0 0 0) (pairSt 2 id)) (fun t => t.pair.snap.isNone) = true ∧
    after true (exec (.snapStart 1 0 0 0 0) (pairSt 3 id)) (fun t => t.pair.snap.isNone) = false := by decide +kernel

/-- PairMessages: the tick running and standing; a message of each tick in each role, in time, late and already counted, with each thing it may
report; marks new and known, held and not; a snapshot in hand and none; baselines that fit and not. -/
theorem meets_PairMessages :
    ((pairSt 1 id).pwr.phase = .run ∧ (pairSt 1 id).up 23 = true ∧ ((pairSt 1 id).link 23).discard = false ∧ ((pairSt 1 id).link 23).expect = 0 ∧
      (pairSt 1 id).bit F.TICK_STATUS_RUNNING = true ∧ (pairSt 1 id).tickNo = 2 ∧ (pairSt 1 id).role = 1 ∧ State.reset.bit F.TICK_STATUS_RUNNING = false) ∧
    (agreeComplete (msg 2 1) = true ∧ (msg 1 0).tick < 2 ∧ 2 < (msg 3 0).tick ∧ agreeComplete { msg 2 0 with endTick := 3 } = false ∧
      agreeComplete { msg 2 0 with crc := 0 } = false ∧ (pairSt 0 id).role = 0) ∧
    ((pairSt 1 waits).pair.cur = none ∧ (pairSt 1 waits).pair.deadlineDue = true ∧ (pairSt 1 waits).nowNs ≤ (pairSt 1 waits).tickB 2 + 38000 ∧
      (pairSt 1 (fun p => { waits p with cur := some (msg 2 1) })).pair.cur ≠ none ∧ (pairSt 1 id).pair.deadlineDue = false ∧
      (pairSt 1 waits).pair.joinedAt ≠ some 2 ∧ (pairSt 4 waits).role = 4 ∧ (pairSt 4 waits).pair.deadlineDue = true) ∧
    (let s := pairSt 1 (fun p => { waits p with dig := some (1, 7, 0), states := [(1, 9)] })
     s.pair.dig = some (1, 7, 0) ∧ s.pair.states.find? (fun p => p.1 == (msg 2 9).stateTick) = some (1, 9) ∧ (msg 2 9).flags / 2 ^ 3 % 2 = 1 ∧ (msg 2 9).flags / 2 ^ 0 % 2 = 1) ∧
    ((msg 2 13).flags / 2 ^ 2 % 2 = 1 ∧ { msg 2 13 with readyTick := 5 }.readyTick = 5 ∧ (pairSt 1 waits).pair.spoilt = none ∧ (pairSt 1 waits).pair.partnerAt = none) ∧
    (let s := { dram (pairSt 1 id) with fc := { stage := .change } }; s.region (s.idxEntry 127 0) = .dram ∧ s.fc.stage = .change ∧ s.role = 1) ∧
    (((pairSt 1 id).dc 127).marks = [] ∧
      leNat (((pairSt 1 id).bytes ((pairSt 1 id).idxEntry 127 0) 32).take 8) = 0) ∧
    ((pairSt 3 id).role = 3 ∧ (pairSt 3 id).pair.snap = none ∧ (pairSt 3 (fun p => { p with snap := some ⟨4, 0, 0xFFFFFFFF, false⟩ })).pair.snap = some ⟨4, 0, 0xFFFFFFFF, false⟩ ∧
      (0xFFFFFFFF ^^^ 0xFFFFFFFF : Nat) = 0) ∧
    ((pairSt 2 id).role = 2 ∧ (0 : Nat) = (pairSt 2 id).tMutual.toNat ∧ 47 + 1 ≤ (pairSt 2 id).tN ∧ ¬48 + 1 ≤ (pairSt 2 id).tN) := by and_intros <;> decide +kernel

/-! ### Step registers, the arbiter, desk sensing -/

/-- An ACTIVE chip with Q23 up whose partner is JOINING, its snapshot list one range of 64 bytes at the start of general SRAM. -/
def snapSt : State :=
  let s := (pairSt 1 id).setFlds [(F.STEP_STATUS_PARTNER_ROLE, 3), (F.STEP_SNAP_LIST_HI_ADDR, 0x40)]
  { s with mem := Tbl.setN (fun _ => 0) s.mem 0x4000000000 (leBytes 8 0x4000000000 ++ leBytes 8 64) }
theorem test_ready_needs_syncing : after 9 (exec (.stepReady 12 2) (pairSt 2 id)) (fun t => t.fld F.STEP_CTL_READY) = 0 ∧
    after 9 (exec (.stepReady 12 2) (pairSt 3 id)) (fun t => t.fld F.STEP_CTL_READY) = 1 := by decide +kernel
theorem test_snap_refused : after 9 (exec (.snapSend 12 0x80000001) (pairSt 2 id)) (fun t => t.fld F.STEP_SNAP_STAT_REFUSED) = 1 := by decide +kernel
theorem test_arb_other : after .none (exec (.arbOtherCmd 7 2) State.reset) (fun t => t.resp) = .bytes [0xFF, 0xFF] := by decide +kernel

/-- StepRegistersAndArbiter: the control registers in each role; a snapshot sent, refused for the role and for the list, and with no quad up; join
registers free and held. -/
theorem meets_StepRegistersAndArbiter :
    (State.reset.pwr.phase = .run ∧ State.reset.MayWrite 12 R.STEP_CTL ∧ State.reset.MayWrite 12 R.STEP_HB ∧ State.reset.MayWrite 12 R.STEP_SNAP_CTL ∧
      State.reset.MayWrite 12 (R.STEP_JOIN 3) ∧ (pairSt 3 id).role = 3 ∧ (pairSt 3 id).MayWrite 12 R.STEP_CTL) ∧
    (State.reset.bit F.STEP_SNAP_STAT_BUSY = false ∧ (State.reset.setFld F.STEP_SNAP_STAT_BUSY 1).bit F.STEP_SNAP_STAT_BUSY = true ∧ State.reset.role ≠ 1 ∧
      State.reset.bit F.STEP_SNAP_CTL_GO = false) ∧
    (snapSt.MayWrite 12 R.STEP_SNAP_CTL ∧ snapSt.role = 1 ∧ snapSt.fld F.STEP_STATUS_PARTNER_ROLE = 3 ∧ snapSt.up 23 = true ∧
      (((snapSt.written R.STEP_SNAP_CTL 0x80000001).setFld F.STEP_SNAP_CTL_GO 0).snapRanges 1 0x4000000000).2 = some [(0x4000000000, 64)]) ∧
    (snapSt.waits (snapSt.region 0x4000000000) = false ∧
      ({ dram snapSt with fc := { stage := .change } } : State).waits (({ dram snapSt with fc := { stage := .change } } : State).region 0) = true) ∧
    ((((pairSt 1 id).setFld F.STEP_STATUS_PARTNER_ROLE 3).snapRanges 1 0x4000000000).2 = none) ∧
    (let s := { snapSt with regs := State.reset.regs }.setFlds [(F.STEP_STATUS_ROLE, 1), (F.STEP_STATUS_PARTNER_ROLE, 3), (F.STEP_SNAP_LIST_HI_ADDR, 0x40)]
     s.up 23 = false ∧ s.up 22 = false ∧ s.role = 1 ∧ s.fld F.STEP_STATUS_PARTNER_ROLE = 3 ∧
       (((s.written R.STEP_SNAP_CTL 0x80000001).setFld F.STEP_SNAP_CTL_GO 0).snapRanges 1 0x4000000000).2 = some [(0x4000000000, 64)]) := by
  and_intros <;> decide +kernel

/-- Scanning node 47, and no other, of an owner; at time `clk` since the scan began at 0. -/
def touchSt (scan : Bool) : State :=
  let s := State.reset.setFlds [(F.TOUCH_CTL_EN, 1), (F.TOUCH_PIN_EN_LO_EN, 0), (F.TOUCH_PIN_EN_HI_EN, 0x8000)]
  { s with touch := { s.touch with start := some 0, scan := scan } }
theorem test_scan_counts : after 9 (exec (.touchScanEnd (List.replicate 48 100)) (touchSt true)) (fun t => t.fld F.TOUCH_SCAN_COUNT) = 1 := by decide +kernel
theorem test_test_needs_owner : after 9 (exec (.touchTest 12 0x10) (State.reset.setFld F.STEP_STATUS_ROLE 2)) (fun t => t.fld F.TOUCH_ERR_ERR) = 16 := by decide +kernel
/-- DeskSensing: EN off, on; a test with and without the electrodes; a scan due, in progress, ended; capture of a table and a node touched; an open
node; a test running; an owner to start; an ACTIVE chip with Q23. -/
theorem meets_DeskSensing :
    (State.reset.pwr.phase = .run ∧ State.reset.MayWrite 12 R.TOUCH_CTL ∧ State.reset.bit F.TOUCH_CTL_EN = false ∧ State.reset.touchOwner = true ∧
      State.reset.bit F.TOUCH_STATUS_TEST_BUSY = false ∧ State.reset.MayWrite 12 (R.TOUCH_BASE 575) ∧ (State.reset.setFld F.STEP_STATUS_ROLE 2).touchOwner = false) ∧
    ((touchSt false).scanning' = true ∧ (touchSt false).touch.scan = false ∧ (touchSt false).bit F.TOUCH_STATUS_TEST_BUSY = false ∧
      ((touchSt false).setFld F.TOUCH_CTL_TEST 1).bit F.TOUCH_CTL_TEST = true ∧ State.reset.scanning' = false ∧ State.reset.touch.start = none) ∧
    ((touchSt true).touch.start = some 0 ∧ (touchSt true).touch.scan = true ∧ (touchSt true).tNodes = [47] ∧ (touchSt true).touch.first = true ∧
      (touchSt true).bit F.TOUCH_STATUS_BASE_VALID = false) ∧
    (let s := { (touchSt true).setFlds [(F.TOUCH_DET_TH, 5), (F.TOUCH_TESTCFG_OPEN_TH, 1)] with touch := { (touchSt true).touch with first := false } }
     s.touch.scan = true ∧ s.touch.first = false ∧ (s.fld F.TOUCH_DET_TH : Int) ≤ s.tDelta 47 100 ∧ s.tMutual = false ∧ ¬100 < s.fld F.TOUCH_TESTCFG_OPEN_TH ∧ 0 < s.fld F.TOUCH_TESTCFG_OPEN_TH) ∧
    ((State.reset.setFld F.TOUCH_STATUS_TEST_BUSY 1).bit F.TOUCH_STATUS_TEST_BUSY = true ∧ (State.reset.setFld F.TOUCH_STATUS_TEST_BUSY 1).bit F.TOUCH_CTL_TEST = false) ∧
    (let s := { State.reset with touch := { State.reset.touch with ownAt := some 5 } }
     s.touch.ownAt = some 5 ∧ State.reset.touch.ownAt = none ∧ s.bit F.TOUCH_CTL_EN = false ∧ s.bit F.TOUCH_CTL_TEST = false ∧
       (s.setFld F.TOUCH_CTL_EN 1).bit F.TOUCH_CTL_EN = true ∧ (s.setFld F.TOUCH_CTL_TEST 1).bit F.TOUCH_CTL_TEST = true ∧
       (s.setFld F.TOUCH_CTL_TEST 1).bit F.TOUCH_STATUS_TEST_BUSY = false) ∧
    (State.reset.touch.driving = true ∧ (touchSt true).bit F.TOUCH_CTL_INIT = false ∧
      (let s := State.reset.setFlds [(F.TOUCH_STATUS_TEST_BUSY, 1), (F.TOUCH_CTL_TEST, 1)]
       s.bit F.TOUCH_STATUS_TEST_BUSY = true ∧ s.bit F.TOUCH_CTL_TEST = true ∧ s.bit F.TOUCH_CTL_EN = false ∧ s.touch.driving = true)) ∧
    ((pairSt 1 id).touchOwner = true ∧ (pairSt 1 id).role = 1 ∧ (pairSt 1 id).up 23 = true) := by and_intros <;> decide +kernel

/-! ### Resets, power, management -/

def phaseSt (p : Phase) (f : PwrSt → PwrSt) : State := { State.reset with pwr := f { State.reset.pwr with phase := p } }
theorem test_reset_loses_dram : after 9 (exec (.resetSys 12 0 7) { State.reset with mem := [(5, 1), (0x4100000000, 2)] }) (fun t => t.byte 5 + t.byte 0x4100000000) = 2 := by
  decide +kernel
theorem test_reset_absorbs : after 9 (exec .resetPin (phaseSt .reset (fun p => { p with kind := 3 }))) (fun t => t.pwr.kind) = 2 ∧
    after 9 (exec .resetPin (phaseSt .reset (fun p => { p with kind := 0 }))) (fun t => t.pwr.kind) = 0 := by decide +kernel
theorem test_dip_limit : after 9 (exec (.dipEnd 2000000 600) (State.reset.setFld F.PWR_STATUS_DIP_ACTIVE 1)) (fun t => t.fld F.STEP_HEALTH_DEG_FLOOR) = 0 ∧
    after 9 (exec (.dipEnd 2000001 600) (State.reset.setFld F.PWR_STATUS_DIP_ACTIVE 1)) (fun t => t.fld F.STEP_HEALTH_DEG_FLOOR) = 1 := by decide +kernel
theorem test_release_needs_lock : after 9 (exec (.keepAppRelease 12 1) State.reset) (fun t => t.fld F.KEEP_ERR_ERR) = 1 := by decide +kernel
theorem test_idcode_low_bits : after 0 (exec .idcode State.reset) (fun t => match t.resp with | .value v => v % 2 ^ 12 | _ => 0) = 0x56F := by decide +kernel
theorem test_xspi_page_cross : after 9 (exec (.xspiProgram 12 0x80000100) (State.reset.setFld F.MGMT_XSPI_ADDR_OFF 0x300001)) (fun t => t.fld F.MGMT_XSPI_STAT_REFUSED) = 1 := by
  decide +kernel
theorem test_gpio_rising : after 0 (exec (.gpioEdge 31 true) (State.reset.setReg R.MGMT_GPIO_IRQ_CFG_HI 0x40000000)) (fun t => t.reg R.MGMT_GPIO_IRQ_STAT) = 0x80000000 := by
  decide +kernel
theorem test_uart_read : after .none (exec (.uartRxRead 12 1) { State.reset with uarts := [(1, ⟨[], [0x41], 0⟩)] }) (fun t => t.resp) = .value 0x141 := by decide +kernel

/-- A flash whose slot 0 holds one block of zeros, entered at its start, under the public key that RFC 6979 gives for its P-256 examples and a
signature made for this image with that example's private key; the fuses hold the hash of the key. -/
def key0 : List Byte :=
  (leBytes 32 0x60FED4BA255A9D31C961EB74C6356D68C049B8923B61FA6CE669622E60F29FB6).reverse ++
  (leBytes 32 0x7903FE1008B8BC99A41AE9E95628BC64F2F1B20C2D7E9F5177A3C294D4462299).reverse
def sign0 : List Byte :=
  (leBytes 32 0x74BD081C45680D60CE0C60479ECFFC6FF19A66ED4A5E0FAF7FA2E1D2CB8BBF88).reverse ++
  (leBytes 32 0x1842EBB06EE88A9A9F1B35F2718D38DC2ED338B480BBACE44E75F4408229AC62).reverse
def header0 : List Byte :=
  slice (leBytes 4 0x464B4E56 ++ leBytes 2 1 ++ leBytes 2 0 ++ leBytes 4 1 ++ leBytes 4 64) 0 64 ++ key0 ++ sign0
def flashed : State := { phaseSt .reset (fun p => { p with keyHash := sha256 key0 }) with
  flash := ((List.range 320).map (fun k => (k, header0.getD k 0))).filter (fun e => e.2 != 0xFF) }
/-- FIPS 180-4, example of one block: the hash of "abc". -/
theorem test_sha256_abc : beNat (sha256 [0x61, 0x62, 0x63]) = 0xBA7816BF8F01CFEA414140DE5DAE2223B00361A396177A9CB410FF61F20015AD := by decide +kernel
/-- RFC 6979, P-256, SHA-256 of "sample": the published signature verifies; no other hash of it does. -/
theorem test_ecdsa_sample :
    let sig := (leBytes 32 0xEFD48B2AACB6A8FD1140DD9CD45E81D69D2C877B56AAF991C34D0EA84EAF3716).reverse ++
      (leBytes 32 0xF7CB1C942D657C41D436C7A1B6E29F65F3E900DBB9AFF4064DC4AB2F843ACDA8).reverse
    ecdsaOk key0 sig (sha256 [0x73, 0x61, 0x6D, 0x70, 0x6C, 0x65]) = true ∧ ecdsaOk key0 sig (sha256 [0x73]) = false := by
  and_intros <;> decide +kernel
/-- ResetsAndBoot: a slot that is accepted, and one that is not (no key fused). -/
theorem meets_slotCheck : flashed.pwr.phase = .reset ∧ flashed.slotCheck 0 true = 0 ∧ (phaseSt .reset id).slotCheck 0 true ≠ 0 ∧
    (phaseSt .reset id).slotCheck 1 true ≠ 0 := by
  and_intros <;> decide +kernel
/-- ResetsAndBoot: each phase, each kind being taken; the writes of KEEP_RESET and its instances; the release with a slot in question. -/
theorem meets_ResetsAndBoot :
    (State.reset.pwr.phase = .run ∧ State.reset.MayWrite 12 R.KEEP_RESET ∧ (15 : BitVec 5).toNat < 16 ∧ (16 : BitVec 5).toNat < 24 ∧ 24 ≤ (24 : BitVec 5).toNat) ∧
    ((phaseSt .deep id).pwr.phase = .deep ∧ (phaseSt .retain id).pwr.phase = .retain ∧ (phaseSt .rails id).pwr.phase ≠ .reset) ∧
    (flashed.pwr.phase = .reset ∧ flashed.pwr.kind = 0 ∧ (phaseSt .reset (fun p => { p with kind := 4 })).pwr.kind ≠ 0 ∧
      (let s := (phaseSt .deep id).setFlds [(F.PWR_WAKE_EN, 3), (F.PWR_WAKE_TIMER_SEC, 1)]
       s.bitAt F.PWR_WAKE_EN 0 = true ∧ s.bitAt F.PWR_WAKE_EN 1 = true ∧ s.fld F.PWR_WAKE_TIMER_SEC ≠ 0 ∧ s.pwr.phase = .deep) ∧
      ({ flashed with log := { flashed.log with newest := some ev16 } } : State).log.queue.length < 64 ∧ ev16.typ ≠ 2) ∧
    (rowAt R.KEEP_CAUSE).isSome = true ∧ State.reset.bit F.KEEP_BOOT_HALT = false := by
  and_intros <;> decide +kernel
/-- Asleep, with the code kept in the island as it was when it was measured. -/
def asleep : State := phaseSt .retain (fun p => { p with warm := some (64, 0, sha256 (State.reset.bytes 0x4100000000 64)) })
/-- RailsAndPower: rails coming up and up; a dip running and not; DVFS free and wrong; the wall still and not, memory cold; woken and not; a fuse to
blow and none; a release allowed and not; RETAIN with its wakes. -/
theorem meets_RailsAndPower :
    ((phaseSt .rails id).pwr.phase = .rails ∧ State.reset.pwr.phase = .run ∧ State.reset.bit F.PWR_STATUS_DIP_ACTIVE = false ∧
      (State.reset.setFld F.PWR_STATUS_DIP_ACTIVE 1).bit F.PWR_STATUS_DIP_ACTIVE = true ∧
      (phaseSt .run (fun p => { p with vSlot := some 0 })).pwr.vSlot = some (State.reset.time.clk / 50) ∧ State.reset.log.queue.length < 64) ∧
    (State.reset.MayWrite 12 R.PWR_DVFS ∧ State.reset.bit F.PWR_STATUS_DVFS_BUSY = false ∧ State.reset.bit F.DDR_FC_STAT_BUSY = false ∧
      ¬State.reset.fld (F.DDR_STATUS_POINT 0) < 0 ∧ (State.reset.setFld F.DDR_FC_STAT_BUSY 1).bit F.DDR_FC_STAT_BUSY = true ∧
      (State.reset.setFld F.DDR_FC_STAT_BUSY 1).MayWrite 12 R.PWR_DVFS) ∧
    (State.reset.MayWrite 12 R.PWR_STATE ∧ State.reset.pwr.rolePins = 3 ∧ State.reset.bit F.TICK_STATUS_RUNNING = false ∧
      (∀ h, h < 32 → State.reset.fld (F.HEAD_STATUS_STATE h) = 0) ∧ State.reset.bit F.DDR_GCTL_READY = false ∧
      (phaseSt .run (fun p => { p with rolePins := 1 })).pwr.rolePins = 1) ∧
    (State.reset.MayWrite 12 R.PWR_DDR_RESUME ∧ State.reset.pwr.woke = false ∧ (phaseSt .run (fun p => { p with woke := true })).pwr.woke = true ∧
      (phaseSt .run (fun p => { p with woke := true })).MayWrite 12 R.PWR_DDR_RESUME) ∧
    (State.reset.MayWrite 12 R.KEEP_WDOG_KICK ∧ State.reset.MayWrite 12 R.KEEP_FUSE_BURN ∧ ¬State.reset.pwr.fuses < State.reset.fld F.KEEP_BOOT_VER_VERSION ∧
      State.reset.pwr.fuses < (State.reset.setFld F.KEEP_BOOT_VER_VERSION 1).fld F.KEEP_BOOT_VER_VERSION) ∧
    (State.reset.MayWrite 12 R.KEEP_APP_RELEASE ∧ ¬State.reset.bit F.FG_LOCK_LOCK = true ∧
      (let s := State.reset.setFlds [(F.FG_LOCK_LOCK, 1), (F.DDR_GCTL_READY, 1)]
       s.MayWrite 12 R.KEEP_APP_RELEASE ∧ s.bit F.FG_LOCK_LOCK = true ∧ s.bit F.DDR_GCTL_READY = true)) ∧
    ((asleep.setFld F.PWR_WAKE_EN 7).bitAt F.PWR_WAKE_EN 0 = true ∧ asleep.pwr.phase = .retain ∧ (2 : BitVec 2).toNat ≠ 3 ∧ (2 : BitVec 2).toNat ≠ 0 ∧
      (asleep.setFld F.PWR_WAKE_TIMER_SEC 1).fld F.PWR_WAKE_TIMER_SEC ≠ 0) := by and_intros <;> decide +kernel
theorem meets_RailsAndPower_warm : asleep.pwr.warm = some (64, 0, sha256 (asleep.bytes 0x4100000000 64)) ∧ (64 : Nat) ≤ 0x100000 := ⟨rfl, by decide⟩
/-- BootFlash: no operation, one of each kind in progress; a command allowed, and refused; a stalled read of a core and of a sequencer. -/
theorem meets_BootFlash :
    (State.reset.pwr.phase = .run ∧ State.reset.MayWrite 12 R.MGMT_XSPI_CMD ∧ State.reset.pwr.xop = none ∧ State.reset.xspiSize = 2 ^ 24) ∧
    (let s := phaseSt .run (fun p => { p with xop := some ⟨2, 0x1F0000, [], 0⟩ }); s.pwr.xop = some ⟨2, 0x1F0000, [], 0⟩ ∧ s.MayWrite 12 R.MGMT_XSPI_CMD) ∧
    (let s := kSt (fun x => { x with run := .xip, xip := some ⟨31, 8, true, 0x6000FFFFF8, 0, false, none⟩ })
     (s.core 12).xip = some ⟨31, 8, true, 0x6000FFFFF8, 0, false, none⟩ ∧ (s.core 12).run = .xip ∧ s.pwr.xop = none ∧ s.regionN 0x6000FFFFF8 8 = .xspi ∧ s.NoneWaits 12 0x6000FFFFF8 8) ∧
    (let s := tSt 3 (fun x => { x with xip := some ⟨4, 32, false, 0x6000000000, 0x43000C0010, true, none⟩ })
     (s.core 11).xip = some ⟨4, 32, false, 0x6000000000, 0x43000C0010, true, none⟩ ∧ s.regionN 0x6000000000 32 = .xspi) ∧
    (let s := kSt (fun x => { x with run := .held, xip := some ⟨31, 8, true, 0x6000FFFFF8, 0, false, none⟩ }); (s.core 12).xip ≠ none ∧ (s.core 12).run = .held) := by
  and_intros <;> decide +kernel
/-- TestAccessPort: dead and live; the access register selected or not, free and in use; accesses to SRAM, the flash, register space, no memory. -/
theorem meets_TestAccessPort :
    ((phaseSt .rails id).pwr.phase = .rails ∧ (phaseSt .deep id).pwr.phase = .deep ∧ State.reset.pwr.phase ≠ .rails ∧ State.reset.pwr.phase ≠ .deep) ∧
    ((0x21 : Byte) ∉ [(0x00 : Byte), 0x01, 0x02, 0x20] ∧ State.reset.tap.ir ≠ 0x20 ∧ State.reset.tap.req = none) ∧
    (let s := { State.reset with tap := { State.reset.tap with ir := 0x20, req := some (0x4100000000 * 2 ^ 256 + 2 * 2 ^ 304) } }
     s.tap.ir = 0x20 ∧ s.tap.req = some (0x4100000000 * 2 ^ 256 + 2 * 2 ^ 304) ∧ (s.regionN 0x4100000000 32).sram = true ∧
       (unitsOf (s.region 0x4100000000) 0x4100000000 32).all (fun u => s.delta u == 0) = true ∧ s.regionN 0x6000FFFFE0 32 = .xspi ∧ s.region 0x5000FFFFFC = .reg ∧
       s.regionN 0x4000DFFFFC 8 = .none) ∧
    (boundaryCells[311]?.isSome = true ∧ ({ State.reset with tap := { State.reset.tap with ir := 0 } } : State).tap.ir = 0 ∧ State.reset.tap.ir ≠ 0) ∧
    (let s := { dram State.reset with fc := { stage := .change }, tap := { State.reset.tap with ir := 0x20, req := some 0 } }
     s.tap.req = some 0 ∧ s.waits (s.region 0) = true ∧ (0 : Nat) / 2 ^ 306 % 2 ≠ 1) ∧
    (let d : BitVec 312 := 0x5000060014 * 2 ^ 256 + 2 ^ 306
     State.reset.region (d.toNat / 2 ^ 256 % 2 ^ 48) = .reg ∧ d.toNat / 2 ^ 304 % 4 = 0 ∧ d.toNat / 2 ^ 256 % 4 = 0 ∧ d.toNat / 2 ^ 306 % 2 = 1) := by
  and_intros <;> decide +kernel
/-- ManagementPorts: a controller free and busy; a UART off and on, its queues empty, holding a byte and full. -/
theorem meets_ManagementPorts :
    (State.reset.pwr.phase = .run ∧ State.reset.MayWrite 12 (R.MGMT_I2C_CTL 3) ∧ State.reset.bit (F.MGMT_I2C_STAT_BUSY 3) = false ∧
      (State.reset.setFld (F.MGMT_I2C_STAT_BUSY 3) 1).bit (F.MGMT_I2C_STAT_BUSY 3) = true ∧ State.reset.MayWrite 12 (R.MGMT_UART_TX 1)) ∧
    ((State.reset.uart 1).tx = [] ∧ (State.reset.uart 1).rx = [] ∧ State.reset.bit (F.MGMT_UART_CFG_EN 1) = false ∧
      (State.reset.setFld (F.MGMT_UART_CFG_EN 1) 1).bit (F.MGMT_UART_CFG_EN 1) = true) ∧
    (let s : State := { State.reset with uarts := [(1, ⟨List.replicate 64 1, List.replicate 64 2, 0⟩)] }
     64 ≤ (s.uart 1).tx.length ∧ 64 ≤ (s.uart 1).rx.length ∧ s.MayWrite 12 (R.MGMT_UART_TX 1)) ∧
    (let s : State := { State.reset.setFld (F.MGMT_UART_CFG_EN 1) 1 with uarts := [(1, ⟨[1], [2], 0⟩)] }
     (s.uart 1).tx = 1 :: [] ∧ (s.uart 1).rx = 2 :: [] ∧ s.bit (F.MGMT_UART_CFG_EN 1) = true) := by and_intros <;> decide +kernel

/-! ### The machine as a whole -/

theorem test_reset_queue : State.reset.pending = [] := rfl
theorem test_reset_runs : State.reset.pwr.phase = .run ∧ (State.reset.core 12).pc = 0x5F00000000 := by decide +kernel
theorem test_step_takes_front : after 9 (step { State.reset with pending := [.ictlSwiSet 12 256, .idcode] }) (fun t => t.pending.length) = 1 := by decide +kernel
theorem test_reg_write_hole : after .none (exec (.regWrite 12 0xFFFFFC 1) State.reset) (fun t => t.resp) = .busError := by decide +kernel
theorem test_ecc_corrects : rgAfter (exec (.ldq 12 0 4 1 0) { dram (kSt id) with mem := [(7, 0x55)], chk := [(0, 1)] }) 12 4 = 0x5500000000000000 := by decide +kernel
theorem test_ecc_poison : after 0 (exec (.ld 12 0 4 1 0) { dram (kSt id) with chk := [(0, 0xA5A5A5A5)] }) (fun t => (t.core 12).ecause) = 13 := by decide +kernel

/-- MemoryStaysCanonical: a state in canonical form with a command that writes memory. -/
theorem meets_MemoryStaysCanonical : let s := { kIsl (withRg 2 5) with pending := [.sd 12 0 2 1 0] }
    Memory.wf s.mem = true ∧ after false (step s) (fun t => t.mem64 0x4100000000 == 5) = true := by decide +kernel
/-- RegWriteAccessTypes: no register; one of the guard's registers free, locked, and changed under the lock; FG_LOCK by the Keeper and by a core. -/
theorem meets_RegWriteAccessTypes :
    (State.reset.pwr.phase = .run ∧ rowAt 0xFFFFFC = none ∧ State.reset.inboxAt R.FG_BOUND = none ∧ (rowAt R.FG_BOUND).isSome = true ∧ R.FG_BOUND / 0x10000 = 0x70) ∧
    (∃ f ∈ ((rowAt R.FG_BOUND).map (·.fields)).getD [], (State.reset.setFld F.FG_LOCK_LOCK 1).turnsAway 12 R.FG_BOUND f = true ∧
      wouldAct (writeFn 12 R.FG_BOUND) State.reset R.FG_BOUND f 0xFFFFFFFF = true) ∧
    State.reset.bit F.MPU_MAINT_ACTIVE = false := by and_intros <;> decide +kernel
/-- EccCorrectsOneSymbol: an error in the last check byte; a word of DRAM with it, and one that is poisoned. -/
theorem meets_EccCorrectsOneSymbol :
    (∀ j, j < 4 → synd 1 j = gfMul 1 (gfPow (3 * j))) ∧ (0x3FFFFFE0 % 32 = 0 ∧ (dram State.reset).regionN 0x3FFFFFE0 32 = .dram ∧ (dram State.reset).retired 0x3FFFFFE0 = false ∧ (dram State.reset).fc.stage ≠ .change) ∧
    dramEcc 1 = .corrected 32 1 ∧ dramEcc 0xA5A5A5A5 = .poison := by and_intros <;> decide +kernel

end Sys2Proof.Tests
end

section
/-!
PROOFS. The writes of the TICK block and the tick's start and stop (R40 to R42, R45): what a plain register write leaves in its fields, the
first boundary, the heads that go on from their lines, and the bound on what a stop changes.
-/
namespace Sys2Proof.Machine

variable {s : State} {m : Mst} {w : Word}

/-! ### What a plain register write leaves -/

/-- Replacing fields that share no bit, one after the other, leaves in each what it was given. -/
theorem bits_foldl_putBits (x : RegField → Nat) {f : RegField} : ∀ (fs : List RegField) (v : Nat), f ∈ fs → (∀ g ∈ fs, g.lo ≤ g.hi) →
    fs.Pairwise (fun f g => f.hi < g.lo ∨ g.hi < f.lo) →
    bits (fs.foldl (fun v g => putBits v g.hi g.lo (x g)) v) f.hi f.lo = x f % 2 ^ (f.hi + 1 - f.lo) := by
  intro fs
  induction fs using List.reverseRecOn with
  | nil => simp
  | append_singleton fs g ih =>
    intro v hf hok hap
    obtain ⟨hap, -, hg⟩ := List.pairwise_append.mp hap
    rw [List.foldl_append, List.foldl_cons, List.foldl_nil]
    rcases List.mem_append.mp hf with hf | hf
    · rw [bits_putBits_apart _ _ _ _ _ _ (hok g (by simp)) (hok f (by simp [hf])) (hg f hf g (by simp)).symm]
      exact ih v hf (fun g hg => hok g (by simp [hg])) hap
    · obtain rfl := List.mem_singleton.mp hf
      exact bits_putBits_same _ _ _ _ (hok f (by simp))

/-- The fields of the register at `off`, as `regAfter` goes through them. -/
def fieldsAt (off : Nat) : List RegField := ((rowAt off).map (·.fields)).getD []

/-- Each field has its bits in order, and no two share one. -/
abbrev FieldsApart (fs : List RegField) : Prop :=
  (∀ g ∈ fs, g.lo ≤ g.hi) ∧ fs.Pairwise (fun f g => f.hi < g.lo ∨ g.hi < f.lo)

theorem freeWrite_plain_eq (s : State) (off w : Nat) : (freeWrite s off w).plain off = s.written off w := rfl

/-- A field that takes what is written to it reads as that afterwards. -/
theorem fld_written (w : Nat) {f : RegField} {off : Nat} (hf : f ∈ fieldsAt off) (hacc : f.acc = .rw ∨ f.acc = .rws)
    (hhi : f.hi < 32) (hap : FieldsApart (fieldsAt off)) : (s.written off w).fld ⟨off, f.hi, f.lo⟩ = bits w f.hi f.lo := by
  have hlo := hap.1 f hf
  have hmask : (bits (2 ^ 32 - 1) f.hi f.lo == 0) = false := by
    have : 2 ^ 1 ≤ 2 ^ (f.hi + 1 - f.lo) := Nat.pow_le_pow_right (by omega) (by omega)
    rw [bits_mask _ _ hlo hhi, beq_eq_false_iff_ne]
    omega
  have hval : fieldAfter f (s.reg off).toNat (w % 2 ^ 32) (2 ^ 32 - 1) = bits w f.hi f.lo := by
    rw [fieldAfter, hmask, ← bits_mod w 32 f.hi f.lo hhi]
    rcases hacc with h | h <;> simp only [h, Bool.false_eq_true, if_false]
  rw [State.fld, State.written, Admit.plain, reg_setReg_same, BitVec.toNat_ofNat, bits_mod _ _ _ _ hhi]
  refine (bits_foldl_putBits (fun g => fieldAfter g (s.reg off).toNat (w % 2 ^ 32) (2 ^ 32 - 1)) (fieldsAt off) _ hf hap.1 hap.2).trans ?_
  rw [hval, Nat.mod_eq_of_lt (bits_lt _ _ _)]

/-- A register whose one field takes the whole word holds the word written. -/
theorem written_word {off : Nat} {k : Guard} {r : Nat} (w : Word) (hf : fieldsAt off = [⟨31, 0, .rw, k, r⟩]) :
    s.written off w.toNat = s.setReg off w := by
  have h := fld_written (s := s) w.toNat (f := ⟨31, 0, .rw, k, r⟩) (off := off) (by simp [hf]) (.inl rfl) (by simp) (by simp [hf, FieldsApart])
  have hw : (s.written off w.toNat).reg off = w := by
    rw [State.fld, bits_full _ _ (BitVec.isLt _), bits_full _ _ w.isLt] at h
    exact BitVec.eq_of_toNat_eq h
  calc s.written off w.toNat = s.setReg off ((s.written off w.toNat).reg off) := by
        simp only [State.written, Admit.plain, reg_setReg_same, freeWrite_st]
    _ = s.setReg off w := by rw [hw]

theorem reg_written_ne {off o : Nat} (w : Nat) (h : o ≠ off) : (s.written off w).reg o = s.reg o := reg_setReg_ne s _ h

theorem fld_written_ne {off : Nat} (f : Fld) (w : Nat) (h : f.addr ≠ off) : (s.written off w).fld f = s.fld f := by
  rw [State.fld, reg_written_ne w h, State.fld]

/-- A master that may write the register may write its field. -/
theorem freeWrite_wrote {f : RegField} {off : Nat} (s : State) (w : Nat) (hf : f ∈ fieldsAt off) (hacc : f.acc ≠ .ro)
    (hok : Fld.ok ⟨off, f.hi, f.lo⟩) : (freeWrite s off w).wrote off = true :=
  List.any_eq_true.mpr ⟨f, hf, by
    have := freeWrite_took s off w ⟨off, f.hi, f.lo⟩ hok
    simp only [Admit.took] at this
    simp [hacc, this]⟩

/-- A register whose one field is the whole word. -/
theorem reg_setFld_word (s : State) {f : Fld} {v : Nat} (hhi : f.hi = 31) (hlo : f.lo = 0) : (s.setFld f v).reg f.addr = BitVec.ofNat 32 v := by
  have h := fld_setFld_same s f v ⟨by omega, by omega⟩
  rw [State.fld, hhi, hlo, bits_full _ _ (BitVec.isLt _)] at h
  exact BitVec.eq_of_toNat_eq (h.trans (BitVec.toNat_ofNat _ _).symm)

theorem bit_eq_true (f : Fld) : s.bit f = true ↔ s.fld f = 1 := beq_iff_eq

theorem bit_eq_false_of_fld_zero {f : Fld} (h : s.fld f = 0) : s.bit f = false := by simp [State.bit, h]

/-- Bit `i` of a word as a field of one bit. -/
theorem bits_single (w : Word) (i : Nat) : bits w.toNat i i = (w.getLsbD i).toNat := by
  rw [bits, show i + 1 - i = 1 by omega, Nat.pow_one, ← Nat.toNat_testBit]; rfl

/-! ### The fields of the TICK block (R39, R44) -/

theorem fieldsAt_tickRate : fieldsAt R.TICK_RATE = [⟨31, 16, .rw, .keeper, 1⟩, ⟨15, 0, .rw, .keeper, 0x3C⟩] := by decide +kernel
theorem fieldsAt_tickCtrl : fieldsAt R.TICK_CTRL = [⟨11, 8, .rw, .keeper, 2⟩, ⟨0, 0, .rw, .keeper, 0⟩] := by decide +kernel
theorem fieldsAt_tickEpoch : ∀ i : Fin 3, fieldsAt (R.TICK_EPOCH_0 + 4 * i.val) = [⟨31, 0, .rw, .keeper, 0⟩] := by decide +kernel
theorem fieldsAt_tickHphase : ∀ h : Fin 32, fieldsAt (R.TICK_HPHASE h) = [⟨31, 31, .rws, .open, 0⟩, ⟨25, 0, .rws, .open, 0⟩] := by
  decide +kernel

/-! ### Heads updated one by one (R275) -/

theorem hd_updHd (s : State) (h j : Nat) (f : HeadSt → HeadSt) : (s.updHd h f).hd j = if j = h then f (s.hd h) else s.hd j :=
  Tbl.get_set ..

/-- The running heads of the list `l` changed by `g`, each by its own number. -/
def updRunning (g : Nat → HeadSt → HeadSt) (t : State) (l : List Nat) : State :=
  l.foldl (fun u h => if u.headRuns h then u.updHd h (g h) else u) t

theorem reAnchor_eq (s t : State) : s.reAnchor t =
    updRunning (fun h x => { x with skewT := x.skewT + ((s.lineAt40 h x.line : Int) - t.lineAt40 h x.line) }) t (List.range 32) := rfl

theorem updRunning_frame (g : Nat → HeadSt → HeadSt) (l : List Nat) : ∀ t : State,
    updRunning g t l = { t with heads := (updRunning g t l).heads } := by
  induction l with
  | nil => intro t; rfl
  | cons a l ih =>
    intro t
    refine (ih (if t.headRuns a then t.updHd a (g a) else t)).trans ?_
    rw [updRunning, updRunning, List.foldl_cons]
    split <;> rfl

/-- Each running head of the list is changed once, by its own number; the others stay. -/
theorem hd_updRunning (g : Nat → HeadSt → HeadSt) (l : List Nat) : l.Nodup → ∀ (t : State) (j : Nat),
    (updRunning g t l).hd j = if j ∈ l ∧ t.headRuns j = true then g j (t.hd j) else t.hd j := by
  induction l with
  | nil => intro _ t j; simp [updRunning]
  | cons a l ih =>
    intro hl t j
    obtain ⟨ha, hl⟩ := List.nodup_cons.mp hl
    let u := if t.headRuns a then t.updHd a (g a) else t
    have hruns : u.headRuns j = t.headRuns j := by
      show State.headRuns (if _ then _ else _) j = _
      split <;> rfl
    have hhd : u.hd j = if j = a ∧ t.headRuns a = true then g a (t.hd a) else t.hd j := by
      show State.hd (if _ then _ else _) j = _
      by_cases hr : t.headRuns a <;> simp [hr, hd_updHd]
    refine (ih hl u j).trans ?_
    rw [hruns, hhd]
    by_cases hj : j = a
    · subst hj; simp [ha]
    · simp [hj]

/-! ### The first boundary (R42) -/

theorem ceilDiv_le_iff {a b c : Nat} (h : 0 < b) : ceilDiv a b ≤ c ↔ a ≤ c * b := by
  rw [ceilDiv, Nat.div_le_iff_le_mul_add_pred h, Nat.mul_comm]
  omega

/-- Boundary `n` lies at least 1 ms ahead of the counter from the first tick of R42 on. -/
theorem firstTick_le_iff (hd : s.tickDen ≠ 0) (n : Nat) :
    s.firstTick ≤ n ↔ s.time.now + 1000000 * 2 ^ 40 ≤ s.tickB n * 2 ^ 40 := by
  have hden : 1 ≤ s.tickDen := Nat.one_le_iff_ne_zero.mpr hd
  have hnum : 0 < s.tickNum := Nat.lt_of_lt_of_le Nat.one_pos (Nat.le_max_left _ _)
  have hq : ∀ x, x * s.tickNum ≤ n * (s.tickDen * 1000000000) ↔ x ≤ n * s.tickDen * 1000000000 / s.tickNum := fun x => by
    rw [Nat.le_div_iff_mul_le hnum, Nat.mul_assoc]
  rw [State.firstTick, Nat.max_eq_right hden, ceilDiv_le_iff (by omega), hq, State.tickB, ceilDiv]
  generalize n * s.tickDen * 1000000000 / s.tickNum = q
  omega

/-! ### What stopping the tick may change (R35, R42, R283, R438, R441) -/

/-- The registers outside the TICK block. -/
abbrev OutsideTick (o : Nat) : Prop := o < 0x30000 ∨ 0x40000 ≤ o

/-- `t` is `s` after some of what a stop of the tick does to heads, pair and counter: the parts named in `frame` apart nothing changes; of the
TICK block at most bits of TICK_LOCK clear; no boundary or midpoint becomes due, and no step becomes armed. -/
structure State.HaltsTo (s t : State) : Prop where
  frame : t = { s with regs := t.regs, mem := t.mem, time := t.time, log := t.log, layers := t.layers, heads := t.heads, wbs := t.wbs,
                       pair := t.pair, touch := t.touch, links := t.links }
  tick : ∀ o, ¬ OutsideTick o → o ≠ R.TICK_LOCK → t.reg o = s.reg o
  lock : s.reg R.TICK_LOCK = 0 → t.reg R.TICK_LOCK = 0
  nextN : t.time.nextN = s.time.nextN
  midDue : t.time.midDue = s.time.midDue
  armed : s.time.armed = none → t.time.armed = none

namespace State.HaltsTo

theorem refl (s : State) : s.HaltsTo s := ⟨rfl, fun _ _ _ => rfl, id, rfl, rfl, id⟩

theorem trans {s t u : State} (h : s.HaltsTo t) (k : t.HaltsTo u) : s.HaltsTo u where
  frame := k.frame.trans (by rw [h.frame])
  tick o ho hl := (k.tick o ho hl).trans (h.tick o ho hl)
  lock := k.lock ∘ h.lock
  nextN := k.nextN.trans h.nextN
  midDue := k.midDue.trans h.midDue
  armed := k.armed ∘ h.armed

theorem ite {c : Prop} [Decidable c] {t u : State} (ht : s.HaltsTo t) (hu : s.HaltsTo u) : s.HaltsTo (if c then t else u) := by
  split
  · exact ht
  · exact hu

theorem foldl {α : Type} {f : State → α → State} (h : ∀ (s : State) a, s.HaltsTo (f s a)) (l : List α) : ∀ s : State, s.HaltsTo (l.foldl f s) := by
  induction l with
  | nil => exact refl
  | cons a l ih => exact fun s => (h s a).trans (ih _)

/-- A field of the TICK block outside TICK_LOCK. -/
theorem fld_eq {t : State} (h : s.HaltsTo t) (f : Fld) (ho : ¬ OutsideTick f.addr) (hl : f.addr ≠ R.TICK_LOCK) : t.fld f = s.fld f := by
  rw [State.fld, h.tick _ ho hl, State.fld]

/-- A change of nothing but what a stop may change, the registers and the counter apart. -/
theorem of_parts (s : State) (mem : List Host.Cell) (log : LogSt) (layers : List Layer) (heads : Tbl HeadSt) (wbs : Tbl WbSt) (pair : PairSt)
    (touch : TouchSt) (links : Tbl LinkSt) :
    s.HaltsTo { s with mem := mem, log := log, layers := layers, heads := heads, wbs := wbs, pair := pair, touch := touch, links := links } :=
  ⟨rfl, fun _ _ _ => rfl, id, rfl, rfl, id⟩

/-- A register write that spares the TICK block, or leaves TICK_LOCK at 0. -/
theorem of_setReg (s : State) (o : Nat) (v : Word) (ho : OutsideTick o ∨ o = R.TICK_LOCK)
    (hv : s.reg R.TICK_LOCK = 0 → (s.setReg o v).reg R.TICK_LOCK = 0) : s.HaltsTo (s.setReg o v) where
  frame := rfl
  tick j hj hl := reg_setReg_ne s v (by rintro rfl; exact ho.elim hj hl)
  lock := hv
  nextN := rfl
  midDue := rfl
  armed := id

theorem setReg (s : State) {o : Nat} (v : Word) (h : OutsideTick o) : s.HaltsTo (s.setReg o v) :=
  of_setReg s o v (.inl h) (fun hl => (reg_setReg_ne s v (by rintro rfl; exact absurd h (by decide))).trans hl)

theorem setFld (s : State) {f : Fld} (v : Nat) (h : OutsideTick f.addr) : s.HaltsTo (s.setFld f v) := setReg s _ h

theorem setFlds (s : State) {l : List (Fld × Nat)} (h : ∀ p ∈ l, OutsideTick p.1.addr) : s.HaltsTo (s.setFlds l) := by
  induction l generalizing s with
  | nil => exact refl s
  | cons p l ih => exact (setFld s p.2 (h p (by simp))).trans (ih _ (fun q hq => h q (by simp [hq])))

theorem setReg64 (s : State) {lo hi : Nat} (v : Nat) (hlo : OutsideTick lo) (hhi : OutsideTick hi) : s.HaltsTo (s.setReg64 lo hi v) :=
  (setReg s _ hlo).trans (setReg _ _ hhi)

/-- Clearing a head's bit of TICK_LOCK. -/
theorem unlock (s : State) (h : Nat) : s.HaltsTo (s.putBitAt F.TICK_LOCK_LOCK h false) :=
  of_setReg s R.TICK_LOCK _ (.inr rfl) (fun hl => by
    have hz : s.fld F.TICK_LOCK_LOCK = 0 := by
      rw [State.fld, show s.reg F.TICK_LOCK_LOCK.addr = 0 from hl]
      simp [bits]
    rw [hz]
    refine (reg_setFld_word s rfl rfl).trans ?_
    simp [putBits])

/-! The parts that hold no register. -/

theorem updHd (s : State) (h : Nat) (f : HeadSt → HeadSt) : s.HaltsTo (s.updHd h f) := of_parts ..
theorem setHd (s : State) (h : Nat) (x : HeadSt) : s.HaltsTo (s.setHd h x) := of_parts ..
theorem updWb (s : State) (w : Nat) (f : WbSt → WbSt) : s.HaltsTo (s.updWb w f) := of_parts ..
theorem updPair (s : State) (f : PairSt → PairSt) : s.HaltsTo (s.updPair f) := of_parts ..
theorem updLink (s : State) (q : Nat) (f : LinkSt → LinkSt) : s.HaltsTo (s.updLink q f) := of_parts ..
theorem withLayers (s : State) (l : List Layer) : s.HaltsTo { s with layers := l } := of_parts ..
theorem withTouch (s : State) (x : TouchSt) : s.HaltsTo { s with touch := x } := of_parts ..
theorem withLog (s : State) (l : LogSt) : s.HaltsTo { s with log := l } := of_parts ..

/-! Telemetry and the Logbook. -/

theorem teleAdd (s : State) (i n : Nat) : s.HaltsTo (s.teleAdd i n) := by
  have hcnt (v w : Nat) : s.HaltsTo ((s.setFld (F.TELE_CNT_LO_VALUE i) v).setFld (F.TELE_CNT_HI_VALUE i) w) :=
    (setFld s v (by simp only [F.TELE_CNT_LO_VALUE, R.TELE_CNT_LO]; omega)).trans
      (setFld _ w (by simp only [F.TELE_CNT_HI_VALUE, R.TELE_CNT_HI]; omega))
  exact ite (hcnt _ _) ((hcnt _ _).trans ((setFld _ _ (by simp only [F.TELE_CNT_HI_OVF, R.TELE_CNT_HI]; omega)).trans (setFld _ _ (by decide))))

theorem tele (s : State) (ev inst n : Nat) : s.HaltsTo (s.tele ev inst n) :=
  foldl (fun s _ => ite (teleAdd s _ _) (refl s)) _ s

theorem logDrop (s : State) (e : LogEv) : s.HaltsTo (s.logDrop e) :=
  (withLog s _).trans ((setFld _ _ (by decide)).trans ((setFld _ _ (by decide)).trans (tele _ _ _ _)))

theorem logPut (s : State) (e : LogEv) (w : Bool) : s.HaltsTo (s.logPut e w) := by
  unfold State.logPut
  split
  · exact ite ((withLog s _).trans (tele _ _ _ _)) (ite (withLog s _) (logDrop s e))
  · exact ite ((of_parts s ..).trans ((setReg64 _ _ (by decide) (by decide)).trans (tele _ _ _ _))) (withLog s _)
  · exact withLog s _

/-! Layers and write-back ports. -/

theorem freeScalers (s : State) (lp : Nat) : s.HaltsTo (s.freeScalers lp) :=
  foldl (fun s _ => ite (setReg s _ (by simp only [R.SCL_STAT]; omega)) (refl s)) _ s

theorem putLayer (s : State) (l : Layer) : s.HaltsTo (s.putLayer l) :=
  (withLayers s _).trans ((setFlds _ (by
    simp only [List.forall_mem_cons, List.not_mem_nil, false_imp_iff, implies_true, and_true, F.COMP_LP_STAT_ATTACHED, F.COMP_LP_STAT_INVALID,
      F.COMP_LP_STAT_SCALER_WAIT, F.COMP_LP_STAT_NO_PICTURE, F.COMP_LP_STAT_HEAD, F.COMP_LP_STAT_SLOT, F.COMP_LP_STAT_DESC, R.COMP_LP_STAT]
    omega)).trans (setFlds _ (by
    simp only [List.forall_mem_cons, List.not_mem_nil, false_imp_iff, implies_true, and_true, F.COMP_STACK_USED, F.COMP_STACK_LP, R.COMP_STACK]
    omega)))

theorem dropLayer (s : State) (lp : Nat) : s.HaltsTo (s.dropLayer lp) := by
  unfold State.dropLayer
  split
  · exact refl s
  · exact (withLayers s _).trans ((freeScalers _ lp).trans ((setReg _ _ (by simp only [R.COMP_LP_STAT]; omega)).trans
      ((setReg _ _ (by simp only [R.COMP_STACK]; omega)).trans ((setReg _ _ (by simp only [R.FG_LP_STAT]; omega)).trans
        (setReg _ _ (by simp only [R.FG_LP_AGE]; omega))))))

theorem compErr (s : State) (code head lp : Nat) : s.HaltsTo (s.compErr code head lp) :=
  (setReg s _ (by decide)).trans (ite (refl _) (setFlds _ (by
    simp [OutsideTick, F.COMP_ERRLOG_CODE, F.COMP_ERRLOG_HEAD, F.COMP_ERRLOG_LP, F.COMP_ERRLOG_VALID, R.COMP_ERRLOG])))

theorem reattach (s : State) (l : Layer) (m : Member) : s.HaltsTo (s.reattach l m) :=
  (ite (refl s) (freeScalers s _)).trans (putLayer _ _)

theorem applyMembers (s : State) (h : Nat) (ms : List Member) : s.HaltsTo (s.applyMembers h ms) := by
  refine (foldl (fun s m => ?_) _ s).trans (foldl (fun s m => ?_) _ _)
  · cases s.layerOf m.lp with
    | some l => exact ite (dropLayer s _) (refl s)
    | none => exact refl s
  · cases s.layerOf m.lp with
    | some l =>
      refine ite (compErr s _ _ _) (ite (reattach s l m) ((dropLayer s m.lp).trans ?_))
      dsimp only
      cases (s.dropLayer m.lp).layerAt h m.slot with
      | some o => exact (dropLayer (s.dropLayer m.lp) o.lp).trans (putLayer _ _)
      | none => exact putLayer (s.dropLayer m.lp) _
    | none =>
      cases s.layerAt h m.slot with
      | some o => exact (dropLayer s o.lp).trans (putLayer _ _)
      | none => exact putLayer s _

theorem applyOwed (s : State) (h : Nat) (t : Option Nat) : s.HaltsTo (s.applyOwed h t) :=
  (updHd s h _).trans (foldl (fun s _ => applyMembers s h _) _ _)

theorem wbAbandon (s : State) (w : Nat) (refused : Bool) : s.HaltsTo (s.wbAbandon w refused) :=
  (updWb s w _).trans ((ite (setFld _ _ (by simp only [F.COMP_WB_ERR_REFUSED, R.COMP_WB_ERR]; omega))
    (setFld _ _ (by simp only [F.COMP_WB_ERR_ABANDON, R.COMP_WB_ERR]; omega))).trans
      (setFld _ _ (by simp only [F.COMP_WB_ABANDON_COUNT, R.COMP_WB_ABANDON]; omega)))

theorem ifWb {w : Nat} {f : Nat → State} (h : ∀ n, s.HaltsTo (f n)) : s.HaltsTo (s.ifWb w f) := by
  unfold State.ifWb
  split
  · exact h _
  · exact refl s

theorem wbStop (s : State) (h : Nat) : s.HaltsTo (s.wbStop h) :=
  foldl (fun s w => (ifWb (fun _ => wbAbandon s w false)).trans (updWb _ w _)) _ s

theorem releaseHead (s : State) (h : Nat) : s.HaltsTo (s.releaseHead h) :=
  foldl (fun s (l : Layer) => (freeScalers s l.lp).trans (putLayer (s.freeScalers l.lp) _)) (s.stackOf h) s

/-! Heads. -/

theorem setHeadState (s : State) (h v : Nat) : s.HaltsTo (s.setHeadState h v) :=
  setFld s v (by simp only [F.HEAD_STATUS_STATE, R.HEAD_STATUS]; omega)

theorem headStopped (s : State) (h : Nat) : s.HaltsTo (s.headStopped h) := by
  unfold State.headStopped
  extract_lets s₁ s₂ s₃ x
  have h₁ : s.HaltsTo s₁ := (wbStop s h).trans (releaseHead _ h)
  have h₂ : s₁.HaltsTo s₂ := applyOwed s₁ h none
  have h₃ : s₂.HaltsTo s₃ := (unlock s₂ h).trans (setFlds _ (by
    simp only [List.forall_mem_cons, List.not_mem_nil, false_imp_iff, implies_true, and_true, F.HEAD_STATUS_VBLANK, F.HEAD_STATUS_QUIET,
      F.HEAD_STATUS_SECOND, R.HEAD_STATUS, F.FG_HEAD_STAT_PREV_VEILED, R.FG_HEAD_STAT]
    omega))
  exact h₁.trans (h₂.trans (h₃.trans (ite ((setHd _ h _).trans (setHeadState _ h 1)) ((setHd _ h _).trans (setHeadState _ h 0)))))

theorem headHalt (s : State) (h : Nat) : s.HaltsTo (s.headHalt h) :=
  ite (ite (headStopped s h) (setHeadState s h 4)) (ite (headStopped s h) (refl s))

/-! The counter: a step that waits is added (R35). -/

theorem setNow (s : State) (t : Nat) : s.HaltsTo (s.setNow t) := by
  have hnow : s.HaltsTo { s with time := { s.time with now := t } } := ⟨rfl, fun _ _ _ => rfl, id, rfl, rfl, id⟩
  exact hnow.trans (foldl (fun s h => ite (refl s) (updHd s h _)) _ _)

theorem disarm (s : State) : s.HaltsTo { s with time := { s.time with armed := none } } :=
  ⟨rfl, fun _ _ _ => rfl, id, rfl, rfl, fun _ => rfl⟩

/-- Adding a step disarms it first. -/
theorem stepAdd (s : State) (d : Int) : ({ s with time := { s.time with armed := none } } : State).HaltsTo (s.stepAdd d) :=
  (setNow _ _).trans (setFlds _ (by decide))

theorem stepDue (s : State) : s.HaltsTo s.stepDue := by
  unfold State.stepDue
  split
  · exact (disarm s).trans (stepAdd s _)
  · exact refl s

/-! The pair and desk sensing. -/

theorem setInStep (s : State) (b : Bool) : s.HaltsTo (s.setInStep b) := setFld s _ (by decide)

theorem showScanning (s : State) : s.HaltsTo s.showScanning := setFld s _ (by decide)

theorem touchRelease (s : State) : s.HaltsTo s.touchRelease :=
  (withTouch s _).trans ((setFld _ _ (by decide)).trans (showScanning _))

theorem touchLose (s : State) : s.HaltsTo s.touchLose := by
  have hnode (t : State) (i : Nat) : t.HaltsTo (t.setFlds [(F.TOUCH_NODE_TOUCHED i, 0), (F.TOUCH_NODE_STUCK i, 0)]) :=
    setFlds t (by
      simp only [List.forall_mem_cons, List.not_mem_nil, false_imp_iff, implies_true, and_true, F.TOUCH_NODE_TOUCHED, F.TOUCH_NODE_STUCK,
        R.TOUCH_NODE]
      omega)
  exact (touchRelease s).trans ((foldl hnode _ _).trans ((withTouch _ _).trans (setFlds _ (by decide))))

theorem touchGain (s : State) (boundary : Bool) : s.HaltsTo (s.touchGain boundary) :=
  (withTouch s _).trans ((setFlds _ (by decide)).trans (((withTouch _ _).trans (setFld _ _ (by decide))).trans (showScanning _)))

theorem setRole (s : State) (new : Nat) (boundary : Bool) : s.HaltsTo (s.setRole new boundary) := by
  unfold State.setRole
  extract_lets old s₁
  have h₁ : s.HaltsTo s₁ := ite (setInStep s false) (refl s)
  split
  case isTrue => exact h₁
  case isFalse s₂ s₃ s₄ s₅ s₆ own s₇ _ =>
    have h₂ : s₁.HaltsTo s₂ := setFld s₁ _ (by decide)
    have h₃ : s₂.HaltsTo s₃ := ite ((setFld s₂ _ (by decide)).trans (updPair _ _)) (refl s₂)
    have h₄ : s₃.HaltsTo s₄ := ite (updPair s₃ _) (refl s₃)
    have h₅ : s₄.HaltsTo s₅ := ite (foldl (fun s q => updLink s q _) _ s₄) (refl s₄)
    have h₆ : s₅.HaltsTo s₆ := logPut s₅ _ _
    have h₇ : s₆.HaltsTo s₇ := ite (touchGain s₆ _) (ite (touchLose s₆) (refl s₆))
    exact h₁.trans (h₂.trans (h₃.trans (h₄.trans (h₅.trans (h₆.trans (h₇.trans (updPair s₇ _)))))))

theorem evalRole (s : State) (boundary : Bool) : s.HaltsTo (s.evalRole boundary) := setRole s _ boundary

theorem pinsAct (s : State) : s.HaltsTo s.pinsAct := by
  unfold State.pinsAct
  split
  · exact (updPair s _).trans (setFld _ _ (by decide))
  · exact refl s

theorem pairStop (s : State) : s.HaltsTo s.pairStop :=
  (setInStep s false).trans ((updPair _ _).trans (ite ((pinsAct _).trans (evalRole _ _)) (refl _)))

end State.HaltsTo

/-! ### The TICK block's registers as written (R39, R44) -/

theorem fld_rateNum_written : (s.written R.TICK_RATE w.toNat).fld F.TICK_RATE_NUM = bits w.toNat 15 0 :=
  fld_written (f := ⟨15, 0, .rw, .keeper, 0x3C⟩) w.toNat (by simp [fieldsAt_tickRate]) (.inl rfl) (by decide)
    (by rw [fieldsAt_tickRate]; decide)
theorem fld_rateDen_written : (s.written R.TICK_RATE w.toNat).fld F.TICK_RATE_DEN = bits w.toNat 31 16 :=
  fld_written (f := ⟨31, 16, .rw, .keeper, 1⟩) w.toNat (by simp [fieldsAt_tickRate]) (.inl rfl) (by decide)
    (by rw [fieldsAt_tickRate]; decide)
theorem fld_run_written : (s.written R.TICK_CTRL w.toNat).fld F.TICK_CTRL_RUN = (w.getLsbD 0).toNat :=
  (fld_written (f := ⟨0, 0, .rw, .keeper, 0⟩) w.toNat (by simp [fieldsAt_tickCtrl]) (.inl rfl) (by decide)
    (by rw [fieldsAt_tickCtrl]; decide)).trans (bits_single w 0)
theorem fld_offset_written (h : Fin 32) : (s.written (R.TICK_HPHASE h) w.toNat).fld (F.TICK_HPHASE_OFFSET h) = bits w.toNat 25 0 :=
  fld_written (f := ⟨25, 0, .rws, .open, 0⟩) w.toNat (by simp [fieldsAt_tickHphase]) (.inr rfl) (by decide)
    (by rw [fieldsAt_tickHphase]; decide)
theorem fld_double_written (h : Fin 32) :
    (s.written (R.TICK_HPHASE h) w.toNat).fld (F.TICK_HPHASE_DOUBLE h) = (w.getLsbD 31).toNat :=
  (fld_written (f := ⟨31, 31, .rws, .open, 0⟩) w.toNat (by simp [fieldsAt_tickHphase]) (.inr rfl) (by decide)
    (by rw [fieldsAt_tickHphase]; decide)).trans (bits_single w 31)

/-! Of a written register only TICK_RATE moves the tick's length, and TICK_CTRL does not move the epoch. -/

theorem tickNum_written {off : Nat} (v : Nat) (h : R.TICK_RATE ≠ off) : (s.written off v).tickNum = s.tickNum := by
  rw [State.tickNum, fld_written_ne _ _ h, State.tickNum]
theorem tickDen_written {off : Nat} (v : Nat) (h : R.TICK_RATE ≠ off) : (s.written off v).tickDen = s.tickDen := fld_written_ne _ _ h
theorem tickNs_written {off : Nat} (v : Nat) (h : R.TICK_RATE ≠ off) : (s.written off v).tickNs = s.tickNs := by
  rw [State.tickNs, tickNum_written v h, tickDen_written v h, State.tickNs]
theorem epochNs_written_ctrl (v : Nat) : (s.written R.TICK_CTRL v).epochNs = s.epochNs := by
  simp only [State.epochNs, State.reg96]
  rw [reg_written_ne v (by decide), reg_written_ne v (by decide), reg_written_ne v (by decide)]

/-! ### Rate, epoch and phase (R40, R41, R45) -/

/-- A write of TICK_RATE that its master may make. -/
theorem tickRate_freeWrite : State.tickRate (freeWrite s R.TICK_RATE w.toNat) =
    if s.fld F.TICK_CTRL_RUN = 1 ∨ bits w.toNat 31 16 = 0 ∨ bits w.toNat 15 0 * 1000 < 23976 * bits w.toNat 31 16 ∨
      120 * bits w.toNat 31 16 < bits w.toNat 15 0 then s.setFld F.TICK_STATUS_CFG_REFUSED 1
    else s.reAnchor (s.written R.TICK_RATE w.toNat) := by
  simp only [State.tickRate, freeWrite_took s _ _ F.TICK_RATE_NUM ⟨by decide, by decide⟩, freeWrite_plain_eq, fld_rateNum_written, fld_rateDen_written,
    freeWrite_st, Bool.not_true, Bool.false_eq_true, if_false]
  refine if_congr ?_ rfl rfl
  simp [State.bit]
  omega

/-- A write of a register of the TICK_EPOCH triple that its master may make. -/
theorem tickEpoch_freeWrite (i : Fin 3) : State.tickEpoch (R.TICK_EPOCH_0 + 4 * i.val) (freeWrite s (R.TICK_EPOCH_0 + 4 * i.val) w.toNat) =
    if s.fld F.TICK_CTRL_RUN = 1 then s.setFld F.TICK_STATUS_CFG_REFUSED 1 else s.reAnchor (s.setReg (R.TICK_EPOCH_0 + 4 * i.val) w) := by
  have hwrote : (freeWrite s (R.TICK_EPOCH_0 + 4 * i.val) w.toNat).wrote (R.TICK_EPOCH_0 + 4 * i.val) = true :=
    freeWrite_wrote (f := ⟨31, 0, .rw, .keeper, 0⟩) s _ (by simp [fieldsAt_tickEpoch]) (by decide) ⟨by simp, by simp⟩
  simp only [State.tickEpoch, hwrote, freeWrite_st, freeWrite_plain_eq, written_word w (fieldsAt_tickEpoch i), Bool.not_true,
    Bool.false_eq_true, if_false, bit_eq_true]
  rfl

/-- A write of TICK_HPHASE that its master may make. -/
theorem hphase_freeWrite (h : Fin 32) : State.hphase h (freeWrite s (R.TICK_HPHASE h) w.toNat) =
    if bits w.toNat 25 0 < s.tickNs / (if w.getLsbD 31 then 2 else 1) then s.written (R.TICK_HPHASE h) w.toNat
    else s.setFld F.TICK_STATUS_CFG_REFUSED 1 := by
  have hne : R.TICK_RATE ≠ R.TICK_HPHASE h := by simp only [R.TICK_RATE, R.TICK_HPHASE]; omega
  simp only [State.hphase, freeWrite_st, freeWrite_plain_eq, tickNs_written _ hne, fld_offset_written, fld_double_written]
  cases w.getLsbD 31 <;> rfl

/-! ### Starting the tick (R42) -/

/-- A write of TICK_CTRL that its master may make. -/
theorem tickCtrl_freeWrite : State.tickCtrl (freeWrite s R.TICK_CTRL w.toNat) =
    if w.getLsbD 0 && !s.bit F.TICK_CTRL_RUN then (s.written R.TICK_CTRL w.toNat).runStart
    else if s.bit F.TICK_CTRL_RUN && !w.getLsbD 0 then (s.written R.TICK_CTRL w.toNat).runStop
    else s.written R.TICK_CTRL w.toNat := by
  have hnow : (s.written R.TICK_CTRL w.toNat).bit F.TICK_CTRL_RUN = w.getLsbD 0 := by
    rw [State.bit, fld_run_written]
    cases w.getLsbD 0 <;> rfl
  simp only [State.tickCtrl, freeWrite_st, freeWrite_plain_eq, hnow]

/-- The start is judged by the discipline state and the epoch, which a write of TICK_CTRL leaves alone. -/
theorem runStart_written (v : Nat) : (s.written R.TICK_CTRL v).runStart =
    if s.fld F.TIME_STATUS_STATE = 0 ∨ s.time.now < s.epochNs * 2 ^ 40 then
      ((s.written R.TICK_CTRL v).setFld F.TICK_CTRL_RUN 0).setFld F.TICK_STATUS_CFG_REFUSED 1
    else { s.written R.TICK_CTRL v with
      time := { s.time with nextN := some s.firstTick }, pair := { s.pair with kicked := false } } := by
  have hfirst : (s.written R.TICK_CTRL v).firstTick = s.firstTick := by
    simp only [State.firstTick, epochNs_written_ctrl, tickNum_written v (show R.TICK_RATE ≠ R.TICK_CTRL by decide),
      tickDen_written v (show R.TICK_RATE ≠ R.TICK_CTRL by decide)]
    rfl
  simp only [State.runStart, fld_written_ne F.TIME_STATUS_STATE v (show R.TIME_STATUS ≠ R.TICK_CTRL by decide), epochNs_written_ctrl, hfirst,
    Bool.or_eq_true, decide_eq_true_eq]
  rfl

/-! ### Stopping the tick (R35, R42) -/

/-- Right after RUNNING and TICK_LOCK have been cleared. -/
def State.tickCleared (s : State) : State :=
  ({ s with time := { s.time with nextN := none, midDue := false } }).setFlds [(F.TICK_STATUS_RUNNING, 0), (F.TICK_LOCK_LOCK, 0)]

theorem tickCleared_time (s : State) : s.tickCleared.time = { s.time with nextN := none, midDue := false } := setFlds_time ..

theorem tickCleared_eq (s : State) : s.tickCleared = { s with regs := s.tickCleared.regs, time := s.tickCleared.time } := by
  rw [tickCleared_time]
  exact setFlds_eq _ _

theorem written_eq (s : State) (off v : Nat) : s.written off v = { s with regs := (s.written off v).regs } := rfl

/-- The bound reaches back to `s` when the states before `c` differ in registers (`u`), then in registers and counter (`c`). The states are
variables so that no register write is computed when the two sides are compared. -/
theorem State.HaltsTo.frame_from {s u c t : State} (hu : u = { s with regs := u.regs }) (hc : c = { u with regs := c.regs, time := c.time })
    (h : c.HaltsTo t) :
    t = { s with regs := t.regs, mem := t.mem, time := t.time, log := t.log, layers := t.layers, heads := t.heads, wbs := t.wbs,
                 pair := t.pair, touch := t.touch, links := t.links } :=
  h.frame.trans (by rw [hc, hu])

theorem runStop_haltsTo (s : State) : s.tickCleared.HaltsTo s.runStop :=
  (State.HaltsTo.foldl (fun s h => .headHalt s h) _ _).trans ((State.HaltsTo.stepDue _).trans (State.HaltsTo.pairStop _))

theorem tickCleared_lock (s : State) : s.tickCleared.reg R.TICK_LOCK = 0 := reg_setFld_word (f := F.TICK_LOCK_LOCK) _ rfl rfl

theorem tickCleared_running (s : State) : s.tickCleared.fld F.TICK_STATUS_RUNNING = 0 :=
  (fld_setFld_addr _ _ (by decide)).trans (fld_setFld_same _ F.TICK_STATUS_RUNNING 0 ⟨by decide, by decide⟩)

theorem tickCleared_ctrl (s : State) : s.tickCleared.fld F.TICK_CTRL_RUN = s.fld F.TICK_CTRL_RUN :=
  (fld_setFld_addr _ _ (by decide)).trans (fld_setFld_addr _ _ (by decide))

/-- A step that waited has been added when the tick has stopped, and the pair's part of the stop arms none (R35). -/
theorem runStop_armed (s : State) : s.runStop.time.armed = none := by
  have hdue (t : State) : t.stepDue.time.armed = none := by
    unfold State.stepDue
    split
    next => exact (State.HaltsTo.stepAdd t _).armed rfl
    next h => exact h
  exact (State.HaltsTo.pairStop _).armed (hdue _)

/-! ### The commands -/

theorem exec_tickRateWrite (hr : s.pwr.phase = .run) (h : s.MayWrite m R.TICK_RATE) :
    exec (.tickRateWrite m w) s = .next (State.tickRate (freeWrite s R.TICK_RATE w.toNat)).taken :=
  congrArg Host.Outcome.next (runReg_mayWrite hr h _ _)
theorem exec_tickEpochWrite (hr : s.pwr.phase = .run) (i : Fin 3) (h : s.MayWrite m (R.TICK_EPOCH_0 + 4 * i.val)) :
    exec (.tickEpochWrite m i w) s =
      .next (State.tickEpoch (R.TICK_EPOCH_0 + 4 * i.val) (freeWrite s (R.TICK_EPOCH_0 + 4 * i.val) w.toNat)).taken :=
  congrArg Host.Outcome.next (runReg_mayWrite hr h _ _)
theorem exec_tickHphaseWrite (hr : s.pwr.phase = .run) (h : Fin 32) (hm : s.MayWrite m (R.TICK_HPHASE h)) :
    exec (.tickHphaseWrite m h w) s = .next (State.hphase h (freeWrite s (R.TICK_HPHASE h) w.toNat)).taken :=
  congrArg Host.Outcome.next (runReg_mayWrite hr hm _ _)
theorem exec_tickRunStart (hr : s.pwr.phase = .run) (h : s.MayWrite m R.TICK_CTRL) :
    exec (.tickRunStart m w) s = .next (State.tickCtrl (freeWrite s R.TICK_CTRL w.toNat)).taken :=
  congrArg Host.Outcome.next (runReg_mayWrite hr h _ _)
theorem exec_tickRunStop (hr : s.pwr.phase = .run) (h : s.MayWrite m R.TICK_CTRL) :
    exec (.tickRunStop m w) s = .next (State.tickCtrl (freeWrite s R.TICK_CTRL w.toNat)).taken :=
  congrArg Host.Outcome.next (runReg_mayWrite hr h _ _)

/-- The tick stops: what holds of every state that RUNNING and TICK_LOCK cleared halts to, with no step armed, holds of the next one. -/
theorem gives_tickRunStop (hr : s.pwr.phase = .run) (hm : s.MayWrite m R.TICK_CTRL) (hrun : s.fld F.TICK_CTRL_RUN = 1)
    (hw : w.getLsbD 0 = false) {P : State → Prop}
    (hP : ∀ t : State, (s.written R.TICK_CTRL w.toNat).tickCleared.HaltsTo t → t.time.armed = none → P t.taken) :
    Gives (.tickRunStop m w) s P := by
  have hexec : exec (.tickRunStop m w) s = .next (s.written R.TICK_CTRL w.toNat).runStop.taken := by
    rw [exec_tickRunStop hr hm, tickCtrl_freeWrite, hw, (bit_eq_true _).mpr hrun, if_neg (by decide), if_pos (by decide)]
  exact ⟨_, hexec, hP _ (runStop_haltsTo _) (runStop_armed _)⟩

end Sys2Proof.Machine

open Sys2Proof Sys2Proof.Machine

/-- Settles O27. Each write that its master may make comes to its register's function on the word written; the first boundary is the least that
meets `firstTick_le_iff`; what a stop changes is bounded by `State.HaltsTo`. -/
theorem tickWrites : Obligations.TickWrites := by
  unfold Obligations.TickWrites
  intro s m w h i hr run refused num den ep
  refine ⟨fun hm => ?_, fun hm => ?_, fun t => ?_, fun hm => ?_, fun hm hrun hw => ?_, fun hm hrun hw =>
    gives_tickRunStop hr hm hrun hw (fun t hstop harmed => ?_)⟩
  · rw [exec_tickRateWrite hr hm, tickRate_freeWrite, apply_ite State.taken, apply_ite Host.Outcome.next]
  · rw [exec_tickEpochWrite hr i hm, tickEpoch_freeWrite, apply_ite State.taken, apply_ite Host.Outcome.next]
  · refine ⟨updRunning_frame _ _ t, fun h hh => ?_⟩
    rw [reAnchor_eq, hd_updRunning _ _ List.nodup_range]
    simp [hh]
  · rw [exec_tickHphaseWrite hr h hm, hphase_freeWrite, apply_ite State.taken, apply_ite Host.Outcome.next]
  · have hstart : exec (.tickRunStart m w) s = .next (s.written R.TICK_CTRL w.toNat).runStart.taken := by
      rw [exec_tickRunStart hr hm, tickCtrl_freeWrite, hw, bit_eq_false_of_fld_zero hrun, if_pos (by decide)]
    refine ⟨fun hbad => ?_, fun hst hep hden => ⟨s.firstTick, ?_, ?_, fun k hk => ?_⟩⟩
    · rw [hstart, runStart_written, if_pos hbad]
    · rw [hstart, runStart_written, if_neg (not_or.mpr ⟨hst, Nat.not_lt.mpr hep⟩)]
    · exact (firstTick_le_iff hden _).mp (Nat.le_refl _)
    · exact Nat.not_le.mp (fun hle => Nat.not_le.mpr hk ((firstTick_le_iff hden k).mpr hle))
  · have hrun0 : (s.written R.TICK_CTRL w.toNat).tickCleared.fld F.TICK_CTRL_RUN = 0 := by
      rw [tickCleared_ctrl, fld_run_written, hw]
      rfl
    exact ⟨(hstop.fld_eq F.TICK_CTRL_RUN (by decide) (by decide)).trans hrun0,
      (hstop.fld_eq F.TICK_STATUS_RUNNING (by decide) (by decide)).trans (tickCleared_running _), hstop.lock (tickCleared_lock _),
      hstop.nextN.trans (by rw [tickCleared_time]), hstop.midDue.trans (by rw [tickCleared_time]), harmed, rfl,
      congrArg State.taken (hstop.frame_from (written_eq s _ _) (tickCleared_eq _))⟩

end

section
/-!
PROOFS. The register file of a core (R52, R53) and its branches and jumps (R64): where each goes, what it links, and the misaligned JR.
-/
namespace Sys2Proof.Machine

/-! ### The predicate registers (R53) -/

@[simp] theorem pr_zero (x : CoreSt) : x.pr 0 = true := rfl

/-- p0 keeps reading as 1 whatever is written to it. -/
@[simp] theorem setPr_zero (x : CoreSt) (b : Bool) : x.setPr 0 b = x := rfl

theorem pr_setPr (x : CoreSt) {i j : Nat} (b : Bool) (hi : i ≠ 0) (hj : j < 8) : (x.setPr i b).pr j = if j = i then b else x.pr j := by
  rw [CoreSt.setPr, if_neg hi]
  simp only [CoreSt.pr, BitVec.getLsbD_ofNat, putBits_testBit _ _ _ _ _ (Nat.le_refl i), BitVec.testBit_toNat]
  by_cases h : j = i
  · subst h
    cases b <;> simp [hi, hj]
  · have hout : ¬ (i ≤ j ∧ j ≤ i) := by omega
    simp [hout, h, hj]

theorem pr_setPr_ne (x : CoreSt) {i j : Nat} (b : Bool) (h : j ≠ i) (hj : j < 8) : (x.setPr i b).pr j = x.pr j := by
  by_cases hi : i = 0
  · rw [hi, setPr_zero]
  · rw [pr_setPr x b hi hj, if_neg h]

/-! ### Targets (R64) -/

theorem branchTo_eq (x : CoreSt) (off : BitVec 22) : branchTo x off = x.pc + 4 * off.signExtend 64 := by
  rw [branchTo, BitVec.shiftLeft_eq_mul_twoPow, BitVec.mul_comm]
  rfl

/-- The two low bits of an address are zero exactly where an instruction can stand. -/
theorem extractLsb'_low_eq_zero_iff (t : DWord) : t.extractLsb' 0 2 = 0 ↔ t.toNat % 4 = 0 := by
  simp [← BitVec.toNat_inj]

/-! ### The commands -/

variable {s : State} {c : Fin 13} {pf : BitVec 4}

theorem exec_br (h : s.Executes c pf) (off : BitVec 22) :
    exec (.br c pf off) s = .next (s.jumped c.val (s.core c.val) (branchTo (s.core c.val) off)) :=
  congrArg Host.Outcome.next (instr_executes h _ rfl _)

theorem exec_call (h : s.Executes c pf) (off : BitVec 22) :
    exec (.call c pf off) s =
      .next (s.jumped c.val ((s.core c.val).setRg 31 ((s.core c.val).pc + 4)) (branchTo (s.core c.val) off)) :=
  congrArg Host.Outcome.next ((instr_executes h _ rfl _).trans (jump_setCore ..))

theorem exec_jr (h : s.Executes c pf) (rd ra : BitVec 5) (imm : BitVec 12) :
    exec (.jr c pf rd ra imm) s =
      let t := effAddr ((s.core c.val).rg ra.toNat) imm
      .next (if t.toNat % 4 ≠ 0 then s.raise c.val 1 t
        else s.jumped c.val ((s.core c.val).setRg rd.toNat ((s.core c.val).pc + 4)) t) := by
  refine congrArg Host.Outcome.next ((instr_executes h _ rfl _).trans ?_)
  by_cases hal : (effAddr ((s.core c.val).rg ra.toNat) imm).toNat % 4 ≠ 0
  · simp only [if_pos hal]
  · simp only [if_neg hal, jump_setCore]

end Sys2Proof.Machine

open Sys2Proof Sys2Proof.Machine

/-- Settles O5. Each of the three comes to its own effect; the shift by two of the model's target is the spec's factor of 4, and the two
low bits of JR's target decide between the jump and exception 1. -/
theorem branchTargets : Obligations.BranchTargets := by
  unfold Obligations.BranchTargets
  intro s c pf off rd ra imm h x t
  refine ⟨?_, ?_, fun hal => ?_, fun hmis => ?_⟩
  · rw [exec_br h, branchTo_eq]
  · rw [exec_call h, branchTo_eq]
  · exact (exec_jr h rd ra imm).trans
      (congrArg Host.Outcome.next (if_neg (not_not.mpr ((extractLsb'_low_eq_zero_iff t).mp hal))))
  · exact (exec_jr h rd ra imm).trans
      (congrArg Host.Outcome.next (if_pos (mt (extractLsb'_low_eq_zero_iff t).mpr hmis)))

/-- Settles O1. Register 0 of each file is fixed, and every other one reads as last written. -/
theorem coreRegisterFile : Obligations.CoreRegisterFile := by
  unfold Obligations.CoreRegisterFile
  intro x i j v p q b
  refine ⟨rg_zero x, setRg_zero x v, fun hi => ?_, fun hj => rg_setRg_ne x v (BitVec.toNat_ne_iff_ne.mpr hj), pr_zero x, setPr_zero x b,
    fun hp => ?_, fun hq => pr_setPr_ne x b (BitVec.toNat_ne_iff_ne.mpr hq) q.isLt⟩
  · rw [rg_setRg x _ _ v (BitVec.toNat_ne_iff_ne.mpr hi), if_pos rfl]
  · rw [pr_setPr x b (BitVec.toNat_ne_iff_ne.mpr hp) p.isLt, if_pos rfl]

end

section
/-!
PROOFS. What an event that reaches the Logbook may change (R417, R423, R425): the Logbook's and the telemetry's registers, its memory and its
queue; and what booting the Keeper may change on top of that (R517 to R521).
-/
namespace Sys2Proof.Machine

/-! ### Fields read after a write, with one side condition that `decide` settles for closed fields -/

/-- A field that shares no bit with the one written. -/
theorem fld_setFld_sep {s : State} {f g : Fld} {v : Nat}
    (h : g.addr ≠ f.addr ∨ (f.lo ≤ f.hi ∧ f.hi < 32 ∧ g.lo ≤ g.hi ∧ g.hi < 32 ∧ (f.hi < g.lo ∨ g.hi < f.lo))) :
    (s.setFld f v).fld g = s.fld g := by
  rcases h with h | ⟨hf, hf', hg, hg', h⟩
  · exact fld_setFld_addr s v h
  · exact fld_setFld_apart s f g v ⟨hf, hf'⟩ ⟨hg, hg'⟩ (.inr h)

/-- A value that fits the field just written. -/
theorem fld_setFld_fits {s : State} {f : Fld} {v : Nat} (h : f.lo ≤ f.hi ∧ f.hi < 32) (hv : v < 2 ^ (f.hi + 1 - f.lo)) :
    (s.setFld f v).fld f = v := by
  rw [fld_setFld_same s f v h, Nat.mod_eq_of_lt hv]

theorem fld_lt (s : State) (f : Fld) : s.fld f < 2 ^ (f.hi + 1 - f.lo) := bits_lt _ _ _

theorem fld_orFld_same {s : State} {f : Fld} {v : Nat} (h : f.lo ≤ f.hi ∧ f.hi < 32) (hv : v < 2 ^ (f.hi + 1 - f.lo)) :
    (s.orFld f v).fld f = s.fld f ||| v :=
  fld_setFld_fits h (Nat.or_lt_two_pow (fld_lt s f) hv)

theorem bitAt_eq_testBit (s : State) (f : Fld) (i : Nat) : s.bitAt f i = (s.fld f).testBit i := by
  rw [State.bitAt, Nat.testBit_eq_decide_div_mod_eq]
  rfl

theorem fld_of_reg {s t : State} {f : Fld} (h : t.reg f.addr = s.reg f.addr) : t.fld f = s.fld f := by rw [State.fld, h, State.fld]

/-- A bit that has just been set among others. -/
theorem bitAt_orFld {s : State} {f : Fld} {v i : Nat} (h : (f.lo ≤ f.hi ∧ f.hi < 32) ∧ v < 2 ^ (f.hi + 1 - f.lo) ∧ v.testBit i = true) :
    (s.orFld f v).bitAt f i = true := by
  obtain ⟨hf, hv, hi⟩ := h
  rw [bitAt_eq_testBit, fld_orFld_same hf hv, Nat.testBit_or, hi, Bool.or_true]

/-- A field that is as it was has its bits as they were. -/
theorem bitAt_congr {s t : State} {f : Fld} {i : Nat} (h : t.fld f = s.fld f) : t.bitAt f i = s.bitAt f i := by
  rw [State.bitAt, h, State.bitAt]

/-- A bit that has just been put. -/
theorem bitAt_putBitAt_same {s : State} {f : Fld} {i : Nat} {b : Bool} (h : f.lo ≤ f.hi ∧ f.hi < 32) (hi : i < f.hi + 1 - f.lo) :
    (s.putBitAt f i b).bitAt f i = b := by
  rw [bitAt_eq_testBit, State.putBitAt, fld_setFld_fits h (putBits_lt _ _ _ _ _ (Nat.le_refl i) hi (fld_lt s f)),
    putBits_testBit _ _ _ _ _ (Nat.le_refl i), if_pos ⟨Nat.le_refl i, Nat.le_refl i⟩, Nat.sub_self]
  cases b <;> rfl

/-! ### States that differ in registers alone -/

/-- `t` is `s` with other registers. -/
def State.RegsTo (s t : State) : Prop := t = { s with regs := t.regs }

namespace State.RegsTo

theorem refl (s : State) : s.RegsTo s := rfl

theorem trans {s t u : State} (h : s.RegsTo t) (k : t.RegsTo u) : s.RegsTo u := by
  unfold State.RegsTo at *
  exact k.trans (by rw [h])

theorem ite {s : State} {c : Prop} [Decidable c] {t u : State} (ht : s.RegsTo t) (hu : s.RegsTo u) : s.RegsTo (if c then t else u) := by
  split
  · exact ht
  · exact hu

theorem setReg (s : State) (o : Nat) (v : Word) : s.RegsTo (s.setReg o v) := rfl
theorem setFld (s : State) (f : Fld) (v : Nat) : s.RegsTo (s.setFld f v) := setReg s _ _
theorem orFld (s : State) (f : Fld) (v : Nat) : s.RegsTo (s.orFld f v) := setReg s _ _
theorem bump (s : State) (f : Fld) (n : Nat) : s.RegsTo (s.bump f n) := setReg s _ _
theorem putBitAt (s : State) (f : Fld) (i : Nat) (b : Bool) : s.RegsTo (s.putBitAt f i b) := setReg s _ _
theorem setFlds (s : State) (l : List (Fld × Nat)) : s.RegsTo (s.setFlds l) := setFlds_eq s l

variable {s t : State} (h : s.RegsTo t)
include h

theorem pwr_eq : t.pwr = s.pwr := by rw [h]
theorem log_eq : t.log = s.log := by rw [h]
theorem hd_eq (j : Nat) : t.hd j = s.hd j := by rw [h]; rfl

end State.RegsTo

/-! ### The Logbook -/

/-- The registers outside the Logbook's and the telemetry's blocks. -/
abbrev OutsideLog (o : Nat) : Prop := o < 0x60000 ∨ 0x80000 ≤ o

/-- `t` is `s` after some of what the Logbook and the telemetry do when an event reaches them. -/
structure State.RecordsTo (s t : State) : Prop where
  frame : t = { s with regs := t.regs, mem := t.mem, log := t.log }
  reg : ∀ o, OutsideLog o → t.reg o = s.reg o
  mem : s.SameMemButLog t

namespace State.RecordsTo

theorem refl (s : State) : s.RecordsTo s := ⟨rfl, fun _ _ => rfl, fun _ _ => rfl⟩

theorem trans {s t u : State} (h : s.RecordsTo t) (k : t.RecordsTo u) : s.RecordsTo u where
  frame := k.frame.trans (by rw [h.frame])
  reg o ho := (k.reg o ho).trans (h.reg o ho)
  mem a ha := (k.mem a ha).trans (h.mem a ha)

theorem ite {s : State} {c : Prop} [Decidable c] {t u : State} (ht : s.RecordsTo t) (hu : s.RecordsTo u) :
    s.RecordsTo (if c then t else u) := by
  split
  · exact ht
  · exact hu

theorem foldl {α : Type} {f : State → α → State} (l : List α) (h : ∀ (s : State), ∀ a ∈ l, s.RecordsTo (f s a)) :
    ∀ s : State, s.RecordsTo (l.foldl f s) := by
  induction l with
  | nil => exact refl
  | cons a l ih => exact fun s => (h s a (by simp)).trans (ih (fun s b hb => h s b (by simp [hb])) _)

theorem fld {s t : State} (h : s.RecordsTo t) {f : Fld} (hf : OutsideLog f.addr) : t.fld f = s.fld f :=
  fld_of_reg (h.reg _ hf)

theorem bitAt {s t : State} (h : s.RecordsTo t) {f : Fld} {i : Nat} (hf : OutsideLog f.addr) : t.bitAt f i = s.bitAt f i :=
  bitAt_congr (h.fld hf)

theorem heads {s t : State} (h : s.RecordsTo t) : t.heads = s.heads := by rw [h.frame]
theorem pwr {s t : State} (h : s.RecordsTo t) : t.pwr = s.pwr := by rw [h.frame]
theorem time {s t : State} (h : s.RecordsTo t) : t.time = s.time := by rw [h.frame]
theorem gpio {s t : State} (h : s.RecordsTo t) : t.gpio = s.gpio := by rw [h.frame]

theorem setReg (s : State) {o : Nat} (v : Word) (ho : ¬ OutsideLog o) : s.RecordsTo (s.setReg o v) :=
  ⟨rfl, fun _ hj => reg_setReg_ne s v (by rintro rfl; exact ho hj), fun _ _ => rfl⟩

theorem setFld (s : State) {f : Fld} (v : Nat) (h : ¬ OutsideLog f.addr) : s.RecordsTo (s.setFld f v) := setReg s _ h

theorem withLog (s : State) (l : LogSt) : s.RecordsTo { s with log := l } := ⟨rfl, fun _ _ => rfl, fun _ _ => rfl⟩

/-- Bytes written within the Logbook SRAM. -/
theorem withMem (s : State) (a : Nat) (d : List Byte) (h : 0x4200000000 ≤ a ∧ a + d.length ≤ 0x4201000000) :
    s.RecordsTo { s with mem := Tbl.setN (fun _ => 0) s.mem a d } :=
  ⟨rfl, fun _ _ => rfl, fun x hx => Tbl.get_setN_outside _ _ _ _ _ (by omega)⟩

theorem teleAdd (s : State) {i : Nat} (n : Nat) (hi : i < 256) : s.RecordsTo (s.teleAdd i n) := by
  have hcnt (v w : Nat) : s.RecordsTo ((s.setFld (F.TELE_CNT_LO_VALUE i) v).setFld (F.TELE_CNT_HI_VALUE i) w) :=
    (setFld s v (by simp only [F.TELE_CNT_LO_VALUE, R.TELE_CNT_LO]; omega)).trans
      (setFld _ w (by simp only [F.TELE_CNT_HI_VALUE, R.TELE_CNT_HI]; omega))
  exact ite (hcnt _ _) ((hcnt _ _).trans ((setFld _ _ (by simp only [F.TELE_CNT_HI_OVF, R.TELE_CNT_HI]; omega)).trans (setFld _ _ (by decide))))

/-- The counters that select an event are among the 256 of the bank. -/
theorem tele (s : State) (ev inst n : Nat) : s.RecordsTo (s.tele ev inst n) :=
  foldl _ (fun s e he => ite (teleAdd s n (by
    obtain ⟨-, h⟩ := List.mem_filter.mp he
    simp only [Bool.and_eq_true, decide_eq_true_eq] at h
    omega)) (refl s)) s

theorem logModified (s : State) : s.RecordsTo s.logModified := (setReg s _ (by decide)).trans (setReg _ _ (by decide))

theorem logDrop (s : State) (e : LogEv) : s.RecordsTo (s.logDrop e) :=
  (withLog s _).trans ((setFld _ _ (by decide)).trans ((setFld _ _ (by decide)).trans (tele _ _ _ _)))

theorem logPut (s : State) (e : LogEv) (w : Bool) : s.RecordsTo (s.logPut e w) := by
  have hoff : s.fld F.LOG_TAIL_OFF < 2 ^ 17 := fld_lt s F.LOG_TAIL_OFF
  unfold State.logPut
  split
  · exact ite ((withLog s _).trans (tele _ _ _ _)) (ite (withLog s _) (logDrop s e))
  · refine ite ?_ (withLog s _)
    have hfield (t : State) (o n v : Nat) (h : o + n ≤ 32) :
        t.RecordsTo { t with mem := Tbl.setN (fun _ => 0) t.mem (0x4200000000 + 16 * s.fld F.LOG_TAIL_OFF + o) (leBytes n v) } :=
      withMem t _ _ (by rw [leBytes_length]; omega)
    exact (hfield s 16 8 _ (by decide)).trans ((hfield _ 28 4 _ (by decide)).trans
      ((withLog _ _).trans ((logModified _).trans (tele _ _ _ _))))
  · exact withLog s _

theorem logHw (s : State) (typ master : Nat) (payload : List Byte) (fold : Bool) : s.RecordsTo (s.logHw typ master payload fold) :=
  logPut s _ _

end State.RecordsTo

/-- An event that does not fold joins a queue that has room. -/
theorem queue_logPut {s : State} {e : LogEv} {w : Bool} (he : e.fold = false) (hq : s.log.queue.length < 64) :
    (s.logPut e w).log.queue = s.log.queue ++ [e] := by
  have hf (t : LogEv) : e.folds t = false := by simp [LogEv.folds, he]
  unfold State.logPut
  split
  · simp [hf, hq]
  · rename_i h _
    simp [hf, List.getLast?_eq_none_iff.mp h]
  · rename_i h _
    simp [List.getLast?_eq_none_iff.mp h]

/-- A record that the hardware writes and that does not fold waits at the queue's end, its payload padded to 16 bytes. -/
theorem queue_logHw {s : State} {typ master : Nat} {payload : List Byte} (hq : s.log.queue.length < 64) (h0 : 0 < payload.length)
    (h16 : payload.length ≤ 16) : ∃ e, (s.logHw typ master payload false).log.queue = s.log.queue ++ [e] ∧ e.typ = typ ∧
      e.payload = payload ++ List.replicate (16 - payload.length) 0 := by
  have hone : ceilDiv payload.length 16 = 1 := by rw [ceilDiv]; omega
  refine ⟨s.logEvent typ master payload false, queue_logPut rfl hq, rfl, ?_⟩
  simp [State.logEvent, hone, slice, List.take_of_length_le h16]

/-! ### The Keeper's start -/

/-- The registers that neither the boot path nor its records write. -/
abbrev OutsideBoot (o : Nat) : Prop := OutsideLog o ∧ o ≠ R.MGMT_XSPI_CFG ∧ o ≠ R.KEEP_BOOT ∧ o ≠ R.KEEP_BOOT_VER

/-- `t` is `s` after some of what the boot ROM does. -/
structure State.BootsTo (s t : State) : Prop where
  pwr : t.pwr = { s.pwr with warm := t.pwr.warm }
  time : t.time = s.time
  gpio : t.gpio = s.gpio
  reg : ∀ o, OutsideBoot o → t.reg o = s.reg o

theorem State.RecordsTo.boots {s t : State} (h : s.RecordsTo t) : s.BootsTo t where
  pwr := by rw [h.pwr]
  time := h.time
  gpio := h.gpio
  reg o ho := h.reg o ho.1

namespace State.BootsTo

theorem refl (s : State) : s.BootsTo s := (RecordsTo.refl s).boots

theorem trans {s t u : State} (h : s.BootsTo t) (k : t.BootsTo u) : s.BootsTo u where
  pwr := k.pwr.trans (by rw [h.pwr])
  time := k.time.trans h.time
  gpio := k.gpio.trans h.gpio
  reg o ho := (k.reg o ho).trans (h.reg o ho)

theorem ite {s : State} {c : Prop} [Decidable c] {t u : State} (ht : s.BootsTo t) (hu : s.BootsTo u) : s.BootsTo (if c then t else u) := by
  split
  · exact ht
  · exact hu

theorem foldl {α : Type} {f : State → α → State} (h : ∀ (s : State) a, s.BootsTo (f s a)) (l : List α) :
    ∀ s : State, s.BootsTo (l.foldl f s) := by
  induction l with
  | nil => exact refl
  | cons a l ih => exact fun s => (h s a).trans (ih _)

theorem fld {s t : State} (h : s.BootsTo t) {f : Fld} (hf : OutsideBoot f.addr) : t.fld f = s.fld f :=
  fld_of_reg (h.reg _ hf)

/-- A change of no power state, time, pin or register. -/
theorem of_eq {s t : State} (hp : t.pwr = s.pwr) (ht : t.time = s.time) (hg : t.gpio = s.gpio) (hr : t.regs = s.regs) : s.BootsTo t :=
  ⟨by rw [hp], ht, hg, fun o _ => by rw [State.reg, hr, State.reg]⟩

theorem setFlds (s : State) {l : List (Fld × Nat)} (h : ∀ p ∈ l, ¬ OutsideBoot p.1.addr) : s.BootsTo (s.setFlds l) where
  pwr := by rw [setFlds_pwr]
  time := setFlds_time ..
  gpio := setFlds_gpio ..
  reg o ho := reg_setFlds_ne s l o (by rintro p hp rfl; exact h p hp ho)

theorem setCore (s : State) (c : Nat) (x : CoreSt) : s.BootsTo (s.setCore c x) := of_eq rfl rfl rfl rfl

theorem withWarm (s : State) (w : Option (Nat × Nat × List Byte)) : s.BootsTo { s with pwr := { s.pwr with warm := w } } :=
  ⟨rfl, rfl, rfl, fun _ _ => rfl⟩

theorem romRec (s : State) (typ : Nat) (payload : List Byte) : s.BootsTo (s.romRec typ payload) := (RecordsTo.logPut s _ _).boots

theorem churnHit (s : State) (u : Nat) : s.BootsTo (s.churnHit u) := by
  unfold State.churnHit
  split
  · exact ite (of_eq rfl rfl rfl rfl) (refl s)
  · exact refl s

theorem storeSram (s : State) (r : Region) (u o : Nat) (d : List Byte) (bad : Bool) : s.BootsTo (s.storeSram r u o d bad) := by
  have hput (t : State) (a : Nat) (x : List Byte) (v : Nat) : t.BootsTo ((t.putBytes a x).setDelta u v) := of_eq rfl rfl rfl rfl
  refine (churnHit s u).trans (ite (hput _ _ _ _) ?_)
  cases (s.churnHit u).unitEcc r u <;> exact hput _ _ _ _

theorem storeSramBytes (s : State) (r : Region) (a : Nat) (d : List Byte) (bad : Bool) : s.BootsTo (s.storeSramBytes r a d bad) :=
  foldl (fun s _ => storeSram s r _ _ _ bad) _ s

theorem slotLoad (s : State) (slot c : Nat) : s.BootsTo (s.slotLoad slot c) := ite (storeSramBytes s _ _ _ _) (refl s)

theorem bootFrom (s : State) (slot : Nat) : s.BootsTo (s.bootFrom slot) :=
  (storeSramBytes s _ _ _ _).trans ((setFlds _ (by
    simp [OutsideBoot, F.MGMT_XSPI_CFG_FREQ, F.MGMT_XSPI_CFG_DUMMY, F.KEEP_BOOT_SLOT, F.KEEP_BOOT_FALLBACK, F.KEEP_BOOT_VER_VERSION])).trans
    ((romRec _ _ _).trans ((withWarm _ _).trans (setCore _ 12 _))))

theorem bootCold (s : State) (ok0 ok1 : Bool) : s.BootsTo (s.bootCold ok0 ok1) := by
  have hfail (t : State) (slot c : Nat) (d : List Byte) : t.BootsTo ((t.slotLoad slot c).romRec 0x4001 d) :=
    (slotLoad t slot c).trans (romRec _ _ _)
  exact ite (bootFrom s 0) ((hfail s 0 _ _).trans (ite (bootFrom _ 1) ((hfail _ 1 _ _).trans
    (setFlds (l := [(F.KEEP_BOOT_HALT, 1)]) _ (by simp [OutsideBoot, F.KEEP_BOOT_HALT])))))

theorem bootWarm (s : State) (ok0 ok1 : Bool) : s.BootsTo (s.bootWarm ok0 ok1) := by
  unfold State.bootWarm
  split
  · exact ite (setCore s 12 _) (bootCold s ok0 ok1)
  · exact bootCold s ok0 ok1

end State.BootsTo

end Sys2Proof.Machine
end

section
/-!
PROOFS. Dip episodes, rails and temperatures (R495 to R499, R504): the flags, the record and the heads that each command leaves.
-/
namespace Sys2Proof.Machine

variable {s t : State} {mv : BitVec 16} {ns : Nat}

/-! ### The start of a dip episode (R495, R496) -/

/-- VDD_CORE is sampled now. -/
def State.sampledNow (s : State) : State := { s with pwr := { s.pwr with vSlot := some (s.time.clk / 50) } }

/-- The flags of a dip episode that begins. -/
def State.dipFlagged (s : State) : State :=
  ((s.setBit F.PWR_STATUS_DIP_ACTIVE true).orFld F.PWR_STATUS_RAIL_LOW 1).orFld F.PWR_ERR_ERR 1

/-- Each running head is marked for its frame's certificate. -/
def State.dipMarked (s : State) : State := updRunning (fun _ x => { x with dip := true }) s (List.range 32)

/-- The sample that begins an episode, and its flags. -/
def State.dipSeen (s : State) (mv : BitVec 16) : State := (s.sampledNow.setFld F.PWR_VCORE_MV mv.toNat).dipFlagged

/-- A dip episode has begun; its record follows. -/
def State.dipBegun (s : State) (mv : BitVec 16) : State := (s.dipSeen mv).dipMarked.bump F.PWR_DIP_CNT_COUNT

/-- The payload of the record of R496. -/
def State.dipPayload (s : State) (mv : BitVec 16) : List Byte := leBytes 2 s.nominalMv ++ leBytes 2 mv.toNat ++ leBytes 4 0 ++ leBytes 8 s.tickNo

/-- `t` is `s` with other registers and heads. -/
def State.DipsTo (s t : State) : Prop := t = { s with regs := t.regs, heads := t.heads }

theorem State.RegsTo.dips (h : s.RegsTo t) : s.DipsTo t := by
  unfold State.RegsTo at h
  unfold State.DipsTo
  rw [h]

theorem State.DipsTo.trans {u : State} (h : s.DipsTo t) (k : t.DipsTo u) : s.DipsTo u := by
  unfold State.DipsTo at *
  exact k.trans (by rw [h])

theorem State.DipsTo.log_eq (h : s.DipsTo t) : t.log = s.log := by rw [h]
theorem State.DipsTo.pwr_eq (h : s.DipsTo t) : t.pwr = s.pwr := by rw [h]

theorem withPwr_setFld (s : State) (f : Fld) (v : Nat) (p : PwrSt) :
    ({ s.setFld f v with pwr := p } : State) = ({ s with pwr := p } : State).setFld f v := rfl

theorem fld_sampledNow (s : State) (f : Fld) : s.sampledNow.fld f = s.fld f := rfl
theorem reg_sampledNow (s : State) (o : Nat) : s.sampledNow.reg o = s.reg o := rfl
theorem hd_sampledNow (s : State) (h : Nat) : s.sampledNow.hd h = s.hd h := rfl
theorem log_sampledNow (s : State) : s.sampledNow.log = s.log := rfl

theorem dipMarked_eq (s : State) : s.dipMarked = { s with heads := s.dipMarked.heads } := updRunning_frame ..
theorem dipMarked_dipsTo (s : State) : s.DipsTo s.dipMarked := by
  have h := dipMarked_eq s
  generalize s.dipMarked = t at h
  unfold State.DipsTo
  rw [h]
theorem reg_dipMarked (s : State) (o : Nat) : s.dipMarked.reg o = s.reg o := by rw [dipMarked_eq]; rfl
theorem fld_dipMarked (s : State) (f : Fld) : s.dipMarked.fld f = s.fld f := fld_of_reg (reg_dipMarked s _)

theorem dipFlagged_regsTo (s : State) : s.RegsTo s.dipFlagged :=
  (State.RegsTo.setFld s _ _).trans ((State.RegsTo.orFld _ _ _).trans (State.RegsTo.orFld _ _ _))

theorem dipSeen_regsTo : s.sampledNow.RegsTo (s.dipSeen mv) := (State.RegsTo.setFld _ _ _).trans (dipFlagged_regsTo _)

theorem dipBegun_dipsTo : s.sampledNow.DipsTo (s.dipBegun mv) :=
  dipSeen_regsTo.dips.trans ((dipMarked_dipsTo _).trans (State.RegsTo.bump _ _ _).dips)

/-- Outside VCORE and the episode's flags the registers stay. -/
theorem reg_dipSeen {o : Nat} (h : o ≠ R.PWR_VCORE ∧ o ≠ R.PWR_STATUS ∧ o ≠ R.PWR_ERR) : (s.dipSeen mv).reg o = s.reg o := by
  obtain ⟨hv, hst, he⟩ := h
  rw [State.dipSeen, State.dipFlagged, State.setBit, State.orFld, reg_setFld_ne _ _ he, State.orFld, reg_setFld_ne _ _ hst,
    reg_setFld_ne _ _ hst, reg_setFld_ne _ _ hv, reg_sampledNow]

theorem nominalMv_congr (hc : t.fld F.PWR_DVFS_CURRENT = s.fld F.PWR_DVFS_CURRENT)
    (hb : t.fld F.PWR_STATUS_DVFS_BUSY = s.fld F.PWR_STATUS_DVFS_BUSY) (hp : t.pwr.dvfsTo = s.pwr.dvfsTo) : t.nominalMv = s.nominalMv := by
  rw [State.nominalMv, State.bit, hc, hb, hp, State.nominalMv, State.bit]

theorem tickNo_congr (h : ∀ o ∈ [R.TICK_COUNT_LO, R.TICK_COUNT_HI], t.reg o = s.reg o) : t.tickNo = s.tickNo := by
  simp only [List.forall_mem_cons, List.not_mem_nil, false_imp_iff, implies_true, and_true] at h
  rw [State.tickNo, State.reg64, h.1, h.2, State.tickNo, State.reg64]

/-- Nominal voltage and tick are those before the sample. -/
theorem dipPayload_dipMarked : (s.dipSeen mv).dipMarked.dipPayload mv = s.dipPayload mv := by
  have hpwr : (s.dipSeen mv).dipMarked.pwr = s.sampledNow.pwr := (dipMarked_dipsTo _).pwr_eq.trans dipSeen_regsTo.pwr_eq
  have hfld (f : Fld) (h : f = F.PWR_DVFS_CURRENT ∨ f = F.PWR_STATUS_DVFS_BUSY) : (s.dipSeen mv).dipMarked.fld f = s.fld f := by
    rcases h with rfl | rfl <;>
    simp (disch := decide) only [fld_dipMarked, State.dipSeen, State.dipFlagged, State.setBit, State.orFld, fld_setFld_sep, fld_sampledNow]
  have hreg (o : Nat) (h : o ∈ [R.TICK_COUNT_LO, R.TICK_COUNT_HI]) : (s.dipSeen mv).dipMarked.reg o = s.reg o := by
    have hne : ∀ o ∈ [R.TICK_COUNT_LO, R.TICK_COUNT_HI], o ≠ R.PWR_VCORE ∧ o ≠ R.PWR_STATUS ∧ o ≠ R.PWR_ERR := by decide
    rw [reg_dipMarked, reg_dipSeen (hne o h)]
  rw [State.dipPayload, nominalMv_congr (hfld _ (.inl rfl)) (hfld _ (.inr rfl)) (by rw [hpwr, State.sampledNow]), tickNo_congr hreg,
    State.dipPayload]

/-- The heads that run when an episode begins are marked, the others stay (R496). -/
theorem dip_dipBegun {h : Nat} (hh : h < 32) :
    ((s.dipBegun mv).hd h).dip = ((s.hd h).dip || decide (2 ≤ s.fld (F.HEAD_STATUS_STATE h))) := by
  have hruns : (s.dipSeen mv).headRuns h = decide (2 ≤ s.fld (F.HEAD_STATUS_STATE h)) := by
    rw [State.headRuns, State.headState, fld_of_reg (reg_dipSeen _)]
    simp only [F.HEAD_STATUS_STATE, R.HEAD_STATUS, R.PWR_VCORE, R.PWR_STATUS, R.PWR_ERR]
    omega
  rw [State.dipBegun, (State.RegsTo.bump _ _ _).hd_eq, State.dipMarked, hd_updRunning _ _ List.nodup_range, hruns,
    dipSeen_regsTo.hd_eq, hd_sampledNow]
  by_cases hrun : 2 ≤ s.fld (F.HEAD_STATUS_STATE h)
  · rw [if_pos ⟨List.mem_range.mpr hh, decide_eq_true hrun⟩, decide_eq_true hrun, Bool.or_true]
  · rw [if_neg (by simp [hrun]), decide_eq_false hrun, Bool.or_false]

/-- The marking of the heads as DIP_BEGIN writes it out. -/
theorem foldl_markDip (t : State) : (List.range 32).foldl (fun s h =>
    if 2 ≤ s.fld (F.HEAD_STATUS_STATE h) then
      { s with heads := Tbl.set (fun _ => {}) s.heads h { Tbl.get (fun _ => ({} : HeadSt)) s.heads h with dip := true } }
    else s) t = t.dipMarked := by
  have hstep (s : State) (h : Nat) : s.updHd h (fun x => { x with dip := true }) =
      { s with heads := Tbl.set (fun _ => {}) s.heads h { Tbl.get (fun _ => ({} : HeadSt)) s.heads h with dip := true } } := rfl
  rw [State.dipMarked, updRunning]
  congr 1
  funext s h
  rw [hstep, State.headRuns, State.headState]
  exact if_congr decide_eq_true_iff.symm rfl rfl

theorem exec_dipBegin (hr : s.pwr.phase = .run) : exec (.dipBegin mv) s = .next
    (if s.bit F.PWR_STATUS_DIP_ACTIVE then s.sampledNow.setFld F.PWR_VCORE_MV mv.toNat
     else (s.dipBegun mv).logHw 0x10 0xFF (s.dipPayload mv) false) := by
  have hbit : (s.sampledNow.setFld F.PWR_VCORE_MV mv.toNat).bit F.PWR_STATUS_DIP_ACTIVE = s.bit F.PWR_STATUS_DIP_ACTIVE := by
    rw [State.bit, State.bit, fld_setFld_sep (by decide), fld_sampledNow]
  have hbody (u : State) : (if u.bit F.PWR_STATUS_DIP_ACTIVE then u else
      let s := ((u.setBit F.PWR_STATUS_DIP_ACTIVE true).orFld F.PWR_STATUS_RAIL_LOW 1).orFld F.PWR_ERR_ERR 1
      let s := (List.range 32).foldl (fun s h =>
        if 2 ≤ s.fld (F.HEAD_STATUS_STATE h) then
          { s with heads := Tbl.set (fun _ => {}) s.heads h { Tbl.get (fun _ => ({} : HeadSt)) s.heads h with dip := true } }
        else s) s
      (s.bump F.PWR_DIP_CNT_COUNT).logHw 0x10 0xFF
        (leBytes 2 s.nominalMv ++ leBytes 2 mv.toNat ++ leBytes 4 0 ++ leBytes 8 s.tickNo) false) =
      if u.bit F.PWR_STATUS_DIP_ACTIVE then u
      else (u.dipFlagged.dipMarked.bump F.PWR_DIP_CNT_COUNT).logHw 0x10 0xFF (u.dipFlagged.dipMarked.dipPayload mv) false := by
    simp only [foldl_markDip, State.dipFlagged, State.dipPayload]
  show Host.Outcome.next (s.ifRun _) = _
  rw [State.ifRun, if_pos hr, ← dipPayload_dipMarked, State.dipBegun, State.dipSeen, ← hbit]
  exact congrArg Host.Outcome.next ((hbody _).trans (by rw [withPwr_setFld, State.sampledNow]))

/-- A dip episode that begins: what holds of every state that the episode's flags and its record lead to holds of the next one. -/
theorem gives_dipBegin (hr : s.pwr.phase = .run) (hd : s.bit F.PWR_STATUS_DIP_ACTIVE = false) {P : State → Prop}
    (hP : ∀ t, (s.dipBegun mv).RecordsTo t →
      (s.log.queue.length < 64 → ∃ e, t.log.queue = s.log.queue ++ [e] ∧ e.typ = 0x10 ∧ e.payload = s.dipPayload mv) → P t) :
    Gives (.dipBegin mv) s P := by
  have hexec : exec (.dipBegin mv) s = .next ((s.dipBegun mv).logHw 0x10 0xFF (s.dipPayload mv) false) := by
    rw [exec_dipBegin hr, hd, if_neg Bool.false_ne_true]
  have hlog : (s.dipBegun mv).log = s.log := dipBegun_dipsTo.log_eq.trans (log_sampledNow s)
  have hlen : (s.dipPayload mv).length = 16 := by simp [State.dipPayload]
  refine ⟨_, hexec, hP _ (.logHw _ _ _ _ _) (fun hq => ?_)⟩
  rw [← hlog] at hq ⊢
  obtain ⟨e, he, htyp, hpay⟩ := queue_logHw (typ := 0x10) (master := 0xFF) hq (by omega) hlen.le
  exact ⟨e, he, htyp, by simpa [hlen] using hpay⟩

/-- What begins an episode and its record change. -/
theorem State.DipsTo.frame_records {u : State} {p : PwrSt} (hu : ({ s with pwr := p } : State).DipsTo u) (ht : u.RecordsTo t) :
    t = { s with regs := t.regs, mem := t.mem, log := t.log, heads := t.heads, pwr := p } := by
  have hframe := ht.frame
  unfold State.DipsTo at hu
  rw [ht.heads]
  generalize u.heads = x at hu
  exact hframe.trans (by rw [hu])

/-! What the fields of an episode that has begun hold. -/

theorem dipBegun_vcore : (s.dipBegun mv).fld F.PWR_VCORE_MV = mv.toNat := by
  simp (disch := decide) only [State.dipBegun, State.dipSeen, State.dipFlagged, State.bump, State.setBit, State.orFld, fld_dipMarked,
    fld_setFld_sep]
  exact fld_setFld_fits (by decide) mv.isLt

theorem dipBegun_active : (s.dipBegun mv).fld F.PWR_STATUS_DIP_ACTIVE = 1 := by
  simp (disch := decide) only [State.dipBegun, State.dipSeen, State.dipFlagged, State.bump, State.setBit, State.orFld, fld_dipMarked,
    fld_setFld_sep]
  exact fld_setFld_fits (by decide) (by decide)

theorem dipBegun_railLow : (s.dipBegun mv).bitAt F.PWR_STATUS_RAIL_LOW 0 = true := by
  refine (bitAt_congr ?_).trans (bitAt_orFld (s := (s.sampledNow.setFld F.PWR_VCORE_MV mv.toNat).setBit F.PWR_STATUS_DIP_ACTIVE true)
    (v := 1) (by decide))
  simp (disch := decide) only [State.dipBegun, State.dipSeen, State.dipFlagged, State.bump, State.setBit, State.orFld, fld_dipMarked,
    fld_setFld_sep]

theorem dipBegun_err : (s.dipBegun mv).bitAt F.PWR_ERR_ERR 0 = true := by
  refine (bitAt_congr ?_).trans (bitAt_orFld (s := ((s.sampledNow.setFld F.PWR_VCORE_MV mv.toNat).setBit F.PWR_STATUS_DIP_ACTIVE true).orFld
    F.PWR_STATUS_RAIL_LOW 1) (v := 1) (by decide))
  simp (disch := decide) only [State.dipBegun, State.dipSeen, State.dipFlagged, State.bump, fld_dipMarked, fld_setFld_sep]

theorem fld_bump_same {f : Fld} (h : f.lo ≤ f.hi ∧ f.hi < 32) :
    (s.bump f).fld f = min (2 ^ (f.hi + 1 - f.lo) - 1) (s.fld f + 1) :=
  fld_setFld_fits h (Nat.lt_of_le_of_lt (Nat.min_le_left _ _) (Nat.sub_lt (Nat.two_pow_pos _) Nat.one_pos))

theorem dipBegun_count : (s.dipBegun mv).fld F.PWR_DIP_CNT_COUNT = min (2 ^ 32 - 1) (s.fld F.PWR_DIP_CNT_COUNT + 1) := by
  refine (fld_bump_same (by decide)).trans ?_
  simp (disch := decide) only [State.dipSeen, State.dipFlagged, State.setBit, State.orFld, fld_dipMarked, fld_setFld_sep, fld_sampledNow]
  rfl

/-! ### The end of a dip episode (R497) -/

/-- The episode's registers at its end. -/
def State.dipOver (s : State) (ns : Nat) (mv : BitVec 16) : State :=
  (s.setFlds [(F.PWR_STATUS_DIP_ACTIVE, 0), (F.PWR_DIP_DUR_NS, min ns (2 ^ 32 - 1)), (F.PWR_DIP_MIN_MV, mv.toNat)]).putBitAt
    F.PWR_STATUS_RAIL_LOW 0 false

/-- What an episode longer than 2 ms raises. -/
def State.longDip (s : State) : State := ((s.orFld F.PWR_ERR_ERR 2).orFld F.STEP_ERR_ERR 0x200).setBit F.STEP_HEALTH_DEG_FLOOR true

/-- A full-state compare is due (R454), and an episode that was long is flagged. -/
def State.dipJudged (s : State) (ns : Nat) : State :=
  if 2000000 < ns then ({ s with pair := { s.pair with fullDue := true } } : State).longDip
  else { s with pair := { s.pair with fullDue := true } }

/-- The payload of the record of R497. -/
def dipEndPayload (ns : Nat) (mv : BitVec 16) : List Byte :=
  leBytes 4 (min ns (2 ^ 32 - 1)) ++ leBytes 2 mv.toNat ++ leBytes 1 (decide (2000000 < ns)).toNat

theorem exec_dipEnd (hr : s.pwr.phase = .run) : exec (.dipEnd ns mv) s = .next
    (if s.bit F.PWR_STATUS_DIP_ACTIVE then ((s.dipOver ns mv).logHw 0x11 0xFF (dipEndPayload ns mv) false).dipJudged ns else s) := by
  have hjudge (u : State) : (let s : State := { u with pair := { u.pair with fullDue := true } }
      if decide (2000000 < ns) then ((s.orFld F.PWR_ERR_ERR 2).orFld F.STEP_ERR_ERR 0x200).setBit F.STEP_HEALTH_DEG_FLOOR true else s) =
      u.dipJudged ns := if_congr decide_eq_true_iff rfl rfl
  show Host.Outcome.next (s.ifRun _) = _
  rw [State.ifRun, if_pos hr]
  cases s.bit F.PWR_STATUS_DIP_ACTIVE
  · rfl
  · exact congrArg Host.Outcome.next (hjudge _)

theorem dipOver_regsTo (s : State) (ns : Nat) (mv : BitVec 16) : s.RegsTo (s.dipOver ns mv) :=
  (State.RegsTo.setFlds s _).trans (State.RegsTo.putBitAt _ _ _ _)

/-- The end of an episode: what holds of the judgement of every state that the registers and the record lead to holds of the next one. -/
theorem gives_dipEnd (hr : s.pwr.phase = .run) (hd : s.bit F.PWR_STATUS_DIP_ACTIVE = true) {P : State → Prop}
    (hP : ∀ t, (s.dipOver ns mv).RecordsTo t →
      (s.log.queue.length < 64 → ∃ e, t.log.queue = s.log.queue ++ [e] ∧ e.typ = 0x11 ∧
        e.payload = dipEndPayload ns mv ++ List.replicate 9 0) →
      P (t.dipJudged ns)) :
    Gives (.dipEnd ns mv) s P := by
  have hexec : exec (.dipEnd ns mv) s = .next (((s.dipOver ns mv).logHw 0x11 0xFF (dipEndPayload ns mv) false).dipJudged ns) := by
    rw [exec_dipEnd hr, if_pos hd]
  have hlen : (dipEndPayload ns mv).length = 7 := by simp [dipEndPayload]
  refine ⟨_, hexec, hP _ (.logHw _ _ _ _ _) (fun hq => ?_)⟩
  rw [← (dipOver_regsTo s ns mv).log_eq] at hq ⊢
  obtain ⟨e, he, htyp, hpay⟩ := queue_logHw (typ := 0x11) (master := 0xFF) (payload := dipEndPayload ns mv) hq (by omega) (by omega)
  exact ⟨e, he, htyp, by rw [hpay, hlen]⟩

/-! What the fields hold when the record has been written. -/

theorem dipOver_active : (s.dipOver ns mv).fld F.PWR_STATUS_DIP_ACTIVE = 0 := by
  simp (disch := decide) only [State.dipOver, State.putBitAt, State.setFlds, List.foldl_cons, List.foldl_nil, fld_setFld_sep]
  exact fld_setFld_fits (by decide) (by decide)

theorem dipOver_railLow : (s.dipOver ns mv).bitAt F.PWR_STATUS_RAIL_LOW 0 = false := bitAt_putBitAt_same (by decide) (by decide)

theorem dipOver_duration : (s.dipOver ns mv).fld F.PWR_DIP_DUR_NS = min ns (2 ^ 32 - 1) := by
  simp (disch := decide) only [State.dipOver, State.putBitAt, State.setFlds, List.foldl_cons, List.foldl_nil, fld_setFld_sep]
  exact fld_setFld_fits (by decide) (Nat.lt_of_le_of_lt (Nat.min_le_right _ _) (by decide))

theorem dipOver_minimum : (s.dipOver ns mv).fld F.PWR_DIP_MIN_MV = mv.toNat := by
  simp (disch := decide) only [State.dipOver, State.putBitAt, State.setFlds, List.foldl_cons, List.foldl_nil, fld_setFld_sep]
  exact fld_setFld_fits (by decide) mv.isLt

/-- The registers of errors and health stay. -/
theorem reg_dipOver {o : Nat} (h : o ≠ R.PWR_STATUS ∧ o ≠ R.PWR_DIP_DUR ∧ o ≠ R.PWR_DIP_MIN) : (s.dipOver ns mv).reg o = s.reg o := by
  obtain ⟨hst, hdur, hmin⟩ := h
  rw [State.dipOver, State.putBitAt, reg_setFld_ne _ _ hst, reg_setFlds_ne]
  simpa [F.PWR_STATUS_DIP_ACTIVE, F.PWR_DIP_DUR_NS, F.PWR_DIP_MIN_MV] using ⟨hst, hdur, hmin⟩

theorem longDip_regsTo (s : State) : s.RegsTo s.longDip :=
  (State.RegsTo.orFld s _ _).trans ((State.RegsTo.orFld _ _ _).trans (State.RegsTo.setFld _ _ _))

/-- Registers and the compare apart, the judgement changes nothing. -/
theorem dipJudged_frame (s : State) (ns : Nat) :
    s.dipJudged ns = { s with regs := (s.dipJudged ns).regs, pair := { s.pair with fullDue := true } } := by
  unfold State.dipJudged
  split
  · exact longDip_regsTo _
  · rfl

/-- What ends an episode, its record and its judgement change. -/
theorem dipJudged_records {u : State} (hu : s.RegsTo u) (ht : u.RecordsTo t) : (t.dipJudged ns).pair = { s.pair with fullDue := true } ∧
    (t.dipJudged ns).log = t.log ∧ t.dipJudged ns = { s with
      regs := (t.dipJudged ns).regs, mem := (t.dipJudged ns).mem, log := (t.dipJudged ns).log, pair := (t.dipJudged ns).pair } := by
  have hj := dipJudged_frame t ns
  have hframe := ht.frame
  unfold State.RegsTo at hu
  generalize t.dipJudged ns = v at hj
  have hpair : t.pair = s.pair := by rw [hframe, hu]
  refine ⟨by rw [hj, hpair], by rw [hj], ?_⟩
  rw [hj, hpair]
  rw [hframe, hu]

theorem fld_longDip {f : Fld} (h : f.addr ≠ R.PWR_ERR ∧ f.addr ≠ R.STEP_ERR ∧ f.addr ≠ R.STEP_HEALTH) : s.longDip.fld f = s.fld f := by
  obtain ⟨hp, hs, hh⟩ := h
  rw [State.longDip, State.setBit, fld_setFld_addr _ _ hh, State.orFld, fld_setFld_addr _ _ hs, State.orFld, fld_setFld_addr _ _ hp]

theorem fld_dipJudged {f : Fld} (h : f.addr ≠ R.PWR_ERR ∧ f.addr ≠ R.STEP_ERR ∧ f.addr ≠ R.STEP_HEALTH) :
    (s.dipJudged ns).fld f = s.fld f := by
  unfold State.dipJudged
  split
  · exact fld_longDip h
  · rfl

/-- An episode of more than 2 ms. -/
theorem dipJudged_long (h : 2000000 < ns) : (s.dipJudged ns).bitAt F.PWR_ERR_ERR 1 = true ∧ (s.dipJudged ns).bitAt F.STEP_ERR_ERR 9 = true ∧
    (s.dipJudged ns).fld F.STEP_HEALTH_DEG_FLOOR = 1 := by
  rw [State.dipJudged, if_pos h]
  generalize ({ s with pair := { s.pair with fullDue := true } } : State) = u
  refine ⟨(bitAt_congr ?_).trans (bitAt_orFld (s := u) (v := 2) (by decide)),
    (bitAt_congr ?_).trans (bitAt_orFld (s := u.orFld F.PWR_ERR_ERR 2) (v := 0x200) (by decide)),
    fld_setFld_fits (by decide) (by decide)⟩
  · rw [State.longDip, State.setBit, fld_setFld_sep (by decide), State.orFld, fld_setFld_sep (by decide)]
  · rw [State.longDip, State.setBit, fld_setFld_sep (by decide)]

/-- A shorter one. -/
theorem reg_dipJudged (h : ns ≤ 2000000) (o : Nat) : (s.dipJudged ns).reg o = s.reg o := by
  rw [State.dipJudged, if_neg (Nat.not_lt.mpr h)]
  rfl

/-! ### Other rails (R488, R499) -/

theorem exec_railLowClear (hr : s.pwr.phase = .run) (r : Fin 7) : exec (.railLowClear r) s =
    .next (s.setFld F.PWR_STATUS_RAIL_LOW (putBits (s.fld F.PWR_STATUS_RAIL_LOW) r r 0)) := by
  show Host.Outcome.next (s.ifRun _) = _
  rw [State.ifRun, if_pos hr, State.putBitAt, Bool.toNat_false]

/-- The errors of rail `r`'s fall: VDD_AON's sets none. -/
def State.railErr (s : State) (r : Fin 7) : State := if r.val = 1 then s else s.orFld F.PWR_ERR_ERR 4

theorem exec_railWarn (hr : s.pwr.phase = .run) (r : Fin 7) : exec (.railWarn r) s = .next (if r.val = 0 then s else
    (s.railErr r).setFld F.PWR_STATUS_RAIL_LOW (putBits ((s.railErr r).fld F.PWR_STATUS_RAIL_LOW) r r 1)) := by
  have hput (u : State) : u.putBitAt F.PWR_STATUS_RAIL_LOW r true =
      u.setFld F.PWR_STATUS_RAIL_LOW (putBits (u.fld F.PWR_STATUS_RAIL_LOW) r r 1) := rfl
  show Host.Outcome.next (s.ifRun _) = _
  rw [State.ifRun, if_pos hr, ← hput, State.railErr]

/-! ### Temperatures (R504) -/

/-- A sample is taken, and the alarm is raised from its level on. -/
def State.tempTaken (s : State) (k : Fin 8) (d : BitVec 16) : State :=
  if sext 16 (s.fld F.PWR_TEMP_ALARM_TEMP) ≤ d.toInt then (s.setFld (F.PWR_TEMP_TEMP k) d.toNat).orFld F.PWR_ERR_ERR 8
  else s.setFld (F.PWR_TEMP_TEMP k) d.toNat

/-- At 125 °C THERM_N falls. -/
def State.tripped (s : State) : State := ({ s with pwr := { s.pwr with thermN := false } } : State).setFld F.PWR_AON_STAT_TRIPPED 1

variable {k : Fin 8} {d : BitVec 16}

/-- The registers of the sensors lie apart from those of the alarm, the errors and the trip. -/
theorem temp_addr_ne (k : Fin 8) : R.PWR_TEMP k ≠ R.PWR_TEMP_ALARM ∧ R.PWR_TEMP k ≠ R.PWR_ERR ∧ R.PWR_TEMP k ≠ R.PWR_AON_STAT := by
  revert k
  decide

/-- A sample with its alarm and its trip. -/
def State.sampleTemp (s : State) (k : Fin 8) (d : BitVec 16) : State :=
  if 500 ≤ d.toInt then (s.tempTaken k d).tripped else s.tempTaken k d

theorem exec_tempSample (hr : s.pwr.phase = .run) : exec (.tempSample k d) s = .next (s.sampleTemp k d) := by
  have halarm : (s.setFld (F.PWR_TEMP_TEMP k) d.toNat).fld F.PWR_TEMP_ALARM_TEMP = s.fld F.PWR_TEMP_ALARM_TEMP :=
    fld_setFld_addr _ _ (temp_addr_ne k).1.symm
  show Host.Outcome.next (s.ifRun _) = _
  rw [State.ifRun, if_pos hr, State.sampleTemp, State.tempTaken, ← halarm]
  rfl

theorem tempTaken_regsTo (s : State) (k : Fin 8) (d : BitVec 16) : s.RegsTo (s.tempTaken k d) :=
  .ite ((State.RegsTo.setFld s _ _).trans (State.RegsTo.orFld _ _ _)) (State.RegsTo.setFld s _ _)

theorem tripped_frame (s : State) : s.tripped = { s with regs := s.tripped.regs, pwr := { s.pwr with thermN := false } } :=
  State.RegsTo.setFld _ _ _

theorem reg_tripped {o : Nat} (h : o ≠ R.PWR_AON_STAT) : s.tripped.reg o = s.reg o := (reg_setFld_ne _ _ h).trans rfl

theorem reg_tempTaken {o : Nat} (hk : o ≠ R.PWR_TEMP k) (he : o ≠ R.PWR_ERR) : (s.tempTaken k d).reg o = s.reg o := by
  unfold State.tempTaken
  split
  · exact (reg_setFld_ne _ _ he).trans (reg_setFld_ne _ _ hk)
  · exact reg_setFld_ne _ _ hk

/-- The trip's register apart, a sample leaves what its alarm leaves. -/
theorem reg_sampleTemp {o : Nat} (h : o ≠ R.PWR_AON_STAT) : (s.sampleTemp k d).reg o = (s.tempTaken k d).reg o := by
  unfold State.sampleTemp
  split
  · exact reg_tripped h
  · rfl

theorem sampleTemp_temp : (s.sampleTemp k d).fld (F.PWR_TEMP_TEMP k) = d.toNat := by
  obtain ⟨-, he, ht⟩ := temp_addr_ne k
  have htaken : (s.setFld (F.PWR_TEMP_TEMP k) d.toNat).fld (F.PWR_TEMP_TEMP k) = d.toNat := fld_setFld_fits (by simp [F.PWR_TEMP_TEMP]) d.isLt
  rw [fld_of_reg (reg_sampleTemp ht), State.tempTaken]
  split
  · rw [State.orFld, fld_setFld_addr _ _ he, htaken]
  · exact htaken

theorem sampleTemp_alarm (h : sext 16 (s.fld F.PWR_TEMP_ALARM_TEMP) ≤ d.toInt) : (s.sampleTemp k d).bitAt F.PWR_ERR_ERR 3 = true := by
  refine (bitAt_congr ?_).trans (bitAt_orFld (s := s.setFld (F.PWR_TEMP_TEMP k) d.toNat) (v := 8) (by decide))
  rw [fld_of_reg (reg_sampleTemp (by decide)), State.tempTaken, if_pos h]

theorem reg_err_sampleTemp (h : d.toInt < sext 16 (s.fld F.PWR_TEMP_ALARM_TEMP)) : (s.sampleTemp k d).reg R.PWR_ERR = s.reg R.PWR_ERR := by
  rw [reg_sampleTemp (by decide), State.tempTaken, if_neg (not_le.mpr h), reg_setFld_ne _ _ (temp_addr_ne k).2.1.symm]

theorem sampleTemp_hot (h : 500 ≤ d.toInt) : (s.sampleTemp k d).fld F.PWR_AON_STAT_TRIPPED = 1 ∧
    (s.sampleTemp k d).pwr = { s.pwr with thermN := false } := by
  have htrip (u : State) : u.tripped.fld F.PWR_AON_STAT_TRIPPED = 1 ∧ u.tripped.pwr = { u.pwr with thermN := false } :=
    ⟨fld_setFld_fits (by decide) (by decide), setFld_pwr ..⟩
  rw [State.sampleTemp, if_pos h, ← (tempTaken_regsTo s k d).pwr_eq]
  exact htrip _

theorem sampleTemp_cool (h : d.toInt < 500) : (s.sampleTemp k d).reg R.PWR_AON_STAT = s.reg R.PWR_AON_STAT ∧
    (s.sampleTemp k d).pwr = s.pwr := by
  rw [State.sampleTemp, if_neg (not_le.mpr h)]
  exact ⟨reg_tempTaken (temp_addr_ne k).2.2.symm (by decide), (tempTaken_regsTo s k d).pwr_eq⟩

theorem sampleTemp_frame (s : State) (k : Fin 8) (d : BitVec 16) :
    s.sampleTemp k d = { s with regs := (s.sampleTemp k d).regs, pwr := (s.sampleTemp k d).pwr } := by
  have hframe {u v : State} (hu : s.RegsTo u) (hv : v = { u with regs := v.regs, pwr := { u.pwr with thermN := false } }) :
      v = { s with regs := v.regs, pwr := v.pwr } := by
    unfold State.RegsTo at hu
    rw [hv, hu]
  have hregs {u : State} (hu : s.RegsTo u) : u = { s with regs := u.regs, pwr := u.pwr } := by
    unfold State.RegsTo at hu
    rw [hu]
  unfold State.sampleTemp
  split
  · exact hframe (tempTaken_regsTo s k d) (tripped_frame _)
  · exact hregs (tempTaken_regsTo s k d)

theorem sampleTemp_sameRegsBut (s : State) (k : Fin 8) (d : BitVec 16) :
    s.SameRegsBut (s.sampleTemp k d) [R.PWR_TEMP k, R.PWR_ERR, R.PWR_AON_STAT] := by
  intro o ho
  simp only [List.mem_cons, List.not_mem_nil, or_false, not_or] at ho
  obtain ⟨hk, he, ht⟩ := ho
  exact ⟨(reg_sampleTemp ht).trans (reg_tempTaken hk he), by rw [State.lreg, sampleTemp_frame, State.lreg]⟩

end Sys2Proof.Machine
end

section
/-!
PROOFS. The register commands of power and of the keeper (R502, R510, R511, R513, R514, R522, R526): each comes to its register's function on the word
written.
-/
namespace Sys2Proof.Machine

variable {s t : State} {m : Mst} {w : Word}

/-! ### The word written -/

/-- A field of one bit is written with that bit of the word. -/
theorem freeWrite_one_bit (s : State) (off : Nat) (w : Word) {f : Fld} {i : Nat} (h : f.hi = i ∧ f.lo = i ∧ i < 32) :
    (freeWrite s off w.toNat).one f = w.getLsbD i := by
  obtain ⟨hhi, hlo, hi⟩ := h
  rw [freeWrite_one s off w.toNat f ⟨by omega, by omega⟩, hhi, hlo, bits_single]
  cases w.getLsbD i <;> rfl

/-- A read-only field keeps its value. -/
theorem fld_written_ro (w : Nat) {f : RegField} {off : Nat} (hf : f ∈ fieldsAt off) (hacc : f.acc = .ro)
    (hhi : f.hi < 32) (hap : FieldsApart (fieldsAt off)) : (s.written off w).fld ⟨off, f.hi, f.lo⟩ = s.fld ⟨off, f.hi, f.lo⟩ := by
  have hval : fieldAfter f (s.reg off).toNat (w % 2 ^ 32) (2 ^ 32 - 1) = bits (s.reg off).toNat f.hi f.lo := by
    simp only [fieldAfter, hacc, ite_self]
  rw [State.fld, State.written, Admit.plain, reg_setReg_same, BitVec.toNat_ofNat, bits_mod _ _ _ _ hhi]
  refine (bits_foldl_putBits (fun g => fieldAfter g (s.reg off).toNat (w % 2 ^ 32) (2 ^ 32 - 1)) (fieldsAt off) _ hf hap.1 hap.2).trans ?_
  rw [hval, Nat.mod_eq_of_lt (bits_lt _ _ _), State.fld]

theorem written_regsTo (s : State) (off w : Nat) : s.RegsTo (s.written off w) := written_eq s off w

theorem bit_written_ne {off : Nat} {f : Fld} (w : Nat) (h : f.addr ≠ off) : (s.written off w).bit f = s.bit f := by
  rw [State.bit, fld_written_ne f w h, State.bit]

theorem setBit_true (s : State) (f : Fld) : s.setBit f true = s.setFld f 1 := rfl
theorem setBit_false (s : State) (f : Fld) : s.setBit f false = s.setFld f 0 := rfl

/-! ### DVFS (R502) -/

/-- A change cannot start: the memory's own change runs, or its operating point is too high. -/
abbrev State.DvfsWrong (s : State) (goal : Nat) : Prop := s.bit F.DDR_FC_STAT_BUSY = true ∨ s.fld (F.DDR_STATUS_POINT 0) < goal

theorem fieldsAt_dvfs : fieldsAt R.PWR_DVFS =
    [⟨31, 31, .w1s, .keeper, 0⟩, ⟨23, 16, .rw, .keeper, 0x28⟩, ⟨9, 8, .ro, .open, 1⟩, ⟨1, 0, .rw, .keeper, 1⟩] := by decide +kernel

theorem dvfsWrite_freeWrite : State.dvfsWrite (freeWrite s R.PWR_DVFS w.toNat) =
    if w.getLsbD 31 = false ∨ s.bit F.PWR_STATUS_DVFS_BUSY = true then s.written R.PWR_DVFS w.toNat
    else if s.DvfsWrong (bits w.toNat 1 0) then ((s.written R.PWR_DVFS w.toNat).orFld F.PWR_ERR_ERR 0x10).setFld F.PWR_DVFS_GO 0
    else { (s.written R.PWR_DVFS w.toNat).setFld F.PWR_STATUS_DVFS_BUSY 1 with
      pwr := { s.pwr with dvfsTo := bits w.toNat 1 0, vid := bits w.toNat 1 0,
                          clkPoint := if s.fld F.PWR_DVFS_CURRENT < bits w.toNat 1 0 then bits w.toNat 1 0 else s.pwr.clkPoint } } := by
  have hcur : (s.written R.PWR_DVFS w.toNat).fld F.PWR_DVFS_CURRENT = s.fld F.PWR_DVFS_CURRENT :=
    fld_written_ro (f := ⟨9, 8, .ro, .open, 1⟩) w.toNat (by simp [fieldsAt_dvfs]) rfl (by decide) (by rw [fieldsAt_dvfs]; decide)
  have hgo : (freeWrite s R.PWR_DVFS w.toNat).one F.PWR_DVFS_GO = w.getLsbD 31 := freeWrite_one_bit s _ w ⟨rfl, rfl, by decide⟩
  have hgoal : (freeWrite s R.PWR_DVFS w.toNat).get F.PWR_DVFS_TARGET = bits w.toNat 1 0 := freeWrite_get s _ _ _ ⟨by decide, by decide⟩
  have hbusy : (s.written R.PWR_DVFS w.toNat).bit F.PWR_STATUS_DVFS_BUSY = s.bit F.PWR_STATUS_DVFS_BUSY := bit_written_ne _ (by decide)
  have hfc : (s.written R.PWR_DVFS w.toNat).bit F.DDR_FC_STAT_BUSY = s.bit F.DDR_FC_STAT_BUSY := bit_written_ne _ (by decide)
  have hpoint : (s.written R.PWR_DVFS w.toNat).fld (F.DDR_STATUS_POINT 0) = s.fld (F.DDR_STATUS_POINT 0) := fld_written_ne _ _ (by decide)
  have hpwr : ((s.written R.PWR_DVFS w.toNat).setFld F.PWR_STATUS_DVFS_BUSY 1).pwr = s.pwr :=
    ((written_regsTo s _ _).trans (State.RegsTo.setFld _ _ _)).pwr_eq
  unfold State.dvfsWrite
  dsimp only
  rw [freeWrite_plain_eq, hgo, hgoal, hcur, hbusy, hfc, hpoint, setBit_true, setBit_false, hpwr]
  by_cases h31 : w.getLsbD 31 = false
  · rw [if_pos (by rw [h31]; rfl), if_pos (.inl h31)]
  rw [if_neg (by simpa using h31)]
  by_cases hb : s.bit F.PWR_STATUS_DVFS_BUSY = true
  · rw [if_pos hb, if_pos (.inr hb)]
  rw [if_neg hb, if_neg (not_or.mpr ⟨h31, hb⟩)]
  by_cases hw : s.DvfsWrong (bits w.toNat 1 0)
  · rw [if_pos (by simpa using hw), if_pos hw]
  · rw [if_neg (by simpa using hw), if_neg hw]
    simp only [decide_eq_true_eq]

theorem exec_dvfsGo (hr : s.pwr.phase = .run) (h : s.MayWrite m R.PWR_DVFS) :
    exec (.dvfsGo m w) s = .next (State.dvfsWrite (freeWrite s R.PWR_DVFS w.toNat)).taken :=
  congrArg Host.Outcome.next (runReg_mayWrite hr h _ _)

theorem exec_dvfsDone (hr : s.pwr.phase = .run) : exec .dvfsDone s = .next (if s.bit F.PWR_STATUS_DVFS_BUSY then
    { (s.setFlds [(F.PWR_DVFS_CURRENT, s.pwr.dvfsTo), (F.PWR_DVFS_GO, 0), (F.PWR_STATUS_DVFS_BUSY, 0)]).orFld F.PWR_ERR_ERR 0x40 with
      pwr := { s.pwr with clkPoint := s.pwr.dvfsTo } } else s) := by
  show Host.Outcome.next (s.ifRun _) = _
  rw [State.ifRun, if_pos hr]
  by_cases hb : s.bit F.PWR_STATUS_DVFS_BUSY = true
  · rw [if_neg (by simp [hb]), if_pos hb]
    dsimp only
    rw [setFlds_pwr]
  · rw [if_pos (by simpa using hb), if_neg hb]

/-! ### RETAIN and DEEP (R510, R511, R514) -/

/-- The wall stands still: ALONE or no partner on the pins, the tick stopped, every head off, and no change of rails or memory in progress. -/
abbrev State.WallStill (s : State) : Prop :=
  (s.pwr.rolePins = 3 ∨ s.pwr.rolePins = 0) ∧ s.bit F.TICK_STATUS_RUNNING = false ∧ (∀ h, h < 32 → s.fld (F.HEAD_STATUS_STATE h) = 0) ∧
    s.bit F.PWR_STATUS_DVFS_BUSY = false ∧ s.bit F.DDR_FC_STAT_BUSY = false

/-- Memory that RETAIN may leave to refresh itself: not in use, or at P3. -/
abbrev State.MemCold (s : State) : Prop := s.bit F.DDR_GCTL_READY = false ∨ s.fld (F.DDR_STATUS_POINT 0) = 3

theorem mayLeaveRun_iff (s : State) (n : Nat) : s.mayLeaveRun n = true ↔ s.WallStill ∧ (n = 2 ∨ s.MemCold) := by
  simp only [State.mayLeaveRun, Bool.and_eq_true, Bool.or_eq_true, beq_iff_eq, Bool.not_eq_true', List.all_eq_true, List.mem_range, and_assoc,
    or_assoc]

/-- The entries that R510 does not refuse. -/
theorem leave_refused_iff (s : State) (n : Nat) :
    ((n != 1 && n != 2) || !s.mayLeaveRun n) = true ↔ ¬ (s.WallStill ∧ (n = 2 ∨ (n = 1 ∧ s.MemCold))) := by
  rw [Bool.or_eq_true, Bool.not_eq_true', ← Bool.not_eq_true (s.mayLeaveRun n), mayLeaveRun_iff, Bool.and_eq_true, bne_iff_ne, bne_iff_ne]
  by_cases h1 : n = 1
  · simp [h1]
  · by_cases h2 : n = 2 <;> simp [h1, h2]

/-- The conditions of R510 do not read PWR_STATE. -/
theorem mayLeaveRun_congr (h : s.RegsTo t) (hreg : ∀ o, o ≠ R.PWR_STATE → t.reg o = s.reg o) (n : Nat) :
    t.mayLeaveRun n = s.mayLeaveRun n := by
  have hfld (f : Fld) (hf : f.addr ≠ R.PWR_STATE) : t.fld f = s.fld f := fld_of_reg (hreg _ hf)
  have hhead (h : Nat) : t.fld (F.HEAD_STATUS_STATE h) = s.fld (F.HEAD_STATUS_STATE h) :=
    hfld _ (by simp only [F.HEAD_STATUS_STATE, R.HEAD_STATUS, R.PWR_STATE]; omega)
  simp only [State.mayLeaveRun, State.bit, h.pwr_eq, hhead, hfld F.TICK_STATUS_RUNNING (by decide), hfld F.PWR_STATUS_DVFS_BUSY (by decide),
    hfld F.DDR_FC_STAT_BUSY (by decide), hfld F.DDR_GCTL_READY (by decide), hfld (F.DDR_STATUS_POINT 0) (by decide)]

/-- A channel refreshes itself. -/
def State.selfRefreshCh (s : State) (c : Nat) : State := s.setFld (F.DDR_STATUS_STATE c) 4

/-- The channels refresh themselves, and the usable memory is none (R511). -/
def State.selfRefreshed (s : State) : State :=
  (List.range 8).foldl State.selfRefreshCh (s.setFlds [(F.DDR_GCTL_READY, 0), (F.DDR_TOP_GIB, 0)])

/-- The state in which a master's write of GO to PWR_STATE is judged. -/
def State.goTaken (s : State) (w : Nat) : State := (s.written R.PWR_STATE w).setFld F.PWR_STATE_GO 0

theorem goTaken_regsTo (s : State) (w : Nat) : s.RegsTo (s.goTaken w) := (written_regsTo s _ w).trans (State.RegsTo.setFld _ _ _)

theorem reg_goTaken {o w : Nat} (h : o ≠ R.PWR_STATE) : (s.goTaken w).reg o = s.reg o := by
  rw [State.goTaken, reg_setFld_ne _ _ h, reg_written_ne _ h]

theorem selfRefreshed_regsTo (s : State) : s.RegsTo s.selfRefreshed :=
  List.foldlRecOn (motive := s.RegsTo) _ _ (State.RegsTo.setFlds s _) (fun _ hu _ _ => hu.trans (State.RegsTo.setFld _ _ _))

theorem pwrStateWrite_freeWrite : State.pwrStateWrite (freeWrite s R.PWR_STATE w.toNat) =
    if w.getLsbD 31 = false then s.written R.PWR_STATE w.toNat
    else if ¬(s.WallStill ∧ (bits w.toNat 1 0 = 2 ∨ (bits w.toNat 1 0 = 1 ∧ s.MemCold))) then (s.goTaken w.toNat).orFld F.PWR_ERR_ERR 0x20
    else if bits w.toNat 1 0 = 1 then { (s.goTaken w.toNat).selfRefreshed with pwr := { s.pwr with phase := .retain, vid := 3 } }
    else { s.goTaken w.toNat with pwr := { s.pwr with phase := .deep, railEn := false } } := by
  have hgo : (freeWrite s R.PWR_STATE w.toNat).one F.PWR_STATE_GO = w.getLsbD 31 := freeWrite_one_bit s _ w ⟨rfl, rfl, by decide⟩
  have hgoal : (freeWrite s R.PWR_STATE w.toNat).get F.PWR_STATE_TARGET = bits w.toNat 1 0 := freeWrite_get s _ _ _ ⟨by decide, by decide⟩
  have hleave := mayLeaveRun_congr (goTaken_regsTo s w.toNat) (fun _ => reg_goTaken) (bits w.toNat 1 0)
  have hpwr := (goTaken_regsTo s w.toNat).pwr_eq
  have hpwr' := ((goTaken_regsTo s w.toNat).trans (selfRefreshed_regsTo _)).pwr_eq
  have hfold (u : State) : (List.range 8).foldl (fun s c => s.setFld (F.DDR_STATUS_STATE c) 4) u = (List.range 8).foldl State.selfRefreshCh u := rfl
  unfold State.pwrStateWrite
  dsimp only
  rw [freeWrite_plain_eq, hgo, hgoal, setBit_false, ← State.goTaken, hleave, hfold, ← State.selfRefreshed, hpwr, hpwr']
  by_cases h31 : w.getLsbD 31 = false
  · rw [if_pos (by rw [h31]; rfl), if_pos h31]
  rw [if_neg (by simpa using h31), if_neg h31]
  by_cases hok : s.WallStill ∧ (bits w.toNat 1 0 = 2 ∨ (bits w.toNat 1 0 = 1 ∧ s.MemCold))
  · rw [if_neg (mt (leave_refused_iff s _).mp (not_not.mpr hok)), if_neg (not_not.mpr hok)]
    simp only [beq_iff_eq]
  · rw [if_pos ((leave_refused_iff s _).mpr hok), if_pos hok]

theorem exec_stateWrite (hr : s.pwr.phase = .run) (h : s.MayWrite m R.PWR_STATE) {i : Instr} (hi : i ∈ [Instr.retainEnter m w, .deepEnter m w]) :
    exec i s = .next (State.pwrStateWrite (freeWrite s R.PWR_STATE w.toNat)).taken := by
  simp only [List.mem_cons, List.not_mem_nil, or_false] at hi
  rcases hi with rfl | rfl
  · exact congrArg Host.Outcome.next (runReg_mayWrite hr h _ _)
  · exact congrArg Host.Outcome.next (runReg_mayWrite hr h _ _)

/-! Registers written one after the other, one of each channel. -/

section Channels
variable {f : State → Nat → State} {r : Nat → Nat} (hf : ∀ s c o, o ≠ r c → (f s c).reg o = s.reg o)
include hf

/-- Other registers stay. -/
theorem reg_foldl_of_ne {o : Nat} (l : List Nat) (ho : ∀ c ∈ l, o ≠ r c) (s : State) : (l.foldl f s).reg o = s.reg o :=
  List.foldlRecOn (motive := fun u => u.reg o = s.reg o) _ _ rfl (fun u hu c hc => (hf u c o (ho c hc)).trans hu)

/-- What each write establishes of its register stands at the end. -/
theorem reg_foldl_of_mem {P : Word → Prop} (hP : ∀ s c, P ((f s c).reg (r c))) {c : Nat} (s : State) (l : List Nat) :
    c ∈ l → P ((l.foldl f s).reg (r c)) := by
  induction l using List.reverseRecOn with
  | nil => simp
  | append_singleton l a ih =>
    intro hc
    rw [List.foldl_append, List.foldl_cons, List.foldl_nil]
    by_cases hca : r c = r a
    · rw [hca]
      exact hP _ a
    · rw [hf _ a _ hca]
      refine ih ((List.mem_append.mp hc).resolve_right ?_)
      rintro h
      exact hca (congrArg r (List.mem_singleton.mp h))

end Channels

/-! What RETAIN leaves in the controller. -/

/-- The channels' status registers lie apart from those that RETAIN's end and entry write beside them. -/
theorem ddrStatus_ne (c : Nat) : R.DDR_STATUS c ≠ R.DDR_GCTL ∧ R.DDR_STATUS c ≠ R.DDR_TOP ∧ R.DDR_STATUS c ≠ R.PWR_DDR_RESUME := by
  simp only [R.DDR_STATUS, R.DDR_GCTL, R.DDR_TOP, R.PWR_DDR_RESUME]
  omega

theorem reg_selfRefreshCh (s : State) (c o : Nat) (h : o ≠ R.DDR_STATUS c) : (s.selfRefreshCh c).reg o = s.reg o := reg_setFld_ne s 4 h

/-- A status register of a channel that refreshes itself. -/
abbrev SelfRefreshes (x : Word) : Prop := bits x.toNat 10 8 = 4

theorem selfRefreshes_selfRefreshCh (s : State) (c : Nat) : SelfRefreshes ((s.selfRefreshCh c).reg (R.DDR_STATUS c)) :=
  fld_setFld_fits (f := F.DDR_STATUS_STATE c) (by simp [F.DDR_STATUS_STATE]) (by simp [F.DDR_STATUS_STATE])

theorem reg_selfRefreshed {o : Nat} (h : ∀ c < 8, o ≠ R.DDR_STATUS c) :
    s.selfRefreshed.reg o = (s.setFlds [(F.DDR_GCTL_READY, 0), (F.DDR_TOP_GIB, 0)]).reg o :=
  reg_foldl_of_ne reg_selfRefreshCh _ (fun c hc => h c (List.mem_range.mp hc)) _

theorem selfRefreshed_ready : s.selfRefreshed.fld F.DDR_GCTL_READY = 0 := by
  rw [fld_of_reg (reg_selfRefreshed fun c _ => (ddrStatus_ne c).1.symm), State.setFlds, List.foldl_cons, List.foldl_cons, List.foldl_nil,
    fld_setFld_sep (by decide)]
  exact fld_setFld_fits (by decide) (by decide)

theorem selfRefreshed_top : s.selfRefreshed.fld F.DDR_TOP_GIB = 0 := by
  rw [fld_of_reg (reg_selfRefreshed fun c _ => (ddrStatus_ne c).2.1.symm)]
  exact fld_setFld_fits (by decide) (by decide)

theorem selfRefreshed_state {c : Nat} (hc : c < 8) : s.selfRefreshed.fld (F.DDR_STATUS_STATE c) = 4 := by
  have h : SelfRefreshes (s.selfRefreshed.reg (R.DDR_STATUS c)) :=
    reg_foldl_of_mem (P := SelfRefreshes) reg_selfRefreshCh selfRefreshes_selfRefreshCh _ _ (List.mem_range.mpr hc)
  exact h

theorem sameRegs_selfRefreshed {o : Nat} (h : o ∉ [R.DDR_GCTL, R.DDR_TOP] ++ (List.range 8).map R.DDR_STATUS) :
    s.selfRefreshed.reg o = s.reg o := by
  simp only [List.mem_append, List.mem_cons, List.not_mem_nil, or_false, List.mem_map, List.mem_range, not_or, not_exists, not_and] at h
  obtain ⟨⟨hg, ht⟩, hc⟩ := h
  rw [reg_selfRefreshed fun c hc' => (hc c hc').imp Eq.symm, reg_setFlds_ne]
  simp only [List.forall_mem_cons, List.not_mem_nil, false_imp_iff, implies_true, and_true]
  exact ⟨hg, ht⟩

/-! ### DRAM resumes (R513) -/

/-- A channel leaves self-refresh at P3, and its refreshes go on. -/
def State.resumeCh (s : State) (c : Nat) : State := (s.setFlds [(F.DDR_STATUS_STATE c, 3), (F.DDR_STATUS_POINT c, 3)]).phaseRefresh c

/-- Every channel has left self-refresh. -/
def State.resumedChs (s : State) : State := (List.range 8).foldl State.resumeCh s

/-- The memory is usable again. -/
def State.resumed (s : State) : State :=
  s.resumedChs.setFlds [(F.DDR_GCTL_READY, 1), (F.DDR_TOP_GIB, usableGib (s.resumedChs.fld (F.DDR_CFG_DENSITY 0))), (F.PWR_DDR_RESUME_DONE, 1)]

/-- The state in which a write of GO to PWR_DDR_RESUME acts. -/
def State.resumeTaken (s : State) (w : Nat) : State := (s.written R.PWR_DDR_RESUME w).setFld F.PWR_DDR_RESUME_GO 0

theorem resumeTaken_regsTo (s : State) (w : Nat) : s.RegsTo (s.resumeTaken w) := (written_regsTo s _ w).trans (State.RegsTo.setFld _ _ _)

/-- `t` is `s` with other registers and refreshes. -/
def State.ResumesTo (s t : State) : Prop := t = { s with regs := t.regs, ddr := t.ddr }

theorem State.ResumesTo.trans {u : State} (h : s.ResumesTo t) (k : t.ResumesTo u) : s.ResumesTo u := by
  unfold State.ResumesTo at *
  exact k.trans (by rw [h])

theorem State.RegsTo.resumes (h : s.RegsTo t) : s.ResumesTo t := by
  unfold State.RegsTo at h
  unfold State.ResumesTo
  rw [h]

theorem State.ResumesTo.pwr_eq (h : s.ResumesTo t) : t.pwr = s.pwr := by rw [h]

theorem phaseRefresh_resumesTo (s : State) (c : Nat) : s.ResumesTo (s.phaseRefresh c) := rfl
theorem reg_phaseRefresh (s : State) (c o : Nat) : (s.phaseRefresh c).reg o = s.reg o := rfl

theorem resumedChs_resumesTo (s : State) : s.ResumesTo s.resumedChs :=
  List.foldlRecOn (motive := s.ResumesTo) _ _ (State.RegsTo.refl s).resumes
    (fun _ hu c _ => hu.trans ((State.RegsTo.setFlds _ _).resumes.trans (phaseRefresh_resumesTo _ c)))

theorem resumed_resumesTo (s : State) : s.ResumesTo s.resumed := (resumedChs_resumesTo s).trans (State.RegsTo.setFlds _ _).resumes

theorem ddrResume_freeWrite : State.ddrResume (freeWrite s R.PWR_DDR_RESUME w.toNat) =
    if w.getLsbD 0 = false then s.written R.PWR_DDR_RESUME w.toNat
    else if s.pwr.woke = false then s.resumeTaken w.toNat
    else { (s.resumeTaken w.toNat).resumed with pwr := { s.pwr with woke := false } } := by
  have hgo : (freeWrite s R.PWR_DDR_RESUME w.toNat).one F.PWR_DDR_RESUME_GO = w.getLsbD 0 := freeWrite_one_bit s _ w ⟨rfl, rfl, by decide⟩
  have hpwr := (resumeTaken_regsTo s w.toNat).pwr_eq
  have hpwr' := ((resumeTaken_regsTo s w.toNat).resumes.trans (resumed_resumesTo _)).pwr_eq
  have hfold (u : State) : (List.range 8).foldl (fun s c => (s.setFlds [(F.DDR_STATUS_STATE c, 3), (F.DDR_STATUS_POINT c, 3)]).phaseRefresh c) u =
      u.resumedChs := rfl
  unfold State.ddrResume
  dsimp only
  rw [freeWrite_plain_eq, hgo, setBit_false, ← State.resumeTaken, hfold, ← State.resumed, hpwr, hpwr']
  by_cases h0 : w.getLsbD 0 = false
  · rw [if_pos (by rw [h0]; rfl), if_pos h0]
  rw [if_neg (by simpa using h0), if_neg h0]
  by_cases hw : s.pwr.woke = false
  · rw [if_pos (by rw [hw]; rfl), if_pos hw]
  · rw [if_neg (by simpa using hw), if_neg hw]

theorem exec_pwrDdrResume (hr : s.pwr.phase = .run) (h : s.MayWrite m R.PWR_DDR_RESUME) :
    exec (.pwrDdrResume m w) s = .next (State.ddrResume (freeWrite s R.PWR_DDR_RESUME w.toNat)).taken :=
  congrArg Host.Outcome.next (runReg_mayWrite hr h _ _)

/-! What the resumption leaves in the registers. -/

theorem reg_resumeCh (s : State) (c o : Nat) (h : o ≠ R.DDR_STATUS c) : (s.resumeCh c).reg o = s.reg o := by
  rw [State.resumeCh, reg_phaseRefresh, reg_setFlds_ne]
  simp only [List.forall_mem_cons, List.not_mem_nil, false_imp_iff, implies_true, and_true]
  exact ⟨h, h⟩

/-- A status register of a channel at P3 that is in use. -/
abbrev AtP3 (x : Word) : Prop := bits x.toNat 10 8 = 3 ∧ bits x.toNat 1 0 = 3

theorem atP3_resumeCh (s : State) (c : Nat) : AtP3 ((s.resumeCh c).reg (R.DDR_STATUS c)) := by
  have hstate : ((s.setFld (F.DDR_STATUS_STATE c) 3).setFld (F.DDR_STATUS_POINT c) 3).fld (F.DDR_STATUS_STATE c) = 3 := by
    rw [fld_setFld_sep (by simp [F.DDR_STATUS_STATE, F.DDR_STATUS_POINT])]
    exact fld_setFld_fits (by simp [F.DDR_STATUS_STATE]) (by simp [F.DDR_STATUS_STATE])
  have hpoint : ((s.setFld (F.DDR_STATUS_STATE c) 3).setFld (F.DDR_STATUS_POINT c) 3).fld (F.DDR_STATUS_POINT c) = 3 :=
    fld_setFld_fits (by simp [F.DDR_STATUS_POINT]) (by simp [F.DDR_STATUS_POINT])
  rw [State.resumeCh, reg_phaseRefresh]
  exact ⟨hstate, hpoint⟩

theorem reg_resumedChs {o : Nat} (h : ∀ c, o ≠ R.DDR_STATUS c) : s.resumedChs.reg o = s.reg o :=
  reg_foldl_of_ne reg_resumeCh _ (fun c _ => h c) s

theorem atP3_resumed {c : Nat} (hc : c < 8) : s.resumed.fld (F.DDR_STATUS_STATE c) = 3 ∧ s.resumed.fld (F.DDR_STATUS_POINT c) = 3 := by
  obtain ⟨hg, ht, hp⟩ := ddrStatus_ne c
  have hreg : s.resumed.reg (R.DDR_STATUS c) = s.resumedChs.reg (R.DDR_STATUS c) := by
    rw [State.resumed, reg_setFlds_ne]
    simp only [List.forall_mem_cons, List.not_mem_nil, false_imp_iff, implies_true, and_true]
    exact ⟨hg, ht, hp⟩
  have h : AtP3 (s.resumed.reg (R.DDR_STATUS c)) := by
    rw [hreg]
    exact reg_foldl_of_mem (P := AtP3) reg_resumeCh atP3_resumeCh s _ (List.mem_range.mpr hc)
  exact h

theorem usableGib_lt (d : Nat) : usableGib d < 2 ^ 8 := by
  unfold usableGib
  split
  · decide
  · split <;> decide

theorem resumed_flags (s : State) : s.resumed.fld F.DDR_GCTL_READY = 1 ∧ s.resumed.fld F.DDR_TOP_GIB = usableGib (s.fld (F.DDR_CFG_DENSITY 0)) ∧
    s.resumed.fld F.PWR_DDR_RESUME_DONE = 1 ∧ s.resumed.fld F.PWR_DDR_RESUME_GO = s.fld F.PWR_DDR_RESUME_GO := by
  have hchs {f : Fld} (h : ∀ c, f.addr ≠ R.DDR_STATUS c) : s.resumedChs.fld f = s.fld f := fld_of_reg (reg_resumedChs h)
  have hcfg : s.resumedChs.fld (F.DDR_CFG_DENSITY 0) = s.fld (F.DDR_CFG_DENSITY 0) :=
    hchs fun c => by simp only [F.DDR_CFG_DENSITY, R.DDR_CFG, R.DDR_STATUS]; omega
  simp (disch := decide) only [State.resumed, hcfg, State.setFlds, List.foldl_cons, List.foldl_nil, fld_setFld_sep]
  exact ⟨fld_setFld_fits (by decide) (by decide), fld_setFld_fits (by decide) (usableGib_lt _), fld_setFld_fits (by decide) (by decide),
    hchs fun c => (ddrStatus_ne c).2.2.symm⟩

/-! ### The KEEP block (R522, R526) -/

theorem keepKick_freeWrite : State.keepKick (freeWrite s R.KEEP_WDOG_KICK w.toNat) =
    { s with pwr := { s.pwr with kwLoad := if w.getLsbD 0 then s.time.clk else s.pwr.kwLoad } } := by
  have hkick : (freeWrite s R.KEEP_WDOG_KICK w.toNat).one F.KEEP_WDOG_KICK_KICK = w.getLsbD 0 := freeWrite_one_bit s _ w ⟨rfl, rfl, by decide⟩
  rw [State.keepKick, hkick]
  cases w.getLsbD 0 <;> rfl

theorem exec_keepWdogKick (hr : s.pwr.phase = .run) (h : s.MayWrite m R.KEEP_WDOG_KICK) :
    exec (.keepWdogKick m w) s = .next (State.keepKick (freeWrite s R.KEEP_WDOG_KICK w.toNat)).taken :=
  congrArg Host.Outcome.next (runReg_mayWrite hr h _ _)

theorem fuseBurn_freeWrite : State.fuseBurn (freeWrite s R.KEEP_FUSE_BURN w.toNat) =
    if w.getLsbD 0 = false then s
    else if s.pwr.fuses < s.fld F.KEEP_BOOT_VER_VERSION ∧ s.pwr.fuses < 32 then { s with pwr := { s.pwr with fuses := s.pwr.fuses + 1 } }
    else s.orFld F.KEEP_ERR_ERR 2 := by
  have hburn : (freeWrite s R.KEEP_FUSE_BURN w.toNat).one F.KEEP_FUSE_BURN_BURN = w.getLsbD 0 := freeWrite_one_bit s _ w ⟨rfl, rfl, by decide⟩
  unfold State.fuseBurn
  dsimp only
  rw [hburn, freeWrite_st]
  by_cases h0 : w.getLsbD 0 = false
  · rw [if_pos (by rw [h0]; rfl), if_pos h0]
  rw [if_neg (by simpa using h0), if_neg h0]
  simp only [Bool.and_eq_true, decide_eq_true_eq]

theorem exec_keepFuseBurn (hr : s.pwr.phase = .run) (h : s.MayWrite m R.KEEP_FUSE_BURN) :
    exec (.keepFuseBurn m w) s = .next (State.fuseBurn (freeWrite s R.KEEP_FUSE_BURN w.toNat)).taken :=
  congrArg Host.Outcome.next (runReg_mayWrite hr h _ _)

/-! The release of the application cores. -/

/-- The cores may be released: the freshness policy is locked and memory is in use. -/
abbrev State.MayRelease (s : State) : Prop := s.bit F.FG_LOCK_LOCK = true ∧ s.bit F.DDR_GCTL_READY = true

/-- The address at which application cores start. -/
def State.appEntry (s : State) : DWord := BitVec.ofNat 64 (s.fld F.KEEP_APP_ENTRY_LO_ADDR * 4 + s.fld F.KEEP_APP_ENTRY_HI_ADDR * 2 ^ 32)

/-- Core `c`, if `set` names it and it is held, starts at `entry`. -/
def State.releaseCore (set : Nat) (entry : DWord) (s : State) (c : Nat) : State :=
  if set / 2 ^ c % 2 == 1 && decide ((s.core c).run = .held) then
    s.setCore c { s.core c with run := .running, pc := entry, wdLoad := s.time.clk }
  else s

/-- `t` is `s` with other cores. -/
def State.CoresTo (s t : State) : Prop := t = { s with cores := t.cores }

theorem State.CoresTo.trans {u : State} (h : s.CoresTo t) (k : t.CoresTo u) : s.CoresTo u := by
  unfold State.CoresTo at *
  exact k.trans (by rw [h])

theorem releaseCore_coresTo (set : Nat) (entry : DWord) (s : State) (c : Nat) : s.CoresTo (s.releaseCore set entry c) := by
  unfold State.releaseCore
  split <;> rfl

theorem releaseCores_coresTo (set n : Nat) (entry : DWord) (s : State) : s.CoresTo ((List.range n).foldl (State.releaseCore set entry) s) :=
  List.foldlRecOn (motive := s.CoresTo) _ _ rfl (fun u hu c _ => hu.trans (releaseCore_coresTo set entry u c))

/-- The cores after the release: each of the first `n` that is named and held has started. -/
theorem core_releaseCores (set : Nat) (entry : DWord) (s : State) (n c : Nat) : ((List.range n).foldl (State.releaseCore set entry) s).core c =
    if c < n ∧ set.testBit c = true ∧ (s.core c).run = .held then { s.core c with run := .running, pc := entry, wdLoad := s.time.clk }
    else s.core c := by
  induction n with
  | zero => simp
  | succ n ih =>
    have hclk : ((List.range n).foldl (State.releaseCore set entry) s).time = s.time := by rw [releaseCores_coresTo]
    rw [List.range_succ, List.foldl_append, List.foldl_cons, List.foldl_nil]
    generalize (List.range n).foldl (State.releaseCore set entry) s = u at *
    by_cases hc : c = n
    · subst hc
      rw [if_neg (fun h => Nat.lt_irrefl _ h.1)] at ih
      rw [State.releaseCore, ih, hclk]
      by_cases hs : set.testBit c = true ∧ (s.core c).run = .held
      · rw [if_pos (by simpa [Nat.testBit_eq_decide_div_mod_eq] using hs), if_pos ⟨Nat.lt_succ_self c, hs⟩, core_setCore_same]
      · rw [if_neg (by simpa [Nat.testBit_eq_decide_div_mod_eq] using hs), if_neg (fun h => hs h.2), ih]
    · have hstep : (u.releaseCore set entry n).core c = u.core c := by
        unfold State.releaseCore
        split
        · exact core_setCore_ne u _ hc
        · rfl
      have hlt : c < n + 1 ↔ c < n := by omega
      rw [hstep, ih]
      simp only [hlt]

theorem appRelease_freeWrite : State.appRelease (freeWrite s R.KEEP_APP_RELEASE w.toNat) =
    if bits w.toNat 7 0 = 0 then s
    else if ¬s.MayRelease then s.orFld F.KEEP_ERR_ERR 1
    else (List.range 8).foldl (State.releaseCore (bits w.toNat 7 0) s.appEntry) (s.written R.KEEP_APP_RELEASE w.toNat) := by
  have hset : (freeWrite s R.KEEP_APP_RELEASE w.toNat).w &&& (freeWrite s R.KEEP_APP_RELEASE w.toNat).mask &&& 0xFF = bits w.toNat 7 0 := by
    show w.toNat % 2 ^ 32 &&& (2 ^ 32 - 1) &&& (2 ^ 8 - 1) = _
    rw [Nat.and_two_pow_sub_one_eq_mod, Nat.and_two_pow_sub_one_eq_mod, Nat.mod_mod, Nat.mod_eq_of_lt w.isLt, bits, Nat.pow_zero, Nat.div_one]
  have hentry : BitVec.ofNat 64 ((s.written R.KEEP_APP_RELEASE w.toNat).fld F.KEEP_APP_ENTRY_LO_ADDR * 4 +
      (s.written R.KEEP_APP_RELEASE w.toNat).fld F.KEEP_APP_ENTRY_HI_ADDR * 2 ^ 32) = s.appEntry := by
    rw [fld_written_ne _ _ (by decide), fld_written_ne _ _ (by decide), State.appEntry]
  have hfold (set : Nat) (entry : DWord) (u : State) : (List.range 8).foldl (fun s c =>
      if set / 2 ^ c % 2 == 1 && decide ((s.core c).run = .held) then
        s.setCore c { s.core c with run := .running, pc := entry, wdLoad := s.time.clk }
      else s) u = (List.range 8).foldl (State.releaseCore set entry) u := rfl
  unfold State.appRelease
  dsimp only
  rw [hset, freeWrite_st, freeWrite_plain_eq, hentry, hfold]
  by_cases h0 : bits w.toNat 7 0 = 0
  · rw [if_pos h0, if_pos h0]
  rw [if_neg h0, if_neg h0]
  by_cases hok : s.MayRelease
  · rw [if_neg (by simpa using hok), if_neg (not_not.mpr hok)]
  · rw [if_pos (by rwa [Bool.not_eq_true', ← Bool.not_eq_true, Bool.and_eq_true]), if_pos hok]

theorem exec_keepAppRelease (hr : s.pwr.phase = .run) (h : s.MayWrite m R.KEEP_APP_RELEASE) :
    exec (.keepAppRelease m w) s = .next (State.appRelease (freeWrite s R.KEEP_APP_RELEASE w.toNat)).taken :=
  congrArg Host.Outcome.next (runReg_mayWrite hr h _ _)

/-! ### What the commands leave, the power state and the answer written last -/

section Answered
variable {u : State} {p : PwrSt}

theorem taken_withPwr_pwr : (State.taken { u with pwr := p }).pwr = p := rfl
theorem taken_withPwr_fld (f : Fld) : (State.taken { u with pwr := p }).fld f = u.fld f := rfl
theorem taken_withPwr_reg (o : Nat) : (State.taken { u with pwr := p }).reg o = u.reg o := rfl

theorem State.RegsTo.frame_taken (hu : s.RegsTo u) (ht : t = State.taken { u with pwr := p }) :
    t = { s with regs := t.regs, pwr := t.pwr, resp := .ok } := by
  unfold State.RegsTo at hu
  rw [ht, hu, State.taken]

theorem State.ResumesTo.frame_taken (hu : s.ResumesTo u) (ht : t = State.taken { u with pwr := p }) :
    t = { s with regs := t.regs, pwr := t.pwr, ddr := t.ddr, resp := .ok } := by
  unfold State.ResumesTo at hu
  rw [ht, hu, State.taken]

theorem State.RegsTo.lreg_taken (hu : s.RegsTo u) (o : Nat) : (State.taken { u with pwr := p }).lreg o = s.lreg o := by
  rw [hu]
  rfl

theorem State.CoresTo.regs_taken (hu : u.CoresTo t) : t.taken.regs = u.regs := by
  rw [hu]
  rfl

theorem State.CoresTo.frame_taken (hu : s.RegsTo u) (ht : u.CoresTo t) {v : State} (hv : v = t.taken) :
    v = { s with regs := v.regs, cores := v.cores, resp := .ok } := by
  unfold State.RegsTo at hu
  unfold State.CoresTo at ht
  rw [hv, ht, hu, State.taken]

end Answered

/-- RETAIN's entry writes PWR_STATE and the memory's registers. -/
theorem sameRegs_retained {p : PwrSt} (s : State) (w : Nat) : s.SameRegsBut (State.taken { (s.goTaken w).selfRefreshed with pwr := p })
    ([R.PWR_STATE, R.DDR_GCTL, R.DDR_TOP] ++ (List.range 8).map R.DDR_STATUS) := by
  intro o ho
  rw [List.cons_append, List.mem_cons, not_or] at ho
  obtain ⟨hst, hrest⟩ := ho
  exact ⟨by rw [taken_withPwr_reg, sameRegs_selfRefreshed hrest, reg_goTaken hst],
    ((goTaken_regsTo s w).trans (selfRefreshed_regsTo _)).lreg_taken o⟩

/-- GO reads 0 once the resumption has acted. -/
theorem resumeTaken_go (w : Nat) : (s.resumeTaken w).fld F.PWR_DDR_RESUME_GO = 0 := fld_setFld_fits (by decide) (by decide)

theorem resumeTaken_density (w : Nat) : (s.resumeTaken w).fld (F.DDR_CFG_DENSITY 0) = s.fld (F.DDR_CFG_DENSITY 0) := by
  rw [State.resumeTaken, fld_setFld_sep (by decide), fld_written_ne _ _ (by decide)]

/-- The cores that the release's word names and that are held start. -/
theorem core_appRelease (s : State) (w : Word) (entry : DWord) (c : Nat) :
    ((List.range 8).foldl (State.releaseCore (bits w.toNat 7 0) entry) (s.written R.KEEP_APP_RELEASE w.toNat)).core c =
      if c < 8 ∧ w.getLsbD c = true ∧ (s.core c).run = .held then { s.core c with run := .running, pc := entry, wdLoad := s.time.clk }
      else s.core c := by
  have hcore (u : State) (h : s.RegsTo u) : u.core c = s.core c ∧ u.time = s.time := by
    rw [h]
    exact ⟨rfl, rfl⟩
  obtain ⟨hc, ht⟩ := hcore _ (written_regsTo s R.KEEP_APP_RELEASE w.toNat)
  rw [core_releaseCores, hc, ht, bits_testBit, BitVec.testBit_toNat, Nat.zero_add]
  by_cases hlt : c < 8
  · simp [hlt]
  · rw [if_neg (fun h => hlt h.1), if_neg (fun h => hlt h.1)]

end Sys2Proof.Machine
end

section
/-!
PROOFS. RETAIN_WAKE (R512, R515, R516, R521): what retention keeps, what the wake writes, and the warm path.
-/
namespace Sys2Proof.Machine

variable {s t : State} {src : Fin 3} {role : BitVec 2}

/-! ### What retention keeps -/

theorem Tbl.get_filter {α : Type} (d : Nat → α) (p : Nat → Bool) (t : Tbl α) (k : Nat) :
    Tbl.get d (t.filter (fun e => p e.1)) k = if p k then Tbl.get d t k else d k := by
  induction t with
  | nil => simp [Tbl.get]
  | cons e t ih =>
    obtain ⟨a, v⟩ := e
    by_cases hp : p a
    · by_cases hk : a = k
      · subst hk; simp [hp, Tbl.get]
      · simp [hp, Tbl.get, hk, ih]
    · by_cases hk : a = k
      · subst hk; simp [hp, ih]
      · simp [hp, Tbl.get, hk, ih]

/-- A byte in retention (R515): DRAM, the keeper island and the Logbook. -/
def retainedByte (a : Nat) : Bool := decide (a < 0x1000000000) || (0x4100000000 ≤ a && a < 0x4300000000)

/-- What stands of the machine when power returns: what is in retention, and the reset value of the rest. -/
def State.kept (s : State) : State :=
  { regs := s.regs.filter (fun e => retained e.1)
    live := s.live.filter (fun e => retained e.1)
    mem := s.mem.filter (fun e => retainedByte e.1)
    chk := s.chk.filter (fun e => retainedByte e.1)
    flash := s.flash
    time := { clk := s.time.clk, ppsLevel := s.time.ppsLevel }
    log := s.log
    pwr := { s.pwr with phase := .run, vid := 3, clkPoint := 3, dvfsTo := 3, woke := true, xop := none,
                        kwLoad := s.time.clk, vSlot := none, released := s.time.clk }
    gpio := s.gpio
    tap := s.tap
    resp := s.resp
    pending := s.pending }

theorem reg_kept (s : State) (o : Nat) : s.kept.reg o = if retained o then s.reg o else rstOf o := Tbl.get_filter ..
theorem byte_kept (s : State) (a : Nat) : s.kept.byte a = if retainedByte a then s.byte a else 0 := Tbl.get_filter ..

/-! ### What the wake writes -/

/-- The registers of the wake: DVFS at D3, its cause, and the cause of the reset. -/
def State.wakeRegs (s : State) (src : Fin 3) : State :=
  (s.setFlds [(F.PWR_DVFS_CURRENT, 3), (F.PWR_DVFS_TARGET, 3), (F.PWR_WAKE_CAUSE, src.val + 1)]).setReg R.KEEP_CAUSE
    (BitVec.ofNat 32 (causeWord 4 1 0))

/-- The device has woken, and the Keeper is about to start. -/
def State.wokenUp (s : State) (src : Fin 3) (pins : Nat) : State :=
  ((s.kept.wakeRegs src).samplePins pins s.pwr.pairSel false).resetRec 4 0 (causeWord 4 1 0)

/-- The pins that a wake samples. -/
def State.wakePins (s : State) (src : Fin 3) (role : BitVec 2) : Nat := if src = 2 then role.toNat else s.pwr.rolePins

/-- The wake sources that end RETAIN (R512). -/
abbrev State.Wakes (s : State) (src : Fin 3) (role : BitVec 2) : Prop :=
  s.pwr.phase = .retain ∧ s.bitAt F.PWR_WAKE_EN src = true ∧ (src = 2 → s.wakePins src role ≠ 3 ∧ s.wakePins src role ≠ 0) ∧
    (src = 1 → s.fld F.PWR_WAKE_TIMER_SEC ≠ 0)

/-- The cases in which RETAIN_WAKE does nothing. -/
theorem stays_iff : (decide (s.pwr.phase ≠ .retain) || !s.bitAt F.PWR_WAKE_EN src.val ||
    (decide (src.val = 2) && (s.wakePins src role == 3 || s.wakePins src role == 0)) ||
    (decide (src.val = 1) && s.fld F.PWR_WAKE_TIMER_SEC == 0)) = true ↔ ¬ s.Wakes src role := by
  have hsrc2 : src.val = 2 ↔ src = 2 := by omega
  have hsrc1 : src.val = 1 ↔ src = 1 := by omega
  simp only [State.Wakes, Bool.or_eq_true, Bool.and_eq_true, decide_eq_true_eq, Bool.not_eq_true', beq_iff_eq, hsrc2, hsrc1,
    ← Bool.not_eq_true (s.bitAt _ _)]
  tauto

/-! ### The pins sampled at a wake (R20, R507) -/

theorem withTouch_reg (s : State) (x : TouchSt) (o : Nat) : ({ s with touch := x } : State).reg o = s.reg o := rfl
theorem withPwrTime_reg (s : State) (p : PwrSt) (x : TimeSt) (o : Nat) : ({ s with pwr := p, time := x } : State).reg o = s.reg o := rfl
theorem fld_setReg_ne {f : Fld} {o : Nat} (s : State) (v : Word) (h : f.addr ≠ o) : (s.setReg o v).fld f = s.fld f :=
  fld_of_reg (reg_setReg_ne s v h)

section Pins
variable (s : State) (pins : Nat) (pair : Bool)

theorem samplePins_pwr : (s.samplePins pins pair false).pwr = { s.pwr with rolePins := pins, pairSel := pair } := by
  simp only [State.samplePins, Bool.false_eq_true, if_false, setFlds_pwr, setReg_pwr]

theorem samplePins_time : (s.samplePins pins pair false).time = { s.time with ppsSince := 2 * s.time.clk } := by
  simp only [State.samplePins, Bool.false_eq_true, if_false, setFlds_time, setReg_time]

theorem samplePins_gpio : (s.samplePins pins pair false).gpio = s.gpio := by
  simp only [State.samplePins, Bool.false_eq_true, if_false, setFlds_gpio, setReg_gpio]

theorem samplePins_mem : (s.samplePins pins pair false).mem = s.mem := by
  simp only [State.samplePins, Bool.false_eq_true, if_false, setFlds_mem, setReg_mem]

/-- Outside the status of the pair and of desk sensing, sampling writes MGMT_GPIO_IN alone. -/
theorem reg_samplePins {o : Nat} (hst : o ≠ R.STEP_STATUS) (ht : o ≠ R.TOUCH_STATUS) :
    (s.samplePins pins pair false).reg o = if o = R.MGMT_GPIO_IN then s.gpio else s.reg o := by
  simp only [State.samplePins, Bool.false_eq_true, if_false]
  rw [reg_setFlds_ne, withTouch_reg, reg_setReg, withPwrTime_reg]
  simp only [List.forall_mem_cons, List.not_mem_nil, false_imp_iff, implies_true, and_true]
  exact ⟨hst, hst, hst, ht⟩

theorem samplePins_pins : (s.samplePins pins pair false).fld F.STEP_STATUS_PINS = pins % 4 := by
  simp (disch := decide) only [State.samplePins, State.setFlds, List.foldl_cons, List.foldl_nil, fld_setFld_sep]
  exact fld_setFld_same _ F.STEP_STATUS_PINS pins ⟨by decide, by decide⟩

end Pins

/-! ### The state in which the Keeper starts -/

section Woken
variable (s : State) (src : Fin 3) (pins : Nat)

theorem wakeRegs_regsTo : s.RegsTo (s.wakeRegs src) := (State.RegsTo.setFlds s _).trans (State.RegsTo.setReg _ _ _)

theorem wokenUp_recordsTo : ((s.kept.wakeRegs src).samplePins pins s.pwr.pairSel false).RecordsTo (s.wokenUp src pins) := .logHw _ _ _ _ _

theorem wokenUp_pwr : (s.wokenUp src pins).pwr = { s.kept.pwr with rolePins := pins, pairSel := s.pwr.pairSel } := by
  rw [(wokenUp_recordsTo s src pins).pwr, samplePins_pwr, (wakeRegs_regsTo s.kept src).pwr_eq]

theorem wokenUp_now : (s.wokenUp src pins).time.now = 0 := by
  rw [(wokenUp_recordsTo s src pins).time, samplePins_time, wakeRegs_regsTo]
  rfl

theorem wokenUp_gpio : (s.wokenUp src pins).gpio = s.gpio := by
  rw [(wokenUp_recordsTo s src pins).gpio, samplePins_gpio, wakeRegs_regsTo]
  rfl

/-- Outside the Logbook, memory holds what was in retention. -/
theorem byte_wokenUp {a : Nat} (ha : a / 2 ^ 24 ≠ 0x4200) : (s.wokenUp src pins).byte a = if retainedByte a then s.byte a else 0 := by
  rw [(wokenUp_recordsTo s src pins).mem a ha, State.byte, samplePins_mem, wakeRegs_regsTo, ← byte_kept, State.byte]

theorem byte_kept_wokenUp {a : Nat} (ha : a < 0x1000000000 ∨ (0x4100000000 ≤ a ∧ a < 0x4200000000)) :
    (s.wokenUp src pins).byte a = s.byte a := by
  rw [byte_wokenUp s src pins (by omega), if_pos (by simp only [retainedByte, Bool.or_eq_true, Bool.and_eq_true, decide_eq_true_eq]; omega)]

theorem byte_lost_wokenUp {a : Nat} (ha : ¬(a < 0x1000000000 ∨ (0x4100000000 ≤ a ∧ a < 0x4200000000)))
    (hlog : ¬(0x4200000000 ≤ a ∧ a < 0x4300000000)) : (s.wokenUp src pins).byte a = 0 := by
  rw [byte_wokenUp s src pins (by omega), if_neg (by simp only [retainedByte, Bool.or_eq_true, Bool.and_eq_true, decide_eq_true_eq]; omega)]

/-- Outside the status of the pair and of desk sensing and the Logbook, the registers are those in retention and those of the wake. -/
theorem reg_wokenUp {o : Nat} (ho : OutsideLog o) (hst : o ≠ R.STEP_STATUS) (ht : o ≠ R.TOUCH_STATUS) :
    (s.wokenUp src pins).reg o = if o = R.MGMT_GPIO_IN then s.gpio else (s.kept.wakeRegs src).reg o := by
  have hgpio : (s.kept.wakeRegs src).gpio = s.gpio := by rw [wakeRegs_regsTo]; rfl
  rw [(wokenUp_recordsTo s src pins).reg o ho, reg_samplePins _ _ _ hst ht, hgpio]

theorem wokenUp_pins : (s.wokenUp src pins).fld F.STEP_STATUS_PINS = pins % 4 :=
  ((wokenUp_recordsTo s src pins).fld (by decide)).trans (samplePins_pins ..)

theorem wakeRegs_dvfs : (s.wakeRegs src).fld F.PWR_DVFS_CURRENT = 3 ∧ (s.wakeRegs src).fld F.PWR_DVFS_TARGET = 3 := by
  constructor
  all_goals
    rw [State.wakeRegs, fld_setReg_ne _ _ (by decide)]
    simp (disch := decide) only [State.setFlds, List.foldl_cons, List.foldl_nil, fld_setFld_sep]
    exact fld_setFld_fits (by decide) (by decide)

theorem wakeRegs_cause : (s.wakeRegs src).fld F.PWR_WAKE_CAUSE = src.val + 1 := by
  rw [State.wakeRegs, fld_setReg_ne _ _ (by decide)]
  exact fld_setFld_fits (f := F.PWR_WAKE_CAUSE) (by decide) (show src.val + 1 < 8 by omega)

theorem wakeRegs_keepCause : (s.wakeRegs src).reg R.KEEP_CAUSE = BitVec.ofNat 32 (causeWord 4 1 0) := reg_setReg_same ..

/-- The channels' status registers are not in retention, and a channel resets to state 0. -/
theorem ddrStatus_reset : ∀ c : Fin 8, retained (R.DDR_STATUS c) = false ∧ bits (rstOf (R.DDR_STATUS c)).toNat 10 8 = 0 := by
  decide +kernel

theorem wakeRegs_ddrState {c : Nat} (hc : c < 8) : (s.kept.wakeRegs src).fld (F.DDR_STATUS_STATE c) = 0 := by
  obtain ⟨hr, h0⟩ := ddrStatus_reset ⟨c, hc⟩
  have hne : ∀ o ∈ [R.PWR_DVFS, R.PWR_WAKE, R.KEEP_CAUSE], R.DDR_STATUS c ≠ o := by
    simp only [List.forall_mem_cons, List.not_mem_nil, false_imp_iff, implies_true, and_true, R.DDR_STATUS, R.PWR_DVFS, R.PWR_WAKE, R.KEEP_CAUSE]
    omega
  simp only [List.forall_mem_cons, List.not_mem_nil, false_imp_iff, implies_true, and_true] at hne
  obtain ⟨hd, hw, hk⟩ := hne
  have hreg : (s.kept.wakeRegs src).reg (R.DDR_STATUS c) = rstOf (R.DDR_STATUS c) := by
    rw [State.wakeRegs, reg_setReg_ne _ _ hk, reg_setFlds_ne, reg_kept, if_neg (by rw [hr]; exact Bool.false_ne_true)]
    simp only [List.forall_mem_cons, List.not_mem_nil, false_imp_iff, implies_true, and_true]
    exact ⟨hd, hd, hw⟩
  exact (congrArg (fun x : Word => bits x.toNat 10 8) hreg).trans h0

end Woken

/-! ### The state that the Keeper's start leaves -/

section Started
variable (s : State) (src : Fin 3) (pins : Nat) (ok0 ok1 : Bool)

/-- RETAIN's end: the Keeper has started. -/
def State.awake : State := (s.wokenUp src pins).bootWarm ok0 ok1

theorem exec_retainWake (role : BitVec 2) : exec (.retainWake src role ok0 ok1) s = .next
    (if s.Wakes src role then s.awake src (s.wakePins src role) ok0 ok1 else s) := by
  have hsrc2 : src.val = 2 ↔ src = 2 := by omega
  have hpins : (if src.val = 2 then role.toNat else s.pwr.rolePins) = s.wakePins src role := if_congr hsrc2 rfl rfl
  show execRetainWake src role ok0 ok1 s = _
  unfold execRetainWake
  dsimp only
  rw [hpins]
  by_cases hw : s.Wakes src role
  · rw [if_neg (mt stays_iff.mp (not_not.mpr hw)), if_pos hw, State.awake, State.wokenUp, State.wakeRegs, State.kept]
    simp only [retainedByte]
  · rw [if_pos (stays_iff.mpr hw), if_neg hw]

theorem awake_bootsTo : (s.wokenUp src pins).BootsTo (s.awake src pins ok0 ok1) := .bootWarm _ ok0 ok1

theorem awake_pwr : (s.awake src pins ok0 ok1).pwr.phase = .run ∧ (s.awake src pins ok0 ok1).pwr.woke = true ∧
    (s.awake src pins ok0 ok1).pwr.vid = 3 := by
  rw [(awake_bootsTo s src pins ok0 ok1).pwr, wokenUp_pwr]
  exact ⟨rfl, rfl, rfl⟩

theorem awake_now : (s.awake src pins ok0 ok1).time.now = 0 := by rw [(awake_bootsTo s src pins ok0 ok1).time, wokenUp_now]

theorem awake_gpio : (s.awake src pins ok0 ok1).gpio = s.gpio := by rw [(awake_bootsTo s src pins ok0 ok1).gpio, wokenUp_gpio]

theorem awake_pins : (s.awake src pins ok0 ok1).fld F.STEP_STATUS_PINS = pins % 4 :=
  ((awake_bootsTo s src pins ok0 ok1).fld (by decide)).trans (wokenUp_pins ..)

/-- Outside what records, sampling and booting write, the registers are those in retention and those of the wake. -/
theorem reg_awake {o : Nat} (h : OutsideBoot o ∧ o ≠ R.STEP_STATUS ∧ o ≠ R.TOUCH_STATUS) :
    (s.awake src pins ok0 ok1).reg o = if o = R.MGMT_GPIO_IN then s.gpio else (s.kept.wakeRegs src).reg o := by
  obtain ⟨ho, hst, ht⟩ := h
  rw [(awake_bootsTo s src pins ok0 ok1).reg o ho, reg_wokenUp s src pins ho.1 hst ht]

theorem fld_awake {f : Fld} (h : (OutsideBoot f.addr ∧ f.addr ≠ R.STEP_STATUS ∧ f.addr ≠ R.TOUCH_STATUS) ∧ f.addr ≠ R.MGMT_GPIO_IN) :
    (s.awake src pins ok0 ok1).fld f = (s.kept.wakeRegs src).fld f :=
  fld_of_reg (by rw [reg_awake s src pins ok0 ok1 h.1, if_neg h.2])

theorem awake_gpioIn : (s.awake src pins ok0 ok1).reg R.MGMT_GPIO_IN = s.gpio := by
  rw [reg_awake s src pins ok0 ok1 (by decide), if_pos rfl]

theorem awake_keepCause : (s.awake src pins ok0 ok1).reg R.KEEP_CAUSE = BitVec.ofNat 32 (causeWord 4 1 0) := by
  rw [reg_awake s src pins ok0 ok1 (by decide), if_neg (by decide), wakeRegs_keepCause]

theorem awake_ddrState {c : Nat} (hc : c < 8) : (s.awake src pins ok0 ok1).fld (F.DDR_STATUS_STATE c) = 0 := by
  rw [fld_awake, wakeRegs_ddrState s src hc]
  simp only [F.DDR_STATUS_STATE, R.DDR_STATUS, OutsideBoot, OutsideLog, R.MGMT_XSPI_CFG, R.KEEP_BOOT, R.KEEP_BOOT_VER, R.STEP_STATUS,
    R.TOUCH_STATUS, R.MGMT_GPIO_IN]
  omega

end Started

/-! ### The warm path (R521) -/

theorem bytes_congr {a n : Nat} (h : ∀ x, a ≤ x → x < a + n → t.byte x = s.byte x) : t.bytes a n = s.bytes a n := by
  refine List.map_congr_left (fun x hx => ?_)
  obtain ⟨i, hi, rfl⟩ := List.mem_map.mp hx
  exact h _ (Nat.le_add_right a i) (Nat.add_lt_add_left (List.mem_range.mp hi) a)

/-- Code whose digest is as measured is entered where it was entered before. -/
theorem bootWarm_of_digest {len entry : Nat} {dig : List Byte} {ok0 ok1 : Bool} (hw : s.pwr.warm = some (len, entry, dig))
    (hd : sha256 (s.bytes 0x4100000000 len) = dig) :
    s.bootWarm ok0 ok1 = s.setCore 12 { CoreSt.reset 12 with pc := BitVec.ofNat 64 (0x4100000000 + entry) } := by
  unfold State.bootWarm
  rw [hw]
  exact if_pos hd

/-- The island's code stands unchanged after RETAIN. -/
theorem awake_warm {pins len entry : Nat} {dig : List Byte} {ok0 ok1 : Bool} (hw : s.pwr.warm = some (len, entry, dig)) (hlen : len ≤ 0x100000)
    (hd : sha256 (s.bytes 0x4100000000 len) = dig) : s.awake src pins ok0 ok1 =
      (s.wokenUp src pins).setCore 12 { CoreSt.reset 12 with pc := BitVec.ofNat 64 (0x4100000000 + entry) } := by
  refine bootWarm_of_digest (by rw [wokenUp_pwr]; exact hw) ((congrArg sha256 (bytes_congr fun x hlo hhi => ?_)).trans hd)
  exact byte_kept_wokenUp s src pins (by omega)

end Sys2Proof.Machine

open Sys2Proof Sys2Proof.Machine

/-- Settles O52: each command comes to an equation that says what `exec` answers (`exec_dvfsGo`, `exec_retainWake`, …); what the Logbook's record
and the Keeper's start add to a state is known from `State.RecordsTo` and `State.BootsTo`, which leave the registers named here alone. -/
theorem railsAndPower : Obligations.RailsAndPower := by
  unfold Obligations.RailsAndPower
  intro s
  refine ⟨rfl, ?_, fun hr => ?_, fun src role ok0 ok1 => ?_⟩
  · have hbump : s.bump F.PWR_AON_STAT_FAILS = s.setFld F.PWR_AON_STAT_FAILS (min 255 (s.fld F.PWR_AON_STAT_FAILS + 1)) := rfl
    rw [← hbump]
    rfl
  · intro dip err
    refine ⟨fun mv hd => ?_, fun hv => if_pos hv, fun mv hd => gives_dipBegin hr hd (fun t ht hlog => ?_), fun ns mv hd => ?_,
      fun ns mv hd => gives_dipEnd hr hd (fun t ht hlog => ?_), fun r => ⟨exec_railLowClear hr r, exec_railWarn hr r⟩, fun k d => ?_,
      fun m w hm => ?_, exec_dvfsDone hr, fun m w hm => ?_, fun m w hm => ?_, fun m w hm => ?_, fun m w hm => ?_, fun m w hm => ?_⟩
    · rw [exec_dipBegin hr, if_pos hd, State.sampledNow, ← withPwr_setFld]
    · exact ⟨(ht.fld (by decide)).trans dipBegun_vcore, (ht.fld (by decide)).trans dipBegun_active,
        (ht.bitAt (by decide)).trans dipBegun_railLow, (ht.bitAt (by decide)).trans dipBegun_err, (ht.fld (by decide)).trans dipBegun_count,
        hlog, fun h hh => by rw [ht.heads]; exact dip_dipBegun hh, State.DipsTo.frame_records dipBegun_dipsTo ht⟩
    · rw [exec_dipEnd hr, if_neg (Bool.eq_false_iff.mp hd)]
    · obtain ⟨hpair, hqueue, hframe⟩ := dipJudged_records (ns := ns) (dipOver_regsTo s ns mv) ht
      have hkept (hns : ns ≤ 2000000) {o : Nat} (ho : OutsideLog o) (hdip : o ≠ R.PWR_STATUS ∧ o ≠ R.PWR_DIP_DUR ∧ o ≠ R.PWR_DIP_MIN) :
          (t.dipJudged ns).reg o = s.reg o := (reg_dipJudged hns o).trans ((ht.reg o ho).trans (reg_dipOver hdip))
      exact ⟨(fld_dipJudged (by decide)).trans ((ht.fld (by decide)).trans dipOver_active),
        (bitAt_congr (fld_dipJudged (by decide))).trans ((ht.bitAt (by decide)).trans dipOver_railLow),
        (fld_dipJudged (by decide)).trans ((ht.fld (by decide)).trans dipOver_duration),
        (fld_dipJudged (by decide)).trans ((ht.fld (by decide)).trans dipOver_minimum), hpair, dipJudged_long,
        fun hns => ⟨hkept hns (by decide) (by decide), hkept hns (by decide) (by decide), hkept hns (by decide) (by decide)⟩,
        by rw [hqueue]; exact hlog, hframe⟩
    · exact ⟨_, exec_tempSample hr, sampleTemp_temp, sampleTemp_alarm, reg_err_sampleTemp, sampleTemp_hot, sampleTemp_cool,
        sampleTemp_frame s k d, sampleTemp_sameRegsBut s k d⟩
    · intro p goal cur busy wrong
      rw [exec_dvfsGo hr hm, dvfsWrite_freeWrite]
      have hstarts (hgo : w.getLsbD 31 = true) (hb : busy = false) : ¬(w.getLsbD 31 = false ∨ s.bit F.PWR_STATUS_DVFS_BUSY = true) := by
        simp [hgo, show s.bit F.PWR_STATUS_DVFS_BUSY = false from hb]
      exact ⟨fun h => by rw [if_pos h], fun hgo hb hw => by rw [if_neg (hstarts hgo hb), if_pos hw],
        fun hgo hb hw => by rw [if_neg (hstarts hgo hb), if_neg hw]⟩
    · intro p q goal still cold ok
      refine ⟨fun i hi => ⟨fun hgo => ?_, fun hgo hno => ?_⟩, fun hgo hok hdeep => ?_, fun hgo hok hret => ⟨_, ?_, taken_withPwr_pwr,
        (taken_withPwr_fld _).trans selfRefreshed_ready, (taken_withPwr_fld _).trans selfRefreshed_top,
        fun c hc => (taken_withPwr_fld _).trans (selfRefreshed_state hc),
        ((goTaken_regsTo s w.toNat).trans (selfRefreshed_regsTo _)).frame_taken rfl, sameRegs_retained s w.toNat⟩⟩
      · rw [exec_stateWrite hr hm hi, pwrStateWrite_freeWrite, if_pos hgo]
      · rw [exec_stateWrite hr hm hi, pwrStateWrite_freeWrite, if_neg (by simp [hgo]), if_pos hno, State.goTaken]
      · rw [exec_stateWrite (w := w) hr hm (by simp), pwrStateWrite_freeWrite, if_neg (by simp [hgo]), if_neg (not_not.mpr hok),
          if_neg (fun h => absurd (hdeep.symm.trans h) (by decide)), State.goTaken]
      · rw [exec_stateWrite (w := w) hr hm (by simp), pwrStateWrite_freeWrite, if_neg (by simp [hgo]), if_neg (not_not.mpr hok), if_pos hret]
    · dsimp only
      obtain ⟨hready, htop, hdone, hgo'⟩ := resumed_flags (s.resumeTaken w.toNat)
      refine ⟨fun hgo => ?_, fun hgo hw => ?_, fun hgo hw => ⟨_, ?_, taken_withPwr_pwr, (taken_withPwr_fld _).trans hready,
        (taken_withPwr_fld _).trans (htop.trans (congrArg usableGib (resumeTaken_density _))), (taken_withPwr_fld _).trans hdone,
        (taken_withPwr_fld _).trans (hgo'.trans (resumeTaken_go _)),
        fun c hc => ⟨(taken_withPwr_fld _).trans (atP3_resumed hc).1, (taken_withPwr_fld _).trans (atP3_resumed hc).2⟩,
        ((resumeTaken_regsTo s w.toNat).resumes.trans (resumed_resumesTo _)).frame_taken rfl⟩⟩
      · rw [exec_pwrDdrResume hr hm, ddrResume_freeWrite, if_pos hgo]
      · rw [exec_pwrDdrResume hr hm, ddrResume_freeWrite, if_neg (by simp [hgo]), if_pos hw, State.resumeTaken]
      · rw [exec_pwrDdrResume hr hm, ddrResume_freeWrite, if_neg (by simp [hgo]), if_neg (by simp [hw])]
    · rw [exec_keepWdogKick hr hm, keepKick_freeWrite, State.taken]
    · intro more
      rw [exec_keepFuseBurn hr hm, fuseBurn_freeWrite]
      exact ⟨fun hb => by rw [if_pos hb], fun hb hmore => by rw [if_neg (by simp [hb]), if_pos hmore, State.taken],
        fun hb hmore => by rw [if_neg (by simp [hb]), if_neg hmore]⟩
    · intro set free entry
      have hcores := releaseCores_coresTo (bits w.toNat 7 0) 8 s.appEntry (s.written R.KEEP_APP_RELEASE w.toNat)
      refine ⟨fun hset => ?_, fun hset hno => ?_, fun hset hfree => ⟨_, ?_, hcores.regs_taken, core_appRelease s w s.appEntry,
        hcores.frame_taken (written_regsTo s _ _) rfl⟩⟩
      · rw [exec_keepAppRelease hr hm, appRelease_freeWrite, if_pos hset]
      · rw [exec_keepAppRelease hr hm, appRelease_freeWrite, if_neg hset, if_pos hno]
      · rw [exec_keepAppRelease hr hm, appRelease_freeWrite, if_neg hset, if_neg (not_not.mpr hfree)]
  · intro pins wakes kept
    refine ⟨fun (hno : ¬s.Wakes src role) => by rw [exec_retainWake, if_neg hno],
      fun (hyes : s.Wakes src role) => ⟨_, by rw [exec_retainWake, if_pos hyes], ?_⟩⟩
    obtain ⟨hphase, hwoke, hvid⟩ := awake_pwr s src (s.wakePins src role) ok0 ok1
    refine ⟨hphase, hwoke, hvid, (fld_awake s src _ ok0 ok1 (by decide)).trans (wakeRegs_dvfs _ src).1,
      (fld_awake s src _ ok0 ok1 (by decide)).trans (wakeRegs_dvfs _ src).2,
      (fld_awake s src _ ok0 ok1 (by decide)).trans (wakeRegs_cause _ src),
      awake_keepCause .., awake_pins .., awake_now .., awake_gpio .., awake_gpioIn .., fun c hc => awake_ddrState s src _ ok0 ok1 hc,
      fun len entry dig hwarm hlen hdig => ?_⟩
    rw [awake_warm hwarm hlen hdig]
    exact ⟨core_setCore_same .., fun a ha => (byte_setCore ..).trans (byte_kept_wokenUp s src _ ha),
      fun a ha hlog => (byte_setCore ..).trans (byte_lost_wokenUp s src _ ha hlog)⟩

end
